-- ==== Sys2Proof/Word.lean ====
section
/-! DEFINITION. Sys2Proof/Word.lean: the word types of the KB-816 and their plainest arithmetic (R1, R2). -/

namespace Sys2Proof

/-- One byte of memory. -/
abbrev Byte := BitVec 8
/-- A 32-bit register or scalar (R62). -/
abbrev W32 := BitVec 32
/-- A 64-bit register pair, pointer or instruction word (R42, R63). -/
abbrev W64 := BitVec 64
/-- One bit for each lane of the widest group (R27, R154). -/
abbrev Mask := BitVec 128

/-- Bits h:lo of a natural number, as R1 reads them. -/
def bits (x h lo : Nat) : Nat := (x >>> lo) % 2 ^ (h + 1 - lo)

/-- One bit of a natural number. -/
def bit (x i : Nat) : Bool := Nat.testBit x i

/-- The n-bit two's-complement value of x (R85). -/
def sext (x n : Nat) : Int := if bit x (n - 1) && n != 0 then (x % 2 ^ n : Nat) - (2 ^ n : Nat) else (x % 2 ^ n : Nat)

/-- An integer modulo 2^n (R85: integer arithmetic wraps). -/
def wrap (x : Int) (n : Nat) : Nat := (x % (2 ^ n : Nat)).toNat

/-- x clamped to the range lo to hi (R84). -/
def sat (x lo hi : Int) : Int := if x < lo then lo else if hi < x then hi else x

/-- Ceiling of a quotient. -/
def ceilDiv (a b : Nat) : Nat := (a + b - 1) / b

/-- 1 for true, 0 for false. -/
def b2n (b : Bool) : Nat := if b then 1 else 0

/-- The little-endian value of a list of bytes (R2). -/
def leValue : List Byte → Nat
  | [] => 0
  | b :: bs => b.toNat + 256 * leValue bs

/-- The n low bytes of a number, lowest first (R2). -/
def leBytes : Nat → Nat → List Byte
  | 0, _ => []
  | n + 1, x => BitVec.ofNat 8 x :: leBytes n (x / 256)

/-- The list element at i, or d beyond the end. -/
def nth {α : Type} (l : List α) (i : Nat) (d : α) : α := l.getD i d

/-- The list with its element at i changed by f; unchanged beyond the end. -/
def modAt {α : Type} (l : List α) (i : Nat) (f : α → α) : List α := l.modify i f

/-- The lane numbers of a mask, lowest first. -/
def lanesOf (m : Mask) : List Nat := (List.range 128).filter (fun l => m.getLsbD l)

/-- A mask with the bits of a list of lanes. -/
def maskOf : List Nat → Mask
  | [] => 0
  | l :: ls => (BitVec.ofNat 128 (2 ^ l)) ||| maskOf ls

/-- The mask of lanes 0 to w - 1. -/
def fullMask (w : Nat) : Mask := BitVec.ofNat 128 (2 ^ w - 1)

/-- The mask of one lane. -/
def oneLane (l : Nat) : Mask := BitVec.ofNat 128 (2 ^ l)

end Sys2Proof
end

