-- ==== Sys2Proof/Config.lean ====
section
/-! DEFINITION. Sys2Proof/Config.lean: what the part fixes (R11-R16, R452) and the free values the manual leaves open (no body: nothing can evaluate them). -/

namespace Sys2Proof.Config

/-- Compute stacks (R11). -/
def numStacks : Nat := 8
/-- Cores (R11, R15). -/
def numCores : Nat := 160
/-- Cores of one stack (R12). -/
def coresPerStack : Nat := 20
/-- Issue slices of a core (R16). -/
def numSlices : Nat := 6
/-- Group slots of a slice (R16). -/
def slotsPerSlice : Nat := 16
/-- Dies of the package (R12). -/
def numDies : Nat := 18
/-- Stops of the ring (R18). -/
def numStops : Nat := 10
/-- Partitions (R38). -/
def numParts : Nat := 8
/-- Pool granules a program may use (R210). -/
def poolGranules : Nat := 2016
/-- HBM4E stacks (R13). -/
def numHbm : Nat := 12
/-- The 2 MiB granules of one HBM4E stack, 64 GiB (R11). -/
def hbmGranules : Nat := 32768
/-- The 2 MiB granules of one second-tier bank, 1 TiB (R11, R13). -/
def tierGranules : Nat := 524288
/-- The device stamp (R452). -/
def deviceStamp : Nat := 0x5E1A77C2

/-- FREE VALUE: the ticks of the reference clock between two steps (timing is not modelled; DESIGN CHOICE, log 2). -/
opaque elapsedTicks : Nat → Nat
/-- FREE VALUE: the cycles of a slice between two steps beyond those in which it issues, by a stamp, the core and the slice (R57, R275; DESIGN CHOICE, log 2). -/
opaque sliceCycles : Nat → Nat → Nat → Nat
/-- FREE VALUE: how far a core's timer copy lags the master count; the model uses it modulo 3 (R276; DESIGN CHOICE, log 2). -/
opaque timerLag : Nat → Nat
/-- FREE VALUE: the bits an approximated function returns: function, type code, flush setting, operand bits (R199; DESIGN CHOICE, log 4). -/
opaque approxBits : Nat → Nat → Bool → W32 → W32
/-- FREE VALUE: the bits of a word read from a register whose content the manual leaves open (DESIGN CHOICE, log 2). -/
opaque freeWord : Nat → W32
/-- FREE VALUE: which of the values that a racing read may return it returns, by a stamp and the byte's key; the model uses it modulo their number (R133; DESIGN CHOICE, log 2). -/
opaque raceChoice : Nat → Nat → Nat
/-- FREE VALUE: a byte of storage whose content the manual leaves open, by a stamp and a place (DESIGN CHOICE, log 2). -/
opaque freeByte : Nat → Nat → Byte

end Sys2Proof.Config
end

