-- ==== Sys2Proof/Syntax.lean ====
section
/-! DEFINITION. Sys2Proof/Syntax.lean: operands, instruction formats and the one inductive Instr, with a constructor for every row of spec/opcode_table.json: the 168 instructions of R75 and the 153 steps the part takes beside them. -/

namespace Sys2Proof

/-- The type codes of R64; code 15 is reserved and has no constructor. -/
inductive Ty where
  | b32 | s32 | z32 | f32 | f16 | bf16 | s64 | z64 | b64 | f16x2 | bf16x2 | s16x2 | z16x2 | s8x4 | z8x4
  deriving DecidableEq, Repr

/-- An 8-bit operand code (R62); 0xFF is illegal and has no constructor. -/
inductive Opd where
  | v (n : Fin 192)
  | s (n : Fin 48)
  | k (n : Fin 8)
  | zero | one | half | two | negOne | lane | ones
  deriving DecidableEq, Repr

/-- SCOPE (R71, R124); codes 6 and 7 are reserved. -/
inductive Scope where
  | grp | team | stk | dev | fab | sys
  deriving DecidableEq, Repr

/-- ORDER (R71, R123). -/
inductive Order where
  | rlx | acq | rel | ar
  deriving DecidableEq, Repr

/-- The common fields of every instruction word (R67). -/
structure Guard where
  sw : Bool
  pk : BitVec 3
  pn : Bool
  deriving DecidableEq, Repr

/-- Format R (R69). Bit 2 of lu marks A, bit 1 marks B, bit 0 marks C (R66). -/
structure FormR where
  gd : Guard
  d : Opd
  a : Opd
  b : Opd
  c : Opd
  ty : Ty
  mod : BitVec 3
  lu : BitVec 3
  sn : Bool
  ext : BitVec 8
  deriving DecidableEq, Repr

/-- Format I (R70). -/
structure FormI where
  gd : Guard
  d : Opd
  ty : Ty
  mod : BitVec 3
  sn : Bool
  rsv : BitVec 3
  imm : W32
  deriving DecidableEq, Repr

/-- Format M (R71). Bit 1 of lu marks A, bit 0 marks B. -/
structure FormM where
  gd : Guard
  d : Opd
  a : Opd
  b : Opd
  scope : Scope
  order : Order
  size : BitVec 3
  sub : BitVec 4
  lu : BitVec 2
  sn : Bool
  off : BitVec 12
  deriving DecidableEq, Repr

/-- Format J (R72). -/
structure FormJ where
  gd : Guard
  off : W32
  hint : BitVec 2
  ck : BitVec 3
  cn : Bool
  opd : BitVec 8
  rsv : BitVec 5
  deriving DecidableEq, Repr

/-- Format Q (R73). -/
structure FormQ where
  gd : Guard
  d : Opd
  a : Opd
  b : Opd
  fmt : BitVec 5
  scope : Scope
  sub : BitVec 8
  lu : BitVec 2
  sn : Bool
  ext : BitVec 8
  deriving DecidableEq, Repr

/-- An entry of an object cache: a global object, a peer's object or a multicast object (R246, R399). -/
inductive ObjKey where
  | g (obj : Nat)
  | x (member obj : Nat)
  | m (group obj : Nat)
  deriving DecidableEq, Repr

/-- A 128-byte line held by L1 ways: a G line (object, line number) or an H line (R140, R240). -/
inductive LineKey where
  | g (obj line : Nat)
  | h (line : Nat)
  deriving DecidableEq, Repr

/-- The three barrier instructions' kinds (R324). -/
inductive BarKind where
  | team | stack | grid
  deriving DecidableEq, Repr

/-- What a peer brought to a collective: its rank and the incarnation that its packets carry (R403), when it accepted its own, whether its descriptor agreed, its SEND bytes (R409, R410). -/
structure PeerColl where
  rank : Nat
  incarn : Nat
  since : Nat
  agrees : Bool
  send : List Byte
  deriving DecidableEq, Repr

/-- What a packet from a peer answers with (R403, R138): the peer's incarnation, the one that it recorded of the requester, and whether it met a scope mismatch. -/
structure FabTag where
  incarn : Nat
  req : Nat
  mism : Bool
  deriving DecidableEq, Repr

/-- What a peer's reply to an access brings: the value and the answer's tag (R401, R403). -/
structure FabValue where
  vals : List W32
  tag : FabTag
  deriving DecidableEq, Repr

/-- A member's acknowledgement or refusal of a write (R401, R403). -/
structure FabAck where
  member : Nat
  failed : Bool
  tag : FabTag
  deriving DecidableEq, Repr

/-- Bytes of lanes that an access reads or writes now: which lanes, and which bytes of each (R122). -/
structure LaneBytes where
  lanes : Mask
  bytes : W32
  deriving DecidableEq, Repr

/-- Another member's multicast store or reduction as the switches deliver it to this member, with the incarnation that its packet carries, whether it is strong, its order and its scope (R401-R403). -/
structure FabricUpdate where
  part : Nat
  member : Nat
  incarn : Nat
  strong : Bool
  order : Order
  scope : Scope
  group : Nat
  obj : Nat
  off : Nat
  size : Nat
  red : Option (BitVec 4)
  data : Nat
  deriving DecidableEq, Repr

/-- What the switches deliver to this member in one multicast step: another member's update, and own writes by number (R402). -/
structure FabricDelivery where
  upd : Option FabricUpdate
  own : List Nat
  deriving DecidableEq, Repr

/-- The access a peer makes to an object of this member (R400). -/
inductive FabricKind where
  | read
  | write (data : Nat)
  | atom (op : BitVec 4) (data : Nat)
  | acas (compare new : Nat)
  deriving DecidableEq, Repr

/-- A peer's access with the incarnation that its packet carries, whether it is strong, its order and its scope (R400, R401, R403). -/
structure FabricAccess where
  part : Nat
  member : Nat
  incarn : Nat
  strong : Bool
  order : Order
  scope : Scope
  obj : Nat
  off : Nat
  size : Nat
  kind : FabricKind
  deriving DecidableEq, Repr

/-- An inbound PCIe request at a function's BAR2 (R419, R421). -/
structure HostReq where
  part : Nat
  link : Nat
  rid : Nat
  ro : Bool
  ido : Bool
  off : Nat
  len : Nat
  data : List Byte
  atom : Option (BitVec 4)
  compare : Nat
  deriving DecidableEq, Repr

/-- Who asks for a page (R436): a lane of an operation, an instruction fetch, a copy or a drain. -/
inductive PageAsker where
  | lane (op : Nat) (lane : Nat)
  | fetch (g : Nat)
  | copy (req : Nat)
  | drain (cmd : Nat)
  deriving DecidableEq, Repr

/-- A page answer: bits 63:0 and 127:64 (R438). -/
structure PageAnswer where
  lo : W64
  hi : W64
  deriving DecidableEq, Repr

/-- Management messages (R442): register writes, domain, import-table and group configuration. -/
inductive MctpMsg where
  | write (off : Nat) (val : W64)
  | domain (part : Nat) (member : Nat) (members : List Nat)
  | leaveDomain (part : Nat)
  | importX (part member obj len rights : Nat)
  | importM (part group obj len rights : Nat)
  | dropImport (part : Nat) (key : ObjKey)
  | group (part group : Nat) (members : List Nat)
  | hops (part : Nat) (levels : List (Nat × Nat))
  deriving DecidableEq, Repr

/-- What the sensors and the power model report at a control interval (R471, R473): the draw U of base dies, memory and ports; for each stack its estimated power at operating points 0 (8/8 at 1.4 GHz) to 8 (2/8 at 0.70 GHz), its temperature in degrees, its rail state (0 below 90% throughout, 1 between, 2 reached its rating), and the mean power of each partition. -/
structure PowerEnv where
  base : Nat
  power : List (List Nat)
  temp : List Nat
  rail : List Nat
  mean : List Nat
  deriving DecidableEq, Repr

/-- Every row of spec/opcode_table.json. The first 168 are the instructions of R75 with the fields of their format; the rest are the part's own steps, whose arguments name what they act on and carry what the outside or a free choice (R8) supplies. -/
inductive Instr where
  /-- R158: Does nothing and takes one issue position. -/
  | nop (f : FormR)
  /-- R158: Writes operand A to D at the width of TY. -/
  | mov (f : FormR)
  /-- R158: Writes the 32-bit immediate to D, extended by type. -/
  | movi (f : FormI)
  /-- R158: Writes the immediate to the odd register of pair D. -/
  | movh (f : FormI)
  /-- R158: Selects A or B per lane under mask kC. -/
  | sel (f : FormR)
  /-- R159: Integer add per element, wrapping or saturating. -/
  | iadd (f : FormR)
  /-- R159: Integer subtract per element, wrapping or saturating. -/
  | isub (f : FormR)
  /-- R160: Add with carry-in and carry-out in mask kC. -/
  | iaddc (f : FormR)
  /-- R160: Subtract with borrow-in and borrow-out in mask kC. -/
  | isubb (f : FormR)
  /-- R159: Integer negation per element. -/
  | ineg (f : FormR)
  /-- R159: Integer absolute value per element. -/
  | iabs (f : FormR)
  /-- R159: Integer minimum per element. -/
  | imin (f : FormR)
  /-- R159: Integer maximum per element. -/
  | imax (f : FormR)
  /-- R161: Low half of the integer product. -/
  | imul (f : FormR)
  /-- R161: High half of the integer product. -/
  | imulh (f : FormR)
  /-- R161: Integer multiply-add modulo the width. -/
  | imad (f : FormR)
  /-- R161: 32 by 32 multiply plus a 64-bit addend into a pair. -/
  | imadw (f : FormR)
  /-- R162: Truncating integer division, optionally trapping on zero. -/
  | idiv (f : FormR)
  /-- R162: Integer remainder, optionally trapping on zero. -/
  | irem (f : FormR)
  /-- R163: Integer compare into a mask with set, and or or combine. -/
  | icmp (f : FormR)
  /-- R164: Bitwise and. -/
  | and (f : FormR)
  /-- R164: Bitwise or. -/
  | or (f : FormR)
  /-- R164: Bitwise exclusive or. -/
  | xor (f : FormR)
  /-- R164: Bitwise complement. -/
  | not (f : FormR)
  /-- R164: A and not B. -/
  | andn (f : FormR)
  /-- R165: Logical left shift per element. -/
  | shl (f : FormR)
  /-- R165: Logical right shift per element. -/
  | shr (f : FormR)
  /-- R165: Arithmetic right shift per element. -/
  | sar (f : FormR)
  /-- R165: Left rotate per element. -/
  | rot (f : FormR)
  /-- R165: Funnel shift of a 64-bit concatenation. -/
  | funnel (f : FormR)
  /-- R166: Bit-field extract with sign or zero extension. -/
  | bfe (f : FormR)
  /-- R166: Bit-field insert. -/
  | bfi (f : FormR)
  /-- R167: Population count. -/
  | popc (f : FormR)
  /-- R167: Count of leading zeros. -/
  | clz (f : FormR)
  /-- R167: Count of trailing zeros. -/
  | ctz (f : FormR)
  /-- R167: Bit reversal. -/
  | brev (f : FormR)
  /-- R167: Byte permute of A and B under nibble selectors. -/
  | bperm (f : FormR)
  /-- R168: Integer address A plus scaled B into a pair. -/
  | lea (f : FormR)
  /-- R169: Builds a tagged pointer in a space, faulting on out-of-range fields. -/
  | ptrmk (f : FormR)
  /-- R170: Adds to a pointer's offset field, faulting on overflow. -/
  | ptradd (f : FormR)
  /-- R171: Extracts one field of a pointer. -/
  | ptrget (f : FormR)
  /-- R173: Cross-lane shuffle within segments. -/
  | lshuf (f : FormR)
  /-- R174: Broadcasts one lane's value to every effective lane. -/
  | lbcast (f : FormR)
  /-- R175: All, any, uniform or ballot vote across lanes. -/
  | lvote (f : FormR)
  /-- R176: Inclusive or exclusive scan across a segment. -/
  | lscan (f : FormR)
  /-- R176: Reduction across a segment to every effective lane. -/
  | lreduce (f : FormR)
  /-- R177: Mask combination through a truth table. -/
  | kop (f : FormR)
  /-- R178: Moves bits between masks and registers by mode. -/
  | kmov (f : FormR)
  /-- R188: Float addition with one rounding. -/
  | fadd (f : FormR)
  /-- R188: Float subtraction with one rounding. -/
  | fsub (f : FormR)
  /-- R188: Float multiplication with one rounding. -/
  | fmul (f : FormR)
  /-- R189: Fused multiply-add with optional negations. -/
  | ffma (f : FormR)
  /-- R190: Float minimum, NaN propagating. -/
  | fmin (f : FormR)
  /-- R190: Float maximum, NaN propagating. -/
  | fmax (f : FormR)
  /-- R191: Float minimum number, NaN treated as missing. -/
  | fminnum (f : FormR)
  /-- R191: Float maximum number, NaN treated as missing. -/
  | fmaxnum (f : FormR)
  /-- R192: Float compare into a mask. -/
  | fcmp (f : FormR)
  /-- R193: Writes a class word of the operand. -/
  | fclass (f : FormR)
  /-- R194: Rounds to an integral value. -/
  | frnd (f : FormR)
  /-- R195: Fractional part a minus trunc(a). -/
  | ffrac (f : FormR)
  /-- R196: Multiplies by a power of two. -/
  | fscale (f : FormR)
  /-- R197: Writes floor(log2|a|). -/
  | fgetexp (f : FormR)
  /-- R199: Approximate reciprocal. -/
  | frcp (f : FormR)
  /-- R199: Approximate reciprocal square root. -/
  | frsq (f : FormR)
  /-- R198: Correctly rounded square root. -/
  | fsqrt (f : FormR)
  /-- R198: Correctly rounded division. -/
  | fdiv (f : FormR)
  /-- R199: Approximate 2 to the a. -/
  | fexp2 (f : FormR)
  /-- R199: Approximate log2. -/
  | flog2 (f : FormR)
  /-- R199: Approximate sine of an argument in turns. -/
  | fsin (f : FormR)
  /-- R199: Approximate cosine of an argument in turns. -/
  | fcos (f : FormR)
  /-- R199: Approximate hyperbolic tangent. -/
  | ftanh (f : FormR)
  /-- R199: Approximate logistic sigmoid. -/
  | fsigm (f : FormR)
  /-- R202: Float-to-float conversion, or a sign operation when EXT[6:5] is non-zero. -/
  | cvtf (f : FormR)
  /-- R204: Integer to float conversion. -/
  | cvti (f : FormR)
  /-- R204: Float to integer conversion. -/
  | cvtfi (f : FormR)
  /-- R205: Converts two values to a narrow format and packs them into D. -/
  | fpack (f : FormR)
  /-- R206: Decodes one packed narrow element. -/
  | funpack (f : FormR)
  /-- R207: Cross-lane block quantisation into codes and a scale. -/
  | qnt (f : FormR)
  /-- R208: Decodes an element code with its scale. -/
  | dqnt (f : FormR)
  /-- R209: Two-element half-precision dot product with F32 addend. -/
  | fdot2 (f : FormR)
  /-- R209: Four-element 8-bit dot product with F32 addend. -/
  | fdot4 (f : FormR)
  /-- R209: Eight-element 4-bit dot product with F32 addend. -/
  | fdot8 (f : FormR)
  /-- R232: Per-lane load from a pointer. -/
  | ld (f : FormM)
  /-- R233: Per-lane store to a pointer. -/
  | st (f : FormM)
  /-- R232: Load that never parks on absent lines. -/
  | ldnp (f : FormM)
  /-- R232: One load broadcast to every effective lane. -/
  | ldb (f : FormM)
  /-- R234: Atomic read-modify-write returning the old value. -/
  | atom (f : FormM)
  /-- R235: Atomic compare and swap. -/
  | acas (f : FormM)
  /-- R234: Atomic reduction returning no value. -/
  | red (f : FormM)
  /-- R130: Acquire, release or full fence at a scope. -/
  | fence (f : FormM)
  /-- R244: Grows the team scratchpad on the issuing core. -/
  | pgrow (f : FormR)
  /-- R244: Shrinks the team scratchpad on the issuing core. -/
  | pshrink (f : FormR)
  /-- R244: Grows the group's register frame. -/
  | fgrow (f : FormR)
  /-- R244: Shrinks the group's register frame. -/
  | fshrink (f : FormR)
  /-- R225: Touches registers and starts background operand-cache fills. -/
  | ocfill (f : FormR)
  /-- R226: Invalidates operand-cache entries, writing back or discarding. -/
  | ocdrop (f : FormR)
  /-- R227: Writes back every dirty lane of the group's set. -/
  | ocsync (f : FormR)
  /-- R241: Fills and pins L1 lines and reports success per lane. -/
  | lpin (f : FormM)
  /-- R241: Clears pin marks of L1 lines. -/
  | lunpin (f : FormM)
  /-- R241: Drops L1 lines, discarding written bytes. -/
  | linv (f : FormM)
  /-- R241: Writes back written L1 bytes, keeping the lines. -/
  | lwb (f : FormM)
  /-- R239: Reports whether pool lines are present. -/
  | pres (f : FormM)
  /-- R247: Queries a field of a global object. -/
  | objq (f : FormR)
  /-- R248: Tests whether an access would pass the pointer checks. -/
  | ptrchk (f : FormR)
  /-- R249: Passes placement advice to the memory processor. -/
  | advise (f : FormM)
  /-- R262: Unconditional branch ending the clause. -/
  | bra (f : FormJ)
  /-- R262: Conditional branch on a mask ending the clause. -/
  | brc (f : FormJ)
  /-- R262: Per-lane indirect branch. -/
  | brx (f : FormR)
  /-- R266: Call with window shift and return-stack push. -/
  | call (f : FormJ)
  /-- R266: Per-lane indirect call with window shift. -/
  | callx (f : FormR)
  /-- R267: Pops return entries and returns lanes. -/
  | ret (f : FormR)
  /-- R263: Decrements a scalar count and branches while non-zero. -/
  | loop (f : FormJ)
  /-- R269: Creates a fibre from idle lanes. -/
  | fspawn (f : FormJ)
  /-- R270: Makes effective lanes idle. -/
  | fend (f : FormR)
  /-- R271: Ends the clause and rotates to another ready fibre. -/
  | fyield (f : FormR)
  /-- R270: Makes effective lanes exited. -/
  | exit (f : FormR)
  /-- R272: Puts the fibre to sleep until a wake time. -/
  | sleep (f : FormR)
  /-- R274: Reads a special register. -/
  | gets (f : FormR)
  /-- R274: Writes a special register. -/
  | sets (f : FormR)
  /-- R288: Raises a user trap with number N. -/
  | trap (f : FormR)
  /-- R292: Leaves handler mode and resumes the trapped fibre. -/
  | tret (f : FormR)
  /-- R289: Sets handler entry, cause mask and handler shift. -/
  | tmask (f : FormR)
  /-- R290: Reads a field of the trap record. -/
  | tinfo (f : FormR)
  /-- R291: Substitutes a value into the trapped instruction's destination. -/
  | tsub (f : FormR)
  /-- R299: Saves a halted context's slot images and frees its slots. -/
  | ctxsave (f : FormR)
  /-- R299: Loads a saved context into free slots and runs it. -/
  | ctxload (f : FormR)
  /-- R302: Idles the agent until an event, or fences the core. -/
  | halt (f : FormR)
  /-- R305: Requests save or kill of a context. -/
  | preq (f : FormR)
  /-- R315: Reinitialises a barrier object. -/
  | binit (f : FormM)
  /-- R316: Arrives at a barrier object. -/
  | barv (f : FormM)
  /-- R317: Adds expected bytes, optionally arriving and clearing. -/
  | bexp (f : FormM)
  /-- R318: Parks until the object's phase passes p. -/
  | bwait (f : FormM)
  /-- R319: Registers a continuation on a barrier object. -/
  | bcont (f : FormJ)
  /-- R321: Parks until a phase or lattice cell reaches a target. -/
  | await (f : FormM)
  /-- R322: Arms the group's watch on a line. -/
  | watch (f : FormM)
  /-- R323: Parks until the watch triggers or a timeout. -/
  | pause (f : FormR)
  /-- R324: Team barrier arrival and wait. -/
  | tbar (f : FormR)
  /-- R324: Stack barrier arrival and wait. -/
  | sbar (f : FormR)
  /-- R324: Grid barrier arrival and wait. -/
  | gbar (f : FormR)
  /-- R332: Submits a strided copy request to the streamer. -/
  | cpy (f : FormQ)
  /-- R332: Submits an indexed gather request. -/
  | gath (f : FormQ)
  /-- R332: Submits an indexed scatter request. -/
  | scat (f : FormQ)
  /-- R332: Submits a pattern fill request. -/
  | cfill (f : FormQ)
  /-- R355: Reserves an operand-buffer or accumulator range. -/
  | orsv (f : FormQ)
  /-- R356: Releases a reservation once its commands complete. -/
  | orel (f : FormQ)
  /-- R356: Queries matrix engine free space or entries. -/
  | oqry (f : FormQ)
  /-- R358: Queues a matrix multiply-accumulate into a tile. -/
  | mma (f : FormQ)
  /-- R360: Queues clearing of accumulator tiles. -/
  | azero (f : FormQ)
  /-- R361: Queues a copy of accumulator rows into the frame. -/
  | amov (f : FormQ)
  /-- R361: Queues a copy of frame words into accumulator rows. -/
  | ains (f : FormQ)
  /-- R363: Queues a drain of a tile to memory. -/
  | adrain (f : FormQ)
  /-- R384: Joins values into lattice cells. -/
  | jst (f : FormM)
  /-- R386: Reads lattice cells once they pass a threshold. -/
  | jld (f : FormM)
  /-- R386: Reads lattice cells without waiting. -/
  | jldn (f : FormM)
  /-- R385: Adds to the issuing stack's slot of a GCOUNT cell. -/
  | jadd (f : FormM)
  /-- R388: Pushes the local replica to every other replica. -/
  | jtrade (f : FormQ)
  /-- R388: Queries a property of a lattice region. -/
  | jqry (f : FormQ)
  /-- R409: Submits a collective over a multicast group. -/
  | coll (f : FormQ)
  /-- R406: Waits for earlier peer writes and counts failures. -/
  | xfence (f : FormM)
  /-- R407: Queries domain, group and route properties. -/
  | xqry (f : FormQ)
  /-- R479: Reads a power or veer value. -/
  | pwrq (f : FormR)
  /-- R480: Arms or disarms the group for throttle traps. -/
  | pwrarm (f : FormR)
  /-- R485: Sets the team's veer hold and returns the grant. -/
  | veerhold (f : FormR)
  /-- R461: Claims a team index from the returned list or ticket counter. -/
  | tclaim (f : FormR)
  /-- R462: Reserves, binds or frees room for a team. -/
  | tplace (f : FormR)
  /-- R463: Decrements a graph node's predecessor counter. -/
  | gdec (f : FormR)
  /-- R464: Takes the head packet of a queue. -/
  | qtake (f : FormR)
  /-- R464: Acknowledges taken packets and removes them. -/
  | qack (f : FormR)
  /-- R229: A store is performed and d1 decremented. -/
  | storePerformed (op : Nat) (acc : LaneBytes)
  /-- R229: A pool or memory load's value is written and d0 decremented. -/
  | poolLoadReturn (op : Nat) (acc : LaneBytes)
  /-- R234: An atomic or reduction is performed, its value written and d2 decremented. -/
  | atomicPerformed (op : Nat) (lanes : Mask)
  /-- R401: An X load or atomic's value returns from the peer. -/
  | peerAccessReply (op : Nat) (lane : Nat) (status : Nat) (value : FabValue)
  /-- R401: Every target acknowledges a store or reduction. -/
  | peerWriteAck (write : Nat) (ack : FabAck)
  /-- R400: A peer's access is performed at this member's home L2 slice. -/
  | inboundFabricAccess (acc : FabricAccess)
  /-- R402: A multicast update is applied at a member's home slice. -/
  | multicastApply (dlv : FabricDelivery)
  /-- R411: A matched collective completes and updates the barrier object. -/
  | collectiveComplete (coll : Nat) (peers : List PeerColl)
  /-- R410: An unmatched collective completes with ERR after 2^30 ticks. -/
  | collectiveTimeout (coll : Nat)
  /-- R403: Requests outstanding to a reset peer complete as failed. -/
  | peerResetLearned (part : Nat) (member : Nat) (incarn : Nat)
  /-- R422: A posted write is received and its lines released under ordering rules. -/
  | inboundPostedWrite (req : HostReq)
  /-- R423: An inbound read is performed as strong system loads and completed. -/
  | inboundRead (req : HostReq)
  /-- R423: An inbound AtomicOp is performed at its home slice. -/
  | inboundAtomicop (req : HostReq)
  /-- R422: A released line is performed and acknowledged to the ordering point. -/
  | inboundLineAck (req : Nat) (line : Nat)
  /-- R426: A device access to a HOST granule is sent over the link. -/
  | hostMemoryRequest (op : Nat) (lanes : Mask)
  /-- R427: The host completes a device read or atomic request. -/
  | hostCompletion (op : Nat) (lane : Nat) (ok : Bool) (vals : List W32)
  /-- R436: An access to a NONE granule makes a page request record and signal. -/
  | pageRequest (part : Nat) (gran : Nat) (asker : PageAsker)
  /-- R436: The host advances the page-request ring head, freeing room for held records. -/
  | prqptrHeadWrite (part : Nat) (head : Nat)
  /-- R439: A ZERO answer allocates a zero-filled granule and performs joined accesses. -/
  | pageAnswerZero (ans : PageAnswer)
  /-- R439: A COPY answer copies the host frame into device memory and returns it. -/
  | pageAnswerCopy (ans : PageAnswer)
  /-- R439: A MAP answer maps the granule to the host frame. -/
  | pageAnswerMap (ans : PageAnswer)
  /-- R439: A FAIL answer faults joined lanes and aborts joined copies. -/
  | pageAnswerFail (ans : PageAnswer)
  /-- R440: Reports a page's state in HRES. -/
  | hreqQuery (part : Nat) (gran : Nat)
  /-- R440: Backs and pins a page against moves. -/
  | hreqPin (part : Nat) (gran : Nat)
  /-- R440: Clears a page's pin. -/
  | hreqUnpin (part : Nat) (gran : Nat)
  /-- R440: Copies a page to a host frame and makes it HOST. -/
  | hreqTohost (part : Nat) (gran : Nat) (hpa : Nat)
  /-- R440: Copies a HOST page into device memory. -/
  | hreqTodev (part : Nat) (gran : Nat)
  /-- R440: Discards a page's backing, making it NONE. -/
  | hreqDrop (part : Nat) (gran : Nat)
  /-- R430: Starts invalidation of an object-table entry in every cache. -/
  | otinvWrite (part : Nat) (obj : Nat)
  /-- R430: The invalidation finishes and BUSY reads 0. -/
  | otinvComplete (part : Nat)
  /-- R417: Setting PCFG.ENABLE creates and runs the partition, or logs an error. -/
  | partitionEnable (part : Nat) (val : W64) (grant : List Nat)
  /-- R418: Clearing PCFG.ENABLE tears the partition down. -/
  | partitionTeardown (part : Nat)
  /-- R418: The teardown finishes and configuration fields accept writes. -/
  | teardownComplete (part : Nat)
  /-- R432: At each epoch counters halve and pages are chosen for migration. -/
  | epochEnd (part : Nat)
  /-- R441: A virtual function reset drops its requests and kills its grids. -/
  | functionLevelReset (func : Nat)
  /-- R442: A management message reads or writes registers or configures the domain. -/
  | mctpMessage (msg : MctpMsg)
  /-- R444: A 64-byte packet written to QIN is accepted, dropped or refused. -/
  | qinSubmission (part : Nat) (queue : Nat) (bytes : List Byte)
  /-- R444: Enabling a queue resets LAST and QCSEQ. -/
  | qcfgEnable (part : Nat) (queue : Nat) (val : W64)
  /-- R443: A write-one-to-clear of OVER or GAP. -/
  | qstatusClear (part : Nat) (queue : Nat) (val : W64)
  /-- R416: A write to a register without behaviour of its own. -/
  | registerWrite (func : Nat) (off : Nat) (val : W64)
  /-- R468: A received facility cap with a new SEQ starts a shed sweep. -/
  | fcapWrite (val : W64)
  /-- R471: Every 20,000 ticks the arbiter computes grants, ceilings and causes. -/
  | controlInterval (env : PowerEnv)
  /-- R471: A stack's core-rail current reaches its rating and the ceiling falls within 2 us. -/
  | currentRatingReached (stack : Nat)
  /-- R473: A new slice ratio or cluster clock takes effect. -/
  | ratioChange (stack : Nat)
  /-- R476: A supply droop is detected and the core's clocks are stretched. -/
  | squall (core : Nat)
  /-- R476: The 256-cluster-cycle stretch after a squall runs out, the core's clocks return to their normal period and the squall's window closes. -/
  | squallStretchEnd (core : Nat)
  /-- R477: A suspect or failed compute clause is executed again. -/
  | clauseReexecute (g : Nat)
  /-- R482: A stack chooses hot and lee units or declares a lull. -/
  | veerInstant (stack : Nat) (heats : List Nat)
  /-- R483: A deferred veer starts when holds expire, stopping and exchanging both units. -/
  | veerStart (stack : Nat)
  /-- R484: The exchange finishes and carried groups become ready on the new unit. -/
  | veerPauseEnd (stack : Nat)
  /-- R22: A die is reset and its incarnation incremented. -/
  | dieReset (die : Nat)
  /-- R441: A host link retrains and held signals are sent. -/
  | linkRetrain (link : Nat)
  /-- R390: A region's trade instant takes a snapshot and sends fresh lines. -/
  | tradeInstant (part : Nat) (region : Nat)
  /-- R296: A halt request reaches a core and the context enters HALTING. -/
  | haltRequest (ctx : Nat)
  /-- R480: A due throttle trap is taken at the elected group's clause boundary. -/
  | throttleTrap (team : Nat)
  /-- R343: A request aborts on a failed page or error and credits with the error mark. -/
  | copyAbort (req : Nat)
  /-- R371: A drain aborts on a failed page or reset. -/
  | drainAbort (cmd : Nat)
  /-- R372: A suspect step or drain row is executed again from staged words. -/
  | matrixStepReexecute (cmd : Nat)
  /-- R465: The first watchdog limit pre-empts the grid's contexts. -/
  | watchdogPreempt (grid : Nat)
  /-- R465: The second watchdog limit kills the grid. -/
  | watchdogKill (grid : Nat)
  /-- R465: The third watchdog limit fences cores still holding the grid. -/
  | watchdogFence (grid : Nat)
  /-- R20: After 256 refused cycles a stop signals its upstream neighbour. -/
  | ringAdmissionStarved (stop : Nat) (up : Bool)
  /-- R23: The memory processor loads a reset die's incarnation table. -/
  | incarnationTableLoad (die : Nat)
  /-- R23: The new incarnation announcement travels round the ring. -/
  | incarnationAnnounce (die : Nat)
  /-- R24: Requests outstanding to a reset die complete with target-reset status. -/
  | targetResetCompletion (die : Nat) (target : Nat)
  /-- R277: In each slice cycle the slice chooses and issues a pass from its groups. -/
  | sliceIssue (core : Nat) (slice : Nat)
  /-- R277: A group whose instruction could issue for 32 slice cycles becomes urgent. -/
  | groupUrgent (g : Nat)
  /-- R325: A wave of teams is released from a grid barrier after its gap. -/
  | gustWaveRelease (grid : Nat)
  /-- R55: A clause header is fetched and checked and its first instruction issues once its WAIT counters read zero and prior writes have landed. -/
  | clauseStart (g : Nat) (refetch : BitVec 4)
  /-- R255: At a clause end the sequencer updates the fibre and chooses, rotates and merges fibres for the next clause. -/
  | clauseBoundary (g : Nat)
  /-- R310: An arrival, expectation, credit or error is applied to a barrier object. -/
  | barrierUpdate (upd : Nat)
  /-- R61: A switch-marker wait ends when counters are zero and writes landed. -/
  | switchPoint (g : Nat)
  /-- R284: A trap is recorded and delivered to the user handler or to system software. -/
  | trapDelivery (g : Nat)
  /-- R391: A receiver applies a sender's trade lines as one change and acknowledges. -/
  | tradePacketApply (pkt : Nat)
  /-- R21: A ring packet's last flit reaches the receiving engine. -/
  | ringPacketDelivery (pkt : Nat)
  /-- R56: A fixed-latency write lands at its issue position plus latency. -/
  | fixedLatencyLanding (g : Nat)
  /-- R219: A waiting group acquires operand-cache blocks for its entry set. -/
  | entrySetAcquire (g : Nat)
  /-- R225: A background operand-cache fill completes. -/
  | operandCacheFillDone (g : Nat)
  /-- R226: OCDROP's write-backs finish and d7 is decremented. -/
  | ocdropComplete (op : Nat)
  /-- R227: OCSYNC's write-backs finish and d7 is decremented. -/
  | ocsyncComplete (op : Nat)
  /-- R144: A load parked on absent lines resumes once every line is present. -/
  | parkedLoadWake (op : Nat)
  /-- R237: A release fence's stall ends when earlier writes are performed at its scope. -/
  | fenceDrainDone (g : Nat)
  /-- R246: An object-cache miss is answered from the object table. -/
  | objectCacheFill (core : Nat) (obj : ObjKey)
  /-- R241: The fill behind an LPIN completes. -/
  | lpinFillDone (ctx : Nat) (line : LineKey)
  /-- R243: The pool allocator answers a grow or shrink request. -/
  | allocatorAnswer (core : Nat)
  /-- R245: On a granule release, waiting stall-mode grows send new requests. -/
  | stallGrowRetry (core : Nat)
  /-- R245: A stall-mode grow waiting 65,536 ticks takes the pool-exhausted trap. -/
  | stallGrowTimeout (g : Nat)
  /-- R244: A shrink takes effect after copies into the removed range land. -/
  | shrinkAfterCopies (g : Nat)
  /-- R272: A sleeping fibre becomes ready at its wake time. -/
  | sleepWake (g : Nat)
  /-- R270: An ended group leaves its slot once its counters read zero. -/
  | groupLeaveSlot (g : Nat)
  /-- R346: A team's last group ends; its reservations free once its commands complete. -/
  | teamEnd (team : Nat)
  /-- R280: A pending translation-fault or memory-error trap is taken at a switch point. -/
  | switchPointTrap (g : Nat)
  /-- R296: A group halts at its clause end or at once if parked, writing back its set. -/
  | groupHalted (g : Nat)
  /-- R303: A kill stops every context of a grid on every core. -/
  | gridKill (grid : Nat)
  /-- R303: A killed context's segments free after landings and it becomes FREE. -/
  | killComplete (ctx : Nat)
  /-- R318: A waiter parked on a phase becomes ready after completion. -/
  | phaseWaiterWake (g : Nat)
  /-- R320: A continuation record becomes a live fibre after completion. -/
  | continuationFire (g : Nat)
  /-- R326: A wait without a table entry retests its condition every 64 cycles. -/
  | waitPoll (g : Nat)
  /-- R323: A PAUSE returns on watch trigger or other reason. -/
  | pauseWake (g : Nat)
  /-- R323: A PAUSE returns when its timeout expires. -/
  | pauseTimeout (g : Nat)
  /-- R324: A team, stack or grid barrier instance completes and releases its groups. -/
  | barrierInstanceComplete (kind : BarKind) (id : Nat) (share : Nat)
  /-- R340: A queued streamer request takes an active place. -/
  | streamerRequestActive (req : Nat)
  /-- R340: The streamer issues a source line read or fill write. -/
  | streamerLineRead (req : Nat)
  /-- R341: A line arrives and lands in its destination, setting presence bits. -/
  | streamerLineLand (req : Nat) (line : Nat)
  /-- R338: Landed bytes are credited to the barrier object. -/
  | streamerCredit (req : Nat)
  /-- R338: A completed request adds to its GCOUNT cell. -/
  | gcountCredit (req : Nat)
  /-- R338: A request's last credit is performed and its queue entry freed. -/
  | requestComplete (req : Nat)
  /-- R342: A bulk request is sent over the ring to a bulk streamer. -/
  | bulkHandoff (req : Nat)
  /-- R342: A bulk streamer's credit packet reaches the context's core. -/
  | bulkCreditArrival (pkt : Nat)
  /-- R343: A request stopped on a missing page rejoins the active set. -/
  | copyPageResume (req : Nat)
  /-- R367: A matrix step reads its operands and accumulates into the tile. -/
  | mmaStep (cmd : Nat)
  /-- R367: MMA results become available, FLAGS written and arrival made. -/
  | mmaResults (cmd : Nat)
  /-- R368: A queued AZERO, AMOV, AINS or ADRAIN begins. -/
  | matrixCommandBegin (cmd : Nat)
  /-- R368: An AZERO, AMOV or AINS finishes and d4 is decremented where due. -/
  | matrixCommandFinish (cmd : Nat)
  /-- R369: ADRAIN produces one direct or transposed row. -/
  | drainRow (cmd : Nat)
  /-- R369: A drain line lands or is performed at its destination. -/
  | drainLinePerformed (cmd : Nat) (line : Nat)
  /-- R364: A drain's last line is performed; FLAGS and the barrier update follow. -/
  | drainComplete (cmd : Nat)
  /-- R371: A drain stopped on a missing page resumes at that line. -/
  | drainPageResume (cmd : Nat)
  /-- R356: A releasing range is freed after earlier commands complete. -/
  | reservationFreed (core : Nat) (rec : Nat)
  /-- R383: A lattice lane is performed at the stack's replica. -/
  | latticeLanePerformed (op : Nat)
  /-- R396: Lattice values are written and d5 decremented. -/
  | latticeReply (op : Nat)
  /-- R386: A change to a cell satisfies a waiting JLD lane or AWAIT. -/
  | thresholdReached (op : Nat)
  /-- R387: A waiter without a table entry is retested every 256 cycles. -/
  | thresholdPoll (op : Nat)
  /-- R396: A lattice cell-cache miss is filled from HBM. -/
  | cellCacheFill (stack : Nat) (part : Nat) (region : Nat) (line : Nat)
  /-- R382: A missing region record is fetched into the region cache. -/
  | regionCacheFill (core : Nat) (region : Nat)
  /-- R393: A trade acknowledgement reaches the sender; the last completes the trade. -/
  | tradeAck (pkt : Nat)
  /-- R393: Rank 0 under star sends after applying every spoke's packets. -/
  | starHubSend (part : Nat) (region : Nat)
  /-- R393: A JTRADE's last acknowledgement arrives and d5 is decremented later. -/
  | jtradeComplete (op : Nat)
  /-- R401: The fabric port accepts an X or M store or reduction. -/
  | fabricPortAccept (op : Nat)
  /-- R406: An XFENCE's wait ends and its failure count is written. -/
  | xfenceDone (op : Nat)
  /-- R20: A stop admits a packet into a ring direction. -/
  | ringPacketAdmit (pkt : Nat)
  /-- R41: An uncorrectable error resets base die B and faults affected partitions. -/
  | baseDieBError
  /-- R41: An uncorrectable error on base die A resets the whole module. -/
  | baseDieAError
  /-- R22: Module power-on sets incarnations to 0x0001 and registers to reset. -/
  | modulePowerOn
  /-- R426: A zero-length read completes, letting a system-scope release proceed. -/
  | systemReleaseFlush (g : Nat)
  /-- R433: One 4 KiB step of a page move completes and held accesses proceed. -/
  | pageMoveStep (part : Nat) (gran : Nat)
  /-- R446: A NOP packet is acknowledged without effect. -/
  | cmdNop (part : Nat) (queue : Nat)
  /-- R447: Opens a batch. -/
  | cmdBegin (part : Nat) (queue : Nat)
  /-- R447: Closes a batch, which is validated and takes effect whole. -/
  | cmdCommit (part : Nat) (queue : Nat)
  /-- R454: Creates or joins a run of a graph table. -/
  | cmdGraph (part : Nat) (queue : Nat)
  /-- R458: Creates a lattice region with replicas at bottom. -/
  | cmdRcreate (part : Nat) (queue : Nat)
  /-- R458: Destroys a lattice region once earlier grids complete. -/
  | cmdRdestroy (part : Nat) (queue : Nat)
  /-- R446: Holds later commands until earlier ones complete. -/
  | cmdFence (part : Nat) (queue : Nat)
  /-- R459: A ready node starts as a grid with a number and stack shares. -/
  | gridStart (run : Nat) (node : Nat)
  /-- R456: A grid's last team ends and its operations complete; successors are decremented. -/
  | gridComplete (grid : Nat)
  /-- R457: A run completes, writes its completion record and signals. -/
  | runComplete (run : Nat)
  /-- R445: Agent firmware restarts; taken packets and claims are returned. -/
  | firmwareRestart
  /-- R302: An idle agent wakes on an event or after 65,536 ticks. -/
  | haltIdleWake (core : Nat)
  /-- R445: The agents' firmware finishes restarting, RESTART returns to 0 and agents resume taking packets. -/
  | firmwareRestartEnd
  /-- R356: ORSV's pointer lands 12 cluster cycles after acceptance, or OREL's and OQRY's results land 8 cycles after, and d4 is decremented. -/
  | matrixQueryComplete (op : Nat)
  /-- R388: JQRY completes 40 cluster cycles after its record check, writing D and decrementing d5. -/
  | latticeQueryComplete (op : Nat)
  /-- R407: XQRY writes its value and d6 is decremented 40 cluster cycles after issue. -/
  | fabricQueryComplete (op : Nat)
  /-- R460: QTAKE's packet and status, or QACK's status, arrive 300 or 380 cluster cycles after issue and d0 or d2 is decremented. -/
  | qtakeQackComplete (op : Nat)
  deriving DecidableEq, Repr

end Sys2Proof
end

