-- ==== Sys2Proof/Machine/Bits.lean ====
section
/-! DEFINITION. Sys2Proof/Machine/Bits.lean: the integer value functions of the lane ALU (R85, R159-R167) on bit patterns: each takes and returns the bits of one lane. -/

namespace Sys2Proof.Machine

/-- A type's element width and element count (R64, R159). -/
def tyElems : Ty → Nat × Nat
  | .b32 | .s32 | .z32 | .f32 => (32, 1)
  | .f16 | .bf16 => (16, 1)
  | .s64 | .z64 | .b64 => (64, 1)
  | .f16x2 | .bf16x2 | .s16x2 | .z16x2 => (16, 2)
  | .s8x4 | .z8x4 => (8, 4)

/-- The S-types (R85). -/
def tySigned : Ty → Bool
  | .s32 | .s64 | .s16x2 | .s8x4 => true
  | .b32 | .z32 | .f32 | .f16 | .bf16 | .z64 | .b64 | .f16x2 | .bf16x2 | .z16x2 | .z8x4 => false

/-- The types that occupy a pair (R63). -/
def tyWide : Ty → Bool
  | .s64 | .z64 | .b64 => true
  | .b32 | .s32 | .z32 | .f32 | .f16 | .bf16 | .f16x2 | .bf16x2 | .s16x2 | .z16x2 | .s8x4 | .z8x4 => false

/-- The float types, scalar and packed (R62, R181). -/
def tyFloat : Ty → Bool
  | .f32 | .f16 | .bf16 | .f16x2 | .bf16x2 => true
  | .b32 | .s32 | .z32 | .s64 | .z64 | .b64 | .s16x2 | .z16x2 | .s8x4 | .z8x4 => false

/-- The elements of a value, lowest first. -/
def elems (w n x : Nat) : List Nat := (List.range n).map (fun i => (x >>> (i * w)) % 2 ^ w)

/-- A value from its elements, lowest first. -/
def packElems (w : Nat) : List Nat → Nat
  | [] => 0
  | x :: xs => x % 2 ^ w + 2 ^ w * packElems w xs

/-- One element as an integer: signed for S-types, unsigned otherwise (R159). -/
def elemInt (ty : Ty) (w x : Nat) : Int := if tySigned ty then sext x w else (x % 2 ^ w : Nat)

/-- The range of an element of width w (R159): 0 to 2^w - 1 for B and Z types. -/
def elemRange (ty : Ty) (w : Nat) : Int × Int :=
  if tySigned ty then (-(2 ^ (w - 1) : Nat), (2 ^ (w - 1) : Nat) - 1) else (0, (2 ^ w : Nat) - 1)

/-- An element-by-element operation of two operands on integers, wrapping or saturating (R159). -/
def elemOp2 (ty : Ty) (saturate : Bool) (f : Int → Int → Int) (a b : Nat) : Nat :=
  let (w, n) := tyElems ty
  let (lo, hi) := elemRange ty w
  packElems w (List.zipWith (fun x y =>
    let r := f (elemInt ty w x) (elemInt ty w y)
    wrap (if saturate then sat r lo hi else r) w) (elems w n a) (elems w n b))

/-- R159: addition. -/
def iaddVal (ty : Ty) (s : Bool) (a b : Nat) : Nat := elemOp2 ty s (· + ·) a b
/-- R159: subtraction. -/
def isubVal (ty : Ty) (s : Bool) (a b : Nat) : Nat := elemOp2 ty s (· - ·) a b
/-- R159: negation. -/
def inegVal (ty : Ty) (s : Bool) (a : Nat) : Nat := elemOp2 ty s (fun x _ => -x) a 0
/-- R159: absolute value. -/
def iabsVal (ty : Ty) (s : Bool) (a : Nat) : Nat := elemOp2 ty s (fun x _ => if x < 0 then -x else x) a 0
/-- R159: minimum. -/
def iminVal (ty : Ty) (a b : Nat) : Nat := elemOp2 ty false (fun x y => if x ≤ y then x else y) a b
/-- R159: maximum. -/
def imaxVal (ty : Ty) (a b : Nat) : Nat := elemOp2 ty false (fun x y => if x ≤ y then y else x) a b

/-- R160: the sum and the carry-out of w bits. -/
def addCarry (w a b : Nat) (c : Bool) : Nat × Bool :=
  let x := a % 2 ^ w + b % 2 ^ w + b2n c
  (x % 2 ^ w, decide (2 ^ w ≤ x))

/-- R160: the difference and the borrow-out of w bits. -/
def subBorrow (w a b : Nat) (c : Bool) : Nat × Bool :=
  let x : Int := (a % 2 ^ w : Nat) - (b % 2 ^ w : Nat) - (b2n c : Nat)
  (wrap x w, decide (x < 0))

/-- R161: the low half of the product. -/
def imulVal (ty : Ty) (a b : Nat) : Nat := elemOp2 ty false (· * ·) a b

/-- R161: the high half of the product. -/
def imulhVal (ty : Ty) (a b : Nat) : Nat :=
  let (w, n) := tyElems ty
  packElems w (List.zipWith (fun x y => wrap ((elemInt ty w x * elemInt ty w y) >>> w) w) (elems w n a) (elems w n b))

/-- R161: multiply-add modulo the element width. -/
def imadVal (ty : Ty) (a b c : Nat) : Nat := iaddVal ty false (imulVal ty a b) c

/-- R161: 32 by 32 multiply with a 64-bit addend. -/
def imadwVal (ty : Ty) (a b c : Nat) : Nat := wrap (elemInt ty 32 a * elemInt ty 32 b + (c : Int)) 64

/-- R162: quotient and remainder; division by zero gives all ones and the dividend. -/
def idivremVal (ty : Ty) (a b : Nat) : Nat × Nat :=
  let (w, _) := tyElems ty
  let x := elemInt ty w a
  let y := elemInt ty w b
  if y = 0 then (2 ^ w - 1, a % 2 ^ w)
  else
    let q := x.tdiv y
    (wrap q w, wrap (x - q * y) w)

/-- R163: the six conditions of ICMP; none for the reserved codes. -/
def icmpCond (c : Nat) (x y : Int) : Bool :=
  match c with
  | 0 => decide (x = y)
  | 1 => decide (x ≠ y)
  | 2 => decide (x < y)
  | 3 => decide (x ≤ y)
  | 4 => decide (y < x)
  | _ => decide (y ≤ x)

/-- R163, R192: set, and, or. -/
def combine (k : Nat) (t old : Bool) : Bool :=
  match k with
  | 0 => t
  | 1 => t && old
  | _ => t || old

/-- R163: the comparison of two operands under a type. -/
def icmpVal (ty : Ty) (c : Nat) (a b : Nat) : Bool :=
  let (w, _) := tyElems ty
  icmpCond c (elemInt ty w a) (elemInt ty w b)

/-- R164: complement at the type's width. -/
def notVal (ty : Ty) (a : Nat) : Nat :=
  let (w, n) := tyElems ty
  2 ^ (w * n) - 1 - a % 2 ^ (w * n)

/-- R165: logical left shift of w bits. -/
def shlBits (w a n : Nat) : Nat := if n < w then (a * 2 ^ n) % 2 ^ w else 0
/-- R165: logical right shift of w bits. -/
def shrBits (w a n : Nat) : Nat := if n < w then a % 2 ^ w / 2 ^ n else 0
/-- R165: arithmetic right shift of w bits. -/
def sarBits (w a n : Nat) : Nat := wrap (sext a w >>> min n w) w
/-- R165: left rotation of w bits. -/
def rotBits (w a n : Nat) : Nat :=
  let k := n % w
  let x := a % 2 ^ w
  (x * 2 ^ k) % 2 ^ w + x / 2 ^ (w - k)

/-- R165: a shift of each element; the count is B for one element, element e of B for packed types. -/
def shiftVal (f : Nat → Nat → Nat → Nat) (ty : Ty) (a b : Nat) : Nat :=
  let (w, n) := tyElems ty
  if n = 1 then f w a (b % 2 ^ 32)
  else packElems w (List.zipWith (f w) (elems w n a) (elems w n b))

/-- R165: FUNNEL. -/
def funnelVal (left : Bool) (a b c : Nat) : Nat :=
  let v := (a % 2 ^ 32) * 2 ^ 32 + b % 2 ^ 32
  let n := c % 64
  if left then (v * 2 ^ n) % 2 ^ 64 / 2 ^ 32 else (v / 2 ^ n) % 2 ^ 32

/-- R166: BFE reads n bits at offset o of A extended without bound. -/
def bfeVal (ty : Ty) (a o len : Nat) : Nat :=
  let (w, _) := tyElems ty
  let n := min len w
  let f := wrap (elemInt ty w a >>> min o w) n
  if n = 0 then 0 else if tySigned ty then wrap (sext f n) w else f

/-- R166: BFI. -/
def bfiVal (ty : Ty) (a b c : Nat) : Nat :=
  let (w, _) := tyElems ty
  let o := c % 256
  let n := c / 256 % 256
  if w ≤ o ∨ n = 0 then a % 2 ^ w
  else
    let top := min (o + n) w
    a % 2 ^ o + (b % 2 ^ (top - o)) * 2 ^ o + (a % 2 ^ w / 2 ^ top) * 2 ^ top

/-- R167: population count of the low w bits. -/
def popcBits (w a : Nat) : Nat := ((List.range w).filter (bit a)).length
/-- R167: leading zeros of w bits. -/
def clzBits (w a : Nat) : Nat := if a % 2 ^ w = 0 then w else w - 1 - Nat.log2 (a % 2 ^ w)
/-- R167: trailing zeros of w bits. -/
def ctzBits (w a : Nat) : Nat := ((List.range w).find? (bit a)).getD w
/-- R167: bit reversal of w bits. -/
def brevBits (w a : Nat) : Nat := (List.range w).foldl (fun r i => 2 * r + b2n (bit a i)) 0

/-- R167: BPERM. -/
def bpermVal (a b c : Nat) : Nat :=
  packElems 8 ((List.range 4).map (fun i =>
    let k := (c >>> (4 * i)) % 16
    if k < 4 then (a >>> (8 * k)) % 256 else if k < 8 then (b >>> (8 * (k - 4))) % 256 else 0))

/-- R168: LEA. -/
def leaVal (ty : Ty) (a b n : Nat) : Nat := wrap ((a : Int) + elemInt ty 32 b * (2 ^ n : Nat)) 64

/-! ## Pointers (R116, R169-R171) -/

/-- The offset field's width of a space; none for spaces 0 and 11 to 15 (R170). -/
def offWidth (space : Nat) : Option Nat :=
  match space with
  | 1 | 9 | 10 => some 36
  | 2 | 3 | 5 => some 32
  | 4 => some 48
  | 6 => some 19
  | 7 => some 20
  | 8 => some 57
  | _ => none

/-- Bits 63:60 of a pointer (R116). -/
def ptrSpace (p : Nat) : Nat := bits p 63 60

/-- The offset field of a pointer; bits 59:0 for the spaces that are none (R171). -/
def ptrOff (p : Nat) : Nat :=
  match offWidth (ptrSpace p) with
  | some w => p % 2 ^ w
  | none => p % 2 ^ 60

/-- The object number, rank, region, group index or module of a pointer (R116, R171). -/
def ptrF1 (p : Nat) : Nat :=
  match ptrSpace p with
  | 1 => bits p 59 36
  | 2 | 3 | 6 | 7 => bits p 51 48
  | 4 => bits p 59 48
  | 5 => bits p 55 48
  | 9 | 10 => bits p 59 52
  | _ => 0

/-- The object number of an X or M pointer, 0 otherwise (R171). -/
def ptrF2 (p : Nat) : Nat :=
  match ptrSpace p with
  | 9 | 10 => bits p 51 36
  | _ => 0

/-- R169: the bits PTRMK writes, or none where A or B breaks its bound. -/
def ptrmkVal (space a b : Nat) : Option Nat :=
  match space with
  | 1 => if a < 2 ^ 24 ∧ b < 2 ^ 36 then some (2 ^ 60 + a * 2 ^ 36 + b) else none
  | 2 => if a < 16 ∧ b < 2 ^ 32 then some (2 * 2 ^ 60 + a * 2 ^ 48 + b) else none
  | 3 => if a < 16 ∧ b < 2 ^ 32 then some (3 * 2 ^ 60 + a * 2 ^ 48 + b) else none
  | 4 => if a < 2 ^ 12 ∧ b < 2 ^ 48 then some (4 * 2 ^ 60 + a * 2 ^ 48 + b) else none
  | 5 => if a < 256 ∧ b < 2 ^ 32 then some (5 * 2 ^ 60 + a * 2 ^ 48 + b) else none
  | 6 => if a < 16 ∧ b < 2 ^ 19 then some (6 * 2 ^ 60 + a * 2 ^ 48 + b) else none
  | 7 => if a < 16 ∧ b < 2 ^ 20 then some (7 * 2 ^ 60 + a * 2 ^ 48 + b) else none
  | 8 => if b < 2 ^ 57 then some (8 * 2 ^ 60 + b) else none
  | 9 => if bits a 23 16 = 0 ∧ b < 2 ^ 36 then some (9 * 2 ^ 60 + bits a 31 24 * 2 ^ 52 + bits a 15 0 * 2 ^ 36 + b) else none
  | 10 => if bits a 23 16 = 0 ∧ b < 2 ^ 36 then some (10 * 2 ^ 60 + bits a 31 24 * 2 ^ 52 + bits a 15 0 * 2 ^ 36 + b) else none
  | _ => none

/-- R118, R170: a pointer with d added to its offset field, or none where the space is none or the field overflows. -/
def ptrAdd (p : Nat) (d : Int) : Option Nat :=
  match offWidth (ptrSpace p) with
  | none => none
  | some w =>
    let x : Int := (p % 2 ^ w : Nat) + d
    if x < 0 ∨ (2 ^ w : Nat) ≤ x then none else some (p / 2 ^ w * 2 ^ w + x.toNat)

/-- R171: PTRGET. -/
def ptrgetVal (field p : Nat) : Nat :=
  match field with
  | 0 => ptrSpace p
  | 1 => ptrF1 p
  | 2 => ptrF2 p
  | _ => ptrOff p

end Sys2Proof.Machine
end

