-- ==== Sys2Proof/Machine/Float.lean ====
section
/-! DEFINITION. Sys2Proof/Machine/Float.lean: the IEEE formats, rounding and the float unit's value functions on bit patterns (R88-R91, R113, R188-R198, R202-R204, R209). -/

namespace Sys2Proof.Machine

/-- The five exceptions as the bits of %FLAGS (R184). -/
abbrev Flags := BitVec 5
/-- Invalid. -/
def fIV : Flags := 1
/-- Division by zero. -/
def fDZ : Flags := 2
/-- Overflow. -/
def fOF : Flags := 4
/-- Underflow. -/
def fUF : Flags := 8
/-- Inexact. -/
def fIX : Flags := 16

/-- The rounding modes of MOD bits 13:12 (R69). -/
inductive RMode where
  | rne | rz | ru | rd
  deriving DecidableEq, Repr

/-- The rounding mode of a code. -/
def rmodeOf (n : Nat) : RMode :=
  match n % 4 with
  | 0 => .rne
  | 1 => .rz
  | 2 => .ru
  | _ => .rd

/-- The three float formats that carry infinities and NaNs in R88. -/
inductive FF where
  | f32 | f16 | bf16
  deriving DecidableEq, Repr

/-- Exponent bits of a format (R88). -/
def ffE : FF → Nat
  | .f32 | .bf16 => 8
  | .f16 => 5
/-- Mantissa bits of a format (R88). -/
def ffM : FF → Nat
  | .f32 => 23
  | .f16 => 10
  | .bf16 => 7
/-- The bias of a format (R88). -/
def ffBias (f : FF) : Nat := 2 ^ (ffE f - 1) - 1
/-- The exponent of the smallest normal (R88). -/
def ffEmin (f : FF) : Int := 1 - (ffBias f : Int)
/-- The position of the sign bit (R88). -/
def ffSign (f : FF) : Nat := ffE f + ffM f
/-- A format's infinity of a sign (R88). -/
def ffInf (f : FF) (neg : Bool) : Nat := b2n neg * 2 ^ ffSign f + (2 ^ ffE f - 1) * 2 ^ ffM f
/-- A format's largest finite value of a sign (R88). -/
def ffMax (f : FF) (neg : Bool) : Nat := ffInf f neg - 1
/-- A format's default NaN (R88). -/
def ffNaN (f : FF) : Nat := ffInf f false + 2 ^ (ffM f - 1)
/-- A format's zero of a sign. -/
def ffZero (f : FF) (neg : Bool) : Nat := b2n neg * 2 ^ ffSign f

/-- A decoded value: a NaN, an infinity, or (-1)^neg * m * 2^e. -/
inductive FVal where
  | nan (signalling : Bool)
  | inf (neg : Bool)
  | fin (neg : Bool) (m : Nat) (e : Int)
  deriving DecidableEq, Repr

/-- The value of a code of F32, F16 or BF16 (R88). -/
def fdec (f : FF) (x : Nat) : FVal :=
  let m := x % 2 ^ ffM f
  let e := (x >>> ffM f) % 2 ^ ffE f
  let s := bit x (ffSign f)
  if e = 2 ^ ffE f - 1 then (if m = 0 then .inf s else .nan (!bit m (ffM f - 1)))
  else if e = 0 then .fin s m (ffEmin f - ffM f)
  else .fin s (m + 2 ^ ffM f) ((e : Int) - ffBias f - ffM f)

/-- R90: a subnormal source read as zero of its sign. -/
def fdecZ (f : FF) (ftz : Bool) (x : Nat) : FVal :=
  if ftz && (x >>> ffM f) % 2 ^ ffE f == 0 then .fin (bit x (ffSign f)) 0 0 else fdec f x

/-- A signalling NaN raises invalid (R89). -/
def snanFlag : FVal → Flags
  | .nan true => fIV
  | .nan false | .inf _ | .fin _ _ _ => 0

/-- Whether a value is a NaN. -/
def isNaN : FVal → Bool
  | .nan _ => true
  | .inf _ | .fin _ _ _ => false

/-- The sign of a value; NaN counts as positive. -/
def fsign : FVal → Bool
  | .nan _ => false
  | .inf s => s
  | .fin s _ _ => s

/-- m * 2^e rounded to a multiple of 2^q: the multiple and whether it was inexact (R9, R91). The shift is capped where everything is below half. -/
def roundAt (md : RMode) (neg : Bool) (m : Nat) (e q : Int) : Nat × Bool :=
  if q ≤ e then (m <<< (e - q).toNat, false)
  else
    let k := min (q - e).toNat (Nat.log2 m + 2)
    let hi := m >>> k
    let lo := m % 2 ^ k
    let up := match md with
      | .rne => decide (2 ^ k < 2 * lo) || (decide (2 * lo = 2 ^ k) && hi % 2 == 1)
      | .rz => false
      | .ru => !neg && lo != 0
      | .rd => neg && lo != 0
    (hi + b2n up, lo != 0)

/-- Bit length. -/
def bitLen (m : Nat) : Nat := if m = 0 then 0 else Nat.log2 m + 1

/-- R90, R91: an exact non-zero or zero value (-1)^neg * m * 2^e rounded to a format, with its flags. A value that is only known to within its last bit carries that bit as sticky. -/
def froundMag (f : FF) (md : RMode) (ftz : Bool) (neg : Bool) (m : Nat) (e : Int) : Nat × Flags :=
  if m = 0 then (ffZero f neg, 0)
  else
    let p : Int := ffM f
    let top : Int := (bitLen m : Int) - 1 + e
    let (ru, _) := roundAt md neg m e (top - p)
    let topU := if ru = 2 ^ (ffM f + 1) then top + 1 else top
    let tiny := decide (topU < ffEmin f)
    if tiny && ftz then (ffZero f neg, fUF ||| fIX)
    else
      let q := max (top - p) (ffEmin f - p)
      let (r, inexact) := roundAt md neg m e q
      let topR := if r = 2 ^ (ffM f + 1) then q + p + 1 else q + p
      if (ffBias f : Int) < topR then
        let toInf := match md with
          | .rne => true
          | .rz => false
          | .ru => !neg
          | .rd => neg
        (if toInf then ffInf f neg else ffMax f neg, fOF ||| fIX)
      else
        let code := if r < 2 ^ ffM f then r else (q - (ffEmin f - p) + 1).toNat * 2 ^ ffM f + (r - 2 ^ ffM f)
        (ffZero f neg + code, (if tiny && inexact then fUF else 0) ||| (if inexact then fIX else 0))

/-- A value rounded to a format: NaN gives the default NaN, infinity stays, a finite value rounds (R89, R91). -/
def fround (f : FF) (md : RMode) (ftz : Bool) : FVal → Nat × Flags
  | .nan _ => (ffNaN f, 0)
  | .inf s => (ffInf f s, 0)
  | .fin s m e => froundMag f md ftz s m e

/-- The signed integer of a magnitude. -/
def sgn (neg : Bool) (m : Nat) : Int := if neg then -(m : Int) else m

/-- The exact sum of two finite values; an exact zero sum of opposite signs is -0 only in RD (R91). -/
def addFin (md : RMode) (na : Bool) (ma : Nat) (ea : Int) (nb : Bool) (mb : Nat) (eb : Int) : FVal :=
  let e := min ea eb
  let s := sgn na (ma <<< (ea - e).toNat) + sgn nb (mb <<< (eb - e).toNat)
  if s = 0 then .fin (if na == nb then na else md == .rd) 0 0
  else .fin (decide (s < 0)) s.natAbs e

/-- The exact sum, or the invalid NaN of opposite infinities (R188). -/
def addVal (md : RMode) (a b : FVal) : FVal × Flags :=
  match a, b with
  | .nan _, _ => (.nan false, snanFlag a ||| snanFlag b)
  | _, .nan _ => (.nan false, snanFlag b)
  | .inf s, .inf t => if s == t then (.inf s, 0) else (.nan false, fIV)
  | .inf s, .fin _ _ _ => (.inf s, 0)
  | .fin _ _ _, .inf t => (.inf t, 0)
  | .fin na ma ea, .fin nb mb eb => (addFin md na ma ea nb mb eb, 0)

/-- The exact product, or the invalid NaN of zero times infinity (R188). -/
def mulVal (a b : FVal) : FVal × Flags :=
  match a, b with
  | .nan _, _ => (.nan false, snanFlag a ||| snanFlag b)
  | _, .nan _ => (.nan false, snanFlag b)
  | .inf s, .inf t => (.inf (s != t), 0)
  | .inf s, .fin t m _ => if m = 0 then (.nan false, fIV) else (.inf (s != t), 0)
  | .fin s m _, .inf t => if m = 0 then (.nan false, fIV) else (.inf (s != t), 0)
  | .fin na ma ea, .fin nb mb eb => (.fin (na != nb) (ma * mb) (ea + eb), 0)

/-- A value with its sign inverted. -/
def negVal : FVal → FVal
  | .nan q => .nan q
  | .inf s => .inf (!s)
  | .fin s m e => .fin (!s) m e

/-- A value rounded, with the flags of the operation that made it. -/
def finish (f : FF) (md : RMode) (ftz : Bool) (r : FVal × Flags) : Nat × Flags :=
  let (x, fl) := fround f md ftz r.1
  (x, fl ||| r.2)

/-- R188: FADD. -/
def faddVal (f : FF) (md : RMode) (ftz : Bool) (a b : Nat) : Nat × Flags :=
  finish f md ftz (addVal md (fdecZ f ftz a) (fdecZ f ftz b))
/-- R188: FSUB. -/
def fsubVal (f : FF) (md : RMode) (ftz : Bool) (a b : Nat) : Nat × Flags :=
  finish f md ftz (addVal md (fdecZ f ftz a) (negVal (fdecZ f ftz b)))
/-- R188: FMUL. -/
def fmulVal (f : FF) (md : RMode) (ftz : Bool) (a b : Nat) : Nat × Flags :=
  finish f md ftz (mulVal (fdecZ f ftz a) (fdecZ f ftz b))

/-- R189: FFMA with its sign modifiers: zero times infinity is invalid even beside a quiet NaN addend. -/
def ffmaVal (f : FF) (md : RMode) (ftz np nc : Bool) (a b c : Nat) : Nat × Flags :=
  let (p, pf) := mulVal (fdecZ f ftz a) (fdecZ f ftz b)
  let cv := fdecZ f ftz c
  let (s, sf) := addVal md (if np then negVal p else p) (if nc then negVal cv else cv)
  finish f md ftz (s, pf ||| sf)

/-- A total order of values that are not NaN; -0 below +0 (R190). -/
def fle (a b : FVal) : Bool :=
  match a, b with
  | .nan _, _ => true
  | _, .nan _ => true
  | .inf s, .inf t => s || !t
  | .inf s, .fin _ _ _ => s
  | .fin _ _ _, .inf t => !t
  | .fin na ma ea, .fin nb mb eb =>
    let e := min ea eb
    let x := sgn na (ma <<< (ea - e).toNat)
    let y := sgn nb (mb <<< (eb - e).toNat)
    decide (x < y) || (decide (x = y) && (ma != 0 || na || !nb))

/-- Equality of values with -0 = +0, false on NaN (R192). -/
def feq (a b : FVal) : Bool :=
  match a, b with
  | .nan _, _ => false
  | _, .nan _ => false
  | .inf s, .inf t => s == t
  | .inf _, .fin _ _ _ => false
  | .fin _ _ _, .inf _ => false
  | .fin na ma ea, .fin nb mb eb =>
    let e := min ea eb
    decide (sgn na (ma <<< (ea - e).toNat) = sgn nb (mb <<< (eb - e).toNat))

/-- A source operand returned as it stands, flushed where it is subnormal (R190). -/
def fsrc (f : FF) (ftz : Bool) (x : Nat) : Nat :=
  match fdecZ f ftz x with
  | .fin s 0 _ => ffZero f s
  | .fin _ (_ + 1) _ | .inf _ | .nan _ => x % 2 ^ (ffSign f + 1)

/-- R190: FMIN and FMAX. -/
def fminmaxVal (f : FF) (ftz wantMax : Bool) (a b : Nat) : Nat × Flags :=
  let x := fdecZ f ftz a
  let y := fdecZ f ftz b
  if isNaN x || isNaN y then (ffNaN f, snanFlag x ||| snanFlag y)
  else (if fle x y != wantMax then fsrc f ftz a else fsrc f ftz b, 0)

/-- R191: FMINNUM and FMAXNUM. -/
def fminmaxnumVal (f : FF) (ftz wantMax : Bool) (a b : Nat) : Nat × Flags :=
  let x := fdecZ f ftz a
  let y := fdecZ f ftz b
  let fl := snanFlag x ||| snanFlag y
  if isNaN x && isNaN y then (ffNaN f, fl)
  else if isNaN x then (fsrc f ftz b, fl)
  else if isNaN y then (fsrc f ftz a, fl)
  else (if fle x y != wantMax then fsrc f ftz a else fsrc f ftz b, fl)

/-- R192: FCMP's condition and its invalid flag. -/
def fcmpVal (f : FF) (ftz signalling : Bool) (c : Nat) (a b : Nat) : Bool × Flags :=
  let x := fdecZ f ftz a
  let y := fdecZ f ftz b
  let u := isNaN x || isNaN y
  let eq := feq x y
  let t := match c with
    | 0 => !u && eq
    | 1 => u || !eq
    | 2 => !u && fle x y && !eq
    | 3 => !u && (fle x y || eq)
    | 4 => !u && fle y x && !eq
    | 5 => !u && (fle y x || eq)
    | 6 => u
    | _ => !u
  (t, snanFlag x ||| snanFlag y ||| (if signalling && u then fIV else 0))

/-- R193: the class word. -/
def fclassVal (f : FF) (ftz : Bool) (a : Nat) : Nat :=
  match fdecZ f ftz a with
  | .nan true => 1
  | .nan false => 2
  | .inf true => 4
  | .inf false => 512
  | .fin s m _ =>
    if m = 0 then (if s then 32 else 64)
    else if m < 2 ^ ffM f then (if s then 16 else 128)
    else (if s then 8 else 256)

/-- R194: FRND. -/
def frndVal (f : FF) (md : RMode) (ftz x : Bool) (a : Nat) : Nat × Flags :=
  match fdecZ f ftz a with
  | .nan q => (ffNaN f, snanFlag (.nan q))
  | .inf s => (ffInf f s, 0)
  | .fin s m e =>
    let (r, inexact) := roundAt md s m e 0
    if m = 0 then (ffZero f s, 0)
    else if 0 ≤ e then (fsrc f ftz a, 0)
    else ((froundMag f .rne false s r 0).1, if x && inexact then fIX else 0)

/-- R195: FFRAC. -/
def ffracVal (f : FF) (ftz : Bool) (a : Nat) : Nat × Flags :=
  match fdecZ f ftz a with
  | .nan q => (ffNaN f, snanFlag (.nan q))
  | .inf _ => (ffNaN f, fIV)
  | .fin s m e => if 0 ≤ e then (ffZero f s, 0) else ((froundMag f .rne false s (m % 2 ^ (-e).toNat) e).1, 0)

/-- R196: FSCALE. -/
def fscaleVal (f : FF) (md : RMode) (ftz : Bool) (a b : Nat) : Nat × Flags :=
  match fdecZ f ftz a with
  | .nan q => (ffNaN f, snanFlag (.nan q))
  | .inf s => (ffInf f s, 0)
  | .fin s m e => froundMag f md ftz s m (e + sext b 32)

/-- R197: FGETEXP. -/
def fgetexpVal (f : FF) (ftz : Bool) (a : Nat) : Nat × Flags :=
  match fdecZ f ftz a with
  | .nan q => (ffNaN f, snanFlag (.nan q))
  | .inf _ => (ffInf f false, 0)
  | .fin _ m e =>
    if m = 0 then (ffInf f true, fDZ)
    else
      let k : Int := (bitLen m : Int) - 1 + e
      ((froundMag f .rne false (decide (k < 0)) k.natAbs 0).1, 0)

/-- A positive quotient n / d as a dyadic of at least 64 bits with a sticky last bit. -/
def quotSticky (n d : Nat) : Nat × Int :=
  let k := 66 + bitLen d
  let q := (n <<< k) / d
  (2 * q + b2n ((n <<< k) % d != 0), -(k : Int) - 1)

/-- R198: FDIV. -/
def fdivVal (f : FF) (md : RMode) (ftz : Bool) (a b : Nat) : Nat × Flags :=
  match fdecZ f ftz a, fdecZ f ftz b with
  | .nan q, y => (ffNaN f, snanFlag (.nan q) ||| snanFlag y)
  | .inf _, .nan q => (ffNaN f, snanFlag (.nan q))
  | .fin _ _ _, .nan q => (ffNaN f, snanFlag (.nan q))
  | .inf _, .inf _ => (ffNaN f, fIV)
  | .inf s, .fin t _ _ => (ffInf f (s != t), 0)
  | .fin s _ _, .inf t => (ffZero f (s != t), 0)
  | .fin s m e, .fin t n d =>
    if n = 0 then (if m = 0 then (ffNaN f, fIV) else (ffInf f (s != t), fDZ))
    else
      let (q, x) := quotSticky m n
      froundMag f md ftz (s != t) q (x + e - d)

/-- The integer square root by bits from bit i down (structural). -/
def sqrtBits (n : Nat) : Nat → Nat → Nat
  | 0, r => r
  | i + 1, r => sqrtBits n i (if (r + 2 ^ i) * (r + 2 ^ i) ≤ n then r + 2 ^ i else r)

/-- floor(sqrt n). -/
def isqrt (n : Nat) : Nat := sqrtBits n (bitLen n / 2 + 1) 0

/-- R198: FSQRT. -/
def fsqrtVal (f : FF) (md : RMode) (ftz : Bool) (a : Nat) : Nat × Flags :=
  match fdecZ f ftz a with
  | .nan q => (ffNaN f, snanFlag (.nan q))
  | .inf s => if s then (ffNaN f, fIV) else (ffInf f false, 0)
  | .fin s m e =>
    if m = 0 then (ffZero f s, 0)
    else if s then (ffNaN f, fIV)
    else
      let k := 100 + (e % 2).toNat
      let n := m <<< k
      let r := isqrt n
      froundMag f md ftz false (2 * r + b2n (r * r != n)) ((e - k) / 2 - 1)

/-- R202: CVTF without a sign operation. -/
def cvtfVal (src dst : FF) (md : RMode) (ftz : Bool) (a : Nat) : Nat × Flags :=
  let v := fdecZ src ftz a
  let (x, fl) := fround dst md ftz v
  (x, fl ||| snanFlag v)

/-- R203: the sign operations 1 neg, 2 abs, 3 cpsgn. -/
def signopVal (f : FF) (op a b : Nat) : Nat :=
  let m := a % 2 ^ ffSign f
  let s := match op with
    | 1 => !bit a (ffSign f)
    | 2 => false
    | _ => bit b (ffSign f)
  ffZero f s + m

/-- R86, R204: CVTI. -/
def cvtiVal (ty : Ty) (dst : FF) (md : RMode) (a : Nat) : Nat × Flags :=
  let x := elemInt ty (tyElems ty).1 a
  froundMag dst md false (decide (x < 0)) x.natAbs 0

/-- R86, R204: CVTFI. -/
def cvtfiVal (src : FF) (ty : Ty) (md : RMode) (ftz : Bool) (a : Nat) : Nat × Flags :=
  let w := (tyElems ty).1
  let (lo, hi) := elemRange ty w
  match fdecZ src ftz a with
  | .nan _ => (0, fIV)
  | .inf s => (wrap (if s then lo else hi) w, fIV)
  | .fin s m e =>
    let (r, inexact) := roundAt md s m e 0
    let x := sgn s r
    if x < lo then (wrap lo w, fIV)
    else if hi < x then (wrap hi w, fIV)
    else (wrap x w, if inexact then fIX else 0)

/-- A running exact sum of products (R113): the integer sum at an exponent, the signs of zero terms, infinities and invalid terms seen. -/
structure DotAcc where
  s : Int
  e : Int
  allNeg : Bool
  allPos : Bool
  pinf : Bool
  ninf : Bool
  bad : Bool
  fl : Flags
  deriving DecidableEq, Repr

/-- The empty sum. -/
def dotZero : DotAcc := ⟨0, 0, true, true, false, false, false, 0⟩

/-- One more term of a sum, with the flags it came with. -/
def dotAdd (d : DotAcc) (v : FVal) (fl : Flags) : DotAcc :=
  match v with
  | .nan _ => { d with bad := true, fl := d.fl ||| fl }
  | .inf s => { d with pinf := d.pinf || !s, ninf := d.ninf || s, fl := d.fl ||| fl }
  | .fin s m x =>
    let e := min d.e x
    { d with s := d.s * (2 ^ (d.e - e).toNat : Nat) + sgn s (m <<< (x - e).toNat), e := e,
             allNeg := d.allNeg && s, allPos := d.allPos && !s, fl := d.fl ||| fl }

/-- The value of a sum: the default NaN for a NaN, or for opposite infinities with invalid (R113, R115); an exact zero is negative where every term has a negative sign, the sign of a zero product of integers being that of its factors, else signed as R91 says (DEDUCED, log 90). -/
def dotVal (md : RMode) (d : DotAcc) : FVal × Flags :=
  if d.pinf && d.ninf then (.nan false, d.fl ||| fIV)
  else if d.bad then (.nan false, d.fl)
  else if d.pinf then (.inf false, d.fl)
  else if d.ninf then (.inf true, d.fl)
  else if d.s = 0 then (.fin (if d.allNeg then true else if d.allPos then false else md == .rd) 0 0, d.fl)
  else (.fin (decide (d.s < 0)) d.s.natAbs d.e, d.fl)

/-- R113, R209: the exact sum of products and an addend, rounded once to F32. A product that is NaN, or 0 times infinity, gives the default NaN and invalid. -/
def fdotVal (md : RMode) (ftz : Bool) (ps : List (FVal × FVal)) (c : FVal) : Nat × Flags :=
  let d := ps.foldl (fun d p => let (v, fl) := mulVal p.1 p.2; dotAdd d v (if isNaN v then fIV else fl)) dotZero
  let (v, fl) := dotVal md (dotAdd d c (snanFlag c))
  finish .f32 md ftz (v, fl)

end Sys2Proof.Machine
end

