-- ==== Sys2Proof/Machine/Narrow.lean ====
section
/-! DEFINITION. Sys2Proof/Machine/Narrow.lean: format codes, narrow floats, scales, scaled and Qm blocks, packing and the sums of the matrix engine (R87-R109, R114, R115). -/

namespace Sys2Proof.Machine

/-- A format code of R87 with its meaning. -/
inductive Fm where
  | ff (f : FF)
  | nf (e m : Nat)
  | int (w : Nat)
  | q (m : Nat)
  deriving DecidableEq, Repr

/-- The format of a code; none for the reserved codes (R65, R87). -/
def fmOf (c : Nat) : Option Fm :=
  match c with
  | 0x00 => some (.ff .f32)
  | 0x01 => some (.ff .f16)
  | 0x02 => some (.ff .bf16)
  | 0x03 => some (.nf 5 2)
  | 0x04 => some (.nf 4 3)
  | 0x05 => some (.nf 3 2)
  | 0x06 => some (.nf 2 3)
  | 0x07 => some (.nf 2 1)
  | 0x08 => some (.int 8)
  | 0x09 => some (.int 4)
  | 0x10 => some (.q 2)
  | 0x11 => some (.q 3)
  | 0x12 => some (.q 4)
  | 0x13 => some (.q 5)
  | 0x14 => some (.q 6)
  | 0x15 => some (.q 7)
  | 0x16 => some (.q 8)
  | _ => none

/-- Bits per element (R87). -/
def fmBits : Fm → Nat
  | .ff .f32 => 32
  | .ff .f16 => 16
  | .ff .bf16 => 16
  | .nf e m => 1 + e + m
  | .int w => w
  | .q m => m

/-- The bias of a narrow float (R92). -/
def nfBias (e : Nat) : Int := (2 ^ (e - 1) : Nat) - 1

/-- The largest finite code, without sign, of a narrow float (R92). -/
def nfMaxCode (e m : Nat) : Nat :=
  if e = 5 then 0x7B else if e = 4 then 0x7E else 2 ^ (e + m) - 1

/-- A finite narrow code's magnitude as m * 2^x (R93). -/
def nfMag (e m c : Nat) : Nat × Int :=
  let ex := (c >>> m) % 2 ^ e
  let f := c % 2 ^ m
  if ex = 0 then (f, 1 - nfBias e - m) else (f + 2 ^ m, (ex : Int) - nfBias e - m)

/-- The value of a code of a format without a scale (R92-R95, R206: an E5M2 NaN with mantissa bit 1 clear is signalling). -/
def fmDec (f : Fm) (c : Nat) : FVal :=
  match f with
  | .ff g => fdec g c
  | .nf e m =>
    let s := bit c (e + m)
    let mag := c % 2 ^ (e + m)
    if e = 5 ∧ mag = 0x7C then .inf s
    else if e = 5 ∧ 0x7C < mag then .nan (!bit c 1)
    else if e = 4 ∧ mag = 0x7F then .nan false
    else .fin s (nfMag e m mag).1 (nfMag e m mag).2
  | .int w => let x := sext c w; .fin (decide (x < 0)) x.natAbs 0
  | .q m => let x := sext c m; .fin (decide (x < 0)) x.natAbs 0

/-- The code with the largest magnitude of a sign, R96's saturation value. -/
def fmSat (f : Fm) (neg : Bool) : Nat :=
  match f with
  | .ff g => ffMax g neg
  | .nf e m => b2n neg * 2 ^ (e + m) + nfMaxCode e m
  | .int w => if neg then 2 ^ (w - 1) else 2 ^ (w - 1) - 1
  | .q w => if neg then 2 ^ (w - 1) else 2 ^ (w - 1) - 1

/-- R96 before saturation: a finite non-zero value rounded to nearest even with the exponent or range unbounded: the code where it is in range, whether it is out of range, and the underflow and inexact flags. -/
def nfRound (e m : Nat) (neg : Bool) (mag : Nat) (x : Int) : Nat × Bool × Flags :=
  let emin : Int := 1 - nfBias e
  let top : Int := (bitLen mag : Int) - 1 + x
  let (ru, _) := roundAt .rne neg mag x (top - m)
  let topU := if ru = 2 ^ (m + 1) then top + 1 else top
  let tiny := decide (topU < emin)
  let q := max (top - m) (emin - m)
  let (r, inexact) := roundAt .rne neg mag x q
  let code := if r < 2 ^ m then r else (q - (emin - m) + 1).toNat * 2 ^ m + (r - 2 ^ m)
  let fl : Flags := (if tiny && inexact then fUF else 0) ||| (if inexact then fIX else 0)
  (b2n neg * 2 ^ (e + m) + (if code ≤ nfMaxCode e m then code else 0), decide (nfMaxCode e m < code), fl)

/-- R96, R97: a value converted to an unscaled narrow format. -/
def fmEnc (f : Fm) (v : FVal) : Nat × Flags :=
  match f with
  | .ff g =>
    let r := fround g .rne false v
    (r.1, r.2 ||| snanFlag v)
  | .nf e m =>
    match v with
    | .nan q =>
      if e = 5 then (0x7E, snanFlag (.nan q)) else if e = 4 then (0x7F, snanFlag (.nan q)) else (0, fIV)
    | .inf s => if e = 5 then (b2n s * 128 + 0x7C, 0) else (fmSat f s, fOF ||| fIX)
    | .fin s mag x =>
      if mag = 0 then (b2n s * 2 ^ (e + m), 0)
      else
        let (c, out, fl) := nfRound e m s mag x
        if out then (fmSat f s, fOF ||| fIX) else (c, fl)
  | .int w | .q w =>
    match v with
    | .nan _ => (0, fIV)
    | .inf s => (fmSat f s, fOF ||| fIX)
    | .fin s mag x =>
      let (r, inexact) := roundAt .rne s mag x 0
      let y := sgn s r
      if y < -(2 ^ (w - 1) : Nat) ∨ (2 ^ (w - 1) : Nat) ≤ y then (fmSat f s, fOF ||| fIX)
      else (wrap y w, (if mag != 0 && r == 0 then fUF else 0) ||| (if inexact then fIX else 0))

/-! ## Scales and blocks -/

/-- What a scale byte means (R99, R100): NaN or invalid, zero, or m * 2^x. -/
inductive ScaleVal where
  | nan
  | zero
  | pos (m : Nat) (x : Int)
  deriving DecidableEq, Repr

/-- R99: an E8M0 scale. -/
def e8m0 (c : Nat) : ScaleVal := if c % 256 = 255 then .nan else .pos 1 ((c % 256 : Nat) - 127)

/-- R100: an E4M3 scale. -/
def e4m3Scale (c : Nat) : ScaleVal :=
  let b := c % 256
  if 0x7F ≤ b then .nan else if b = 0 then .zero else .pos (nfMag 4 3 b).1 (nfMag 4 3 b).2

/-- R101, R102: an element times its scale. -/
def scaled (v : FVal) (s : ScaleVal) : FVal :=
  match s, v with
  | .nan, _ => .nan false
  | .zero, .nan q => .nan q
  | .zero, .inf _ => .nan false
  | .zero, .fin n _ _ => .fin n 0 0
  | .pos _ _, .nan q => .nan q
  | .pos _ _, .inf n => .inf n
  | .pos m x, .fin n k e => .fin n (k * m) (e + x)

/-- The element descriptor's fields (R103). -/
def descBlk (d : Nat) : Nat := bits d 7 5
/-- The format code of a descriptor (R103). -/
def descFmt (d : Nat) : Nat := bits d 4 0

/-- R103: the legal descriptors. -/
def descLegal (d : Nat) : Bool :=
  let b := descBlk d
  let c := descFmt d
  (b == 0 && decide (c ≤ 9)) || ((b == 1 || b == 2 || b == 3 || b == 4) && decide (3 ≤ c) && decide (c ≤ 9)) ||
    ((b == 1 || b == 2) && decide (0x10 ≤ c) && decide (c ≤ 0x16))

/-- The block length of a descriptor's BLK; 0 for an unscaled one (R103). -/
def blkLen (b : Nat) : Nat :=
  match b with
  | 1 | 3 => 16
  | 2 | 4 => 32
  | _ => 0

/-- R101, R102: an element code with its scale byte under a descriptor. -/
def descDec (d c sc : Nat) : FVal :=
  match fmOf (descFmt d) with
  | none => .nan false
  | some (.q m) =>
    scaled (fmDec (.q m) (c % 2 ^ m)) (match e8m0 sc with
      | .nan => .nan
      | .zero => .zero
      | .pos k x => .pos k (x - ((m : Int) - 2)))
  | some f =>
    let v := fmDec f (c % 2 ^ fmBits f)
    if descBlk d = 0 then v
    else scaled v (if descBlk d ≤ 2 then e8m0 sc else e4m3Scale sc)

/-- a * 2^x ≤ b * 2^y. -/
def dyLe (a : Nat) (x : Int) (b : Nat) (y : Int) : Bool :=
  let e := min x y
  decide (a <<< (x - e).toNat ≤ b <<< (y - e).toNat)

/-- The largest magnitude of a block as m * 2^x; (0, 0) for zeros. -/
def blockMax : List FVal → Nat × Int
  | [] => (0, 0)
  | v :: vs =>
    let (m, x) := blockMax vs
    match v with
    | .fin _ k e => if dyLe k e m x then (m, x) else (k, e)
    | .nan _ => (m, x)
    | .inf _ => (m, x)

/-- Whether a block holds a NaN or an infinity (R104, R105). -/
def blockBad (vs : List FVal) : Bool :=
  vs.any (fun v => match v with
    | .fin _ _ _ => false
    | .nan _ => true
    | .inf _ => true)

/-- max_f as m * 2^x (R104). -/
def blkMaxF (f : Fm) : Nat × Int :=
  match f with
  | .nf e m => nfMag e m (nfMaxCode e m)
  | .int w => (2 ^ (w - 1) - 1, 0)
  | .q w => (2 ^ (w - 1) - 1, 0)
  | .ff _ => (1, 0)

/-- emax_f: the exponent of max_f (R104). -/
def blkEmax (f : Fm) : Int := (bitLen (blkMaxF f).1 : Int) - 1 + (blkMaxF f).2

/-- A quotient m * 2^x / (d * 2^y) as a dyadic with a sticky last bit, exact where d divides. -/
def quotDy (m : Nat) (x : Int) (d : Nat) (y : Int) : Nat × Int :=
  if d = 1 then (m, x - y) else let (q, k) := quotSticky m d; (q, k + x - y)

/-- R104's element: xi / scale rounded with the exponent unbounded, then clamped to plus or minus max_f, which raises inexact only. -/
def blkElem (f : Fm) (v : FVal) (d : Nat) (y : Int) : Nat × Flags :=
  match v with
  | .nan _ => (0, 0)
  | .inf _ => (0, 0)
  | .fin s k e =>
    let (m, x) := quotDy k e d y
    match f with
    | .nf eb mb =>
      if m = 0 then (b2n s * 2 ^ (eb + mb), 0)
      else
        let (c, out, fl) := nfRound eb mb s m x
        if out then (fmSat f s, fl ||| fIX) else (c, fl)
    | .int w | .q w =>
      let (r, inexact) := roundAt .rne s m x 0
      let lim := 2 ^ (w - 1) - 1
      let r' := min r lim
      (wrap (sgn s r') w,
        (if m != 0 && r == 0 then fUF else 0) ||| (if inexact || decide (lim < r) then fIX else 0))
    | .ff _ => (0, 0)

/-- R104: a scaled block: scale byte, element codes with their flags, and the flags of the block. e4 selects the E4M3 scale. -/
def encScaled (f : Fm) (e4 : Bool) (vs : List FVal) : Nat × List (Nat × Flags) × Flags :=
  if blockBad vs then (if e4 then 0x7F else 0xFF, vs.map (fun _ => (0, 0)), fIV)
  else
    let (m, x) := blockMax vs
    let (sc, fl) : Nat × Flags :=
      if m = 0 then (if e4 then 0x38 else 0x7F, 0)
      else if e4 then
        let (mf, xf) := blkMaxF f
        if dyLe (448 * mf) xf m x && !dyLe m x (448 * mf) xf then (0x7E, fOF)
        else (((List.range 0x7F).find? (fun c => c != 0 && dyLe m x ((nfMag 4 3 c).1 * mf) ((nfMag 4 3 c).2 + xf))).getD 0x7E, 0)
      else
        let k : Int := (bitLen m : Int) - 1 + x - blkEmax f
        ((sat k (-127) 127 + 127).toNat, if 127 < k then fOF else 0)
    let (d, y) : Nat × Int := match (if e4 then e4m3Scale sc else e8m0 sc) with
      | .pos d y => (d, y)
      | .nan => (1, 0)
      | .zero => (1, 0)
    (sc, vs.map (fun v => blkElem f v d y), fl)

/-- R105: a Qm block: exponent byte, mantissas with their flags, and the flags of the block. -/
def encQ (m : Nat) (vs : List FVal) : Nat × List (Nat × Flags) × Flags :=
  if blockBad vs then (0xFF, vs.map (fun _ => (0, 0)), fIV)
  else
    let (k, x) := blockMax vs
    let e : Int := if k = 0 then 127 else sat ((bitLen k : Int) - 1 + x + 127) 0 254
    let unit : Int := e - 127 - ((m : Int) - 2)
    (e.toNat, vs.map (fun v => match v with
      | .fin s c y =>
        let (r, inexact) := roundAt .rne s c y unit
        let v := sgn s r
        let lo : Int := -(2 ^ (m - 1) : Nat)
        let hi : Int := (2 ^ (m - 1) : Nat) - 1
        (wrap (sat v lo hi) m,
          (if c != 0 && r == 0 then fUF else 0) ||| (if inexact || decide (v < lo) || decide (hi < v) then fIX else 0))
      | .nan _ => (0, 0)
      | .inf _ => (0, 0)), 0)

/-- R104, R105: a block encoded under a descriptor with BLK 1 to 4. -/
def encBlock (d : Nat) (vs : List FVal) : Nat × List (Nat × Flags) × Flags :=
  match fmOf (descFmt d) with
  | some (.q m) => encQ m vs
  | some f => encScaled f (decide (3 ≤ descBlk d)) vs
  | none => (0, [], 0)

/-! ## Packing (R106-R109) -/

/-- Bytes of the element plane of a run of n elements of a format: the nibble plane for 6-bit formats. -/
def planeBytes (f : Fm) (n : Nat) : Nat :=
  match f with
  | .nf e m => if e + m = 5 then n / 2 else n * (1 + e + m) / 8
  | .ff .f32 => 4 * n
  | .ff .f16 => 2 * n
  | .ff .bf16 => 2 * n
  | .int w => n * w / 8
  | .q m => ceilDiv (n * m) 8

/-- The smallest power of two at least max(n/2, 128): where the 2-bit plane of an FP6 run starts (R108). -/
def fp6P (n : Nat) : Nat := 2 ^ max 7 (bitLen (n / 2 - 1))

/-- Whether a format is one of the two 6-bit ones (R108). -/
def isFp6 (f : Fm) : Bool :=
  match f with
  | .nf 3 2 => true
  | .nf 2 3 => true
  | .nf _ _ => false
  | .ff _ => false
  | .int _ => false
  | .q _ => false

/-- Bytes a run of n elements spans from its base (R107-R109). -/
def runBytes (f : Fm) (n : Nat) : Nat := if isFp6 f then fp6P n + n / 4 else planeBytes f n

/-- The bits of element i of a run whose plane is read by rd (R106-R109). -/
def elemOfRun (f : Fm) (n : Nat) (rd : Nat → Nat) (i : Nat) : Nat :=
  if isFp6 f then
    (rd (i / 2) >>> (4 * (i % 2))) % 16 + 16 * ((rd (fp6P n + i / 4) >>> (2 * (i % 4))) % 4)
  else
    let w := fmBits f
    let b := i * w / 8
    let x := rd b + 256 * rd (b + 1) + 65536 * rd (b + 2) + 16777216 * rd (b + 3)
    (x >>> (i * w % 8)) % 2 ^ w

/-- The bytes (offset from the base, value) of a run of element codes (R106-R109). -/
def runOfElems (f : Fm) (cs : List Nat) : List (Nat × Nat) :=
  let n := cs.length
  if isFp6 f then
    (List.range (n / 2)).map (fun j => (j, cs.getD (2 * j) 0 % 16 + 16 * (cs.getD (2 * j + 1) 0 % 16))) ++
    (List.range (n / 4)).map (fun j => (fp6P n + j,
      packElems 2 ((List.range 4).map (fun i => cs.getD (4 * j + i) 0 / 16))))
  else
    let all := packElems (fmBits f) cs
    (List.range (planeBytes f n)).map (fun j => (j, (all >>> (8 * j)) % 256))

/-! ## Matrix sums (R114, R115) -/

/-- R114, R115: one chunk of up to 16 products added to an accumulator element, with the flags. -/
def mmaChunk (acc : Nat) (ps : List (FVal × FVal)) : Nat × Flags :=
  let (s, f1) := fdotTerms ps
  let (x, f2) := finish .f32 .rne false (addVal .rne (fdec .f32 acc) (fdec .f32 s))
  (x, f1 ||| f2)
where
  /-- The exact sum of the products rounded once to F32. -/
  fdotTerms (ps : List (FVal × FVal)) : Nat × Flags :=
    finish .f32 .rne false (dotVal .rne (ps.foldl (fun d p =>
      let (v, fl) := mulVal p.1 p.2
      dotAdd d v (if isNaN v then fIV else fl)) dotZero))

/-- R114: an accumulator element after all chunks of a step. -/
def mmaChunks : Nat → List (FVal × FVal) → Nat → Nat × Flags
  | 0, _, acc => (acc, 0)
  | n + 1, ps, acc =>
    let (x, f1) := mmaChunk acc (ps.take 16)
    let (y, f2) := mmaChunks n (ps.drop 16) x
    (y, f1 ||| f2)

end Sys2Proof.Machine
end

