-- ==== Sys2Proof/WellFormed.lean ====
section
/-! DEFINITION. Sys2Proof/WellFormed.lean: the field rules of every instruction, check 4 of R53: what a word's operand, type, modifier and extension fields may hold. Rules that need the group's width are tested when the instruction runs. -/

namespace Sys2Proof

open Sys2Proof.Machine

/-! ## Operand codes -/

/-- A v or s code whose number is a multiple of n. -/
def regN (n : Nat) (o : Opd) : Bool :=
  match o with
  | .v k => k.val % n == 0
  | .s k => k.val % n == 0
  | .k _ | .zero | .one | .half | .two | .negOne | .lane | .ones => false

/-- A source of n registers with no float type (R62, R63): constants are zero, the lane index and all ones. -/
def srcN (n : Nat) (o : Opd) : Bool :=
  match o with
  | .zero | .lane | .ones => true
  | .v _ | .s _ => regN n o
  | .k _ | .one | .half | .two | .negOne => false

/-- A 32-bit source with no float type. -/
def src32 (o : Opd) : Bool := srcN 1 o
/-- A 64-bit source (R63). -/
def src64 (o : Opd) : Bool := srcN 2 o

/-- A source under a float type: the float constants are legal too (R62). -/
def srcF (o : Opd) : Bool :=
  match o with
  | .one | .half | .two | .negOne => true
  | .v _ | .s _ | .k _ | .zero | .lane | .ones => src32 o

/-- A source under a type. -/
def srcTy (ty : Ty) (o : Opd) : Bool := if tyWide ty then src64 o else if tyFloat ty then srcF o else src32 o

/-- A destination of n registers, or the zero code, which discards (R62) (DEDUCED, log 14). -/
def dstN (n : Nat) (o : Opd) : Bool :=
  match o with
  | .zero => true
  | .v _ | .s _ => regN n o
  | .k _ | .one | .half | .two | .negOne | .lane | .ones => false

/-- A 32-bit destination. -/
def dst32 (o : Opd) : Bool := dstN 1 o
/-- A 64-bit destination (R63). -/
def dst64 (o : Opd) : Bool := dstN 2 o
/-- A destination under a type. -/
def dstTy (ty : Ty) (o : Opd) : Bool := if tyWide ty then dst64 o else dst32 o

/-- A mask code (R154). -/
def isMask (o : Opd) : Bool :=
  match o with
  | .k _ => true
  | .v _ | .s _ | .zero | .one | .half | .two | .negOne | .lane | .ones => false

/-- A vector code. -/
def isVec (o : Opd) : Bool :=
  match o with
  | .v _ => true
  | .s _ | .k _ | .zero | .one | .half | .two | .negOne | .lane | .ones => false

/-- A vector register that starts a run of n registers within v0 to v191 (R225). -/
def vecRun (n : Nat) (o : Opd) : Bool :=
  match o with
  | .v k => decide (k.val + n ≤ 192)
  | .s _ | .k _ | .zero | .one | .half | .two | .negOne | .lane | .ones => false

/-- An even vector code (R207). -/
def evenVec (o : Opd) : Bool := isVec o && regN 2 o

/-- The zero code 0xF8. -/
def isZeroCode (o : Opd) : Bool := o == .zero

/-- An even pair, or 0xF8 (R334). -/
def pairOrZero (o : Opd) : Bool := isZeroCode o || regN 2 o

/-- An operand field's rule: a field the form does not use must hold 0 (R74) and carry no mark (R66). -/
def opdOk (k : Option (Opd → Bool)) (o : Opd) (mark : Bool) : Bool :=
  match k with
  | some p => p o
  | none => o == .v 0 && !mark

/-- Registers of a SIZE code (R71). -/
def sizeRegs (sz : BitVec 3) : Nat :=
  match sz.toNat with
  | 3 => 2
  | 4 => 4
  | 5 => 8
  | _ => 1

/-- Membership in a list of types. -/
def tyIn (l : List Ty) (t : Ty) : Bool := l.contains t
/-- Membership in a list of orders. -/
def orderIn (l : List Order) (o : Order) : Bool := l.contains o
/-- The scopes of COLL and XFENCE (R404). -/
def fabScope (s : Scope) : Bool := s == .fab || s == .sys

/-! ## Forms -/

/-- Format R: operands, type, MOD and EXT (R69, R74). -/
def chkR (f : FormR) (d a b c : Option (Opd → Bool)) (ty mod ext : Bool) : Bool :=
  opdOk d f.d f.sn && opdOk a f.a (f.lu.getLsbD 2) && opdOk b f.b (f.lu.getLsbD 1) && opdOk c f.c (f.lu.getLsbD 0) &&
    ty && mod && ext

/-- Format M: operands, SCOPE, ORDER, SIZE, SUB and OFF (R71, R74). -/
def chkM (f : FormM) (d a b : Option (Opd → Bool)) (scope order size sub off : Bool) : Bool :=
  opdOk d f.d f.sn && opdOk a f.a (f.lu.getLsbD 1) && opdOk b f.b (f.lu.getLsbD 0) &&
    decide (f.size.toNat ≤ 5) && scope && order && size && sub && off

/-- Format Q: operands, FMT 0, SCOPE, SUB and EXT (R73, R74). -/
def chkQ (f : FormQ) (d a b : Option (Opd → Bool)) (scope sub ext : Bool) : Bool :=
  opdOk d f.d f.sn && opdOk a f.a (f.lu.getLsbD 1) && opdOk b f.b (f.lu.getLsbD 0) && f.fmt == 0 && scope && sub && ext

/-- Format J: HINT, the condition, OPD and the reserved bits (R72). -/
def chkJ (f : FormJ) (hint cond opd : Bool) : Bool := hint && cond && opd && f.rsv == 0

/-- CK and CN are 0 where no condition is taken (R72). -/
def noCond (f : FormJ) : Bool := f.ck == 0 && !f.cn

/-- BCONT's OPD: an even vector register or an even scalar (R314). -/
def bcontOpd (n : Nat) : Bool := n % 2 == 0 && decide (n ≤ 0xEE)

/-! ## Lane ALU -/

/-- MOD of a form with `.sat`, which no B type takes (R157). -/
def satOk (f : FormR) : Bool := f.mod == 0 || (f.mod == 1 && f.ty != .b32 && f.ty != .b64)

/-- ICMP's EXT: conditions 0 to 5, combines 0 to 2 (R163). -/
def icmpExt (x : Nat) : Bool := decide (x < 32) && decide (x % 8 ≤ 5) && decide (x / 8 ≤ 2)

/-- LSHUF's EXT: bit 3 and bit 7 zero, segment code up to 4 (R172, R173). -/
def lshufExt (x : Nat) : Bool := !bit x 3 && decide (x / 16 ≤ 4)

/-- EXT and type of LSCAN and LREDUCE (R176). -/
def scanExt (scan : Bool) (ty : Ty) (x : Nat) : Bool :=
  decide (x / 16 ≤ 4) && (scan || !bit x 3) &&
    (if x % 8 ≤ 2 then tyIn [.s32, .z32, .s64, .z64, .f32] ty else decide (x % 8 ≤ 5) && tyIn [.b32, .b64] ty)

/-- LVOTE's modes (R175); .uni takes A also as a scalar or a constant, the same value in every lane (DEDUCED, log 92). -/
def lvoteOk (f : FormR) : Bool :=
  match f.ext.toNat with
  | 0 | 1 => chkR f (some isMask) (some isMask) none none (f.ty == .b32) (f.mod == 0) true
  | 2 => chkR f (some isMask) (some (srcTy f.ty)) none none (tyIn [.b32, .b64] f.ty) (f.mod == 0) true
  | 3 => chkR f (some dst32) (some isMask) none none (f.ty == .b32) (f.mod == 0) true
  | _ => false

/-- KMOV's modes (R178): a scalar stands also where the table names a vector, a constant also for A of .fromb and .fromv, the zero code also for D of .tob and .tov; a scalar D receives what the lowest effective lane would (DEDUCED, log 94). -/
def kmovOk (f : FormR) : Bool :=
  match f.ext.toNat with
  | 0 => chkR f (some isMask) (some isMask) none none (f.ty == .b32) (f.mod == 0) true
  | 1 | 3 => chkR f (some isMask) (some src32) none none (f.ty == .b32) (f.mod == 0) true
  | 2 | 4 => chkR f (some dst32) (some isMask) none none (f.ty == .b32) (f.mod == 0) true
  | _ => false

/-- The reserved fields of MOVI and MOVH (R158). -/
def moviCommon (f : FormI) : Bool := f.mod == 0 && f.rsv == 0

/-- MOVI: the high immediate bits are zero for F16 and BF16 (R158). -/
def moviOk (f : FormI) : Bool :=
  moviCommon f && dstTy f.ty f.d && (!(tyIn [.f16, .bf16] f.ty) || decide (f.imm.toNat < 65536))

/-! ## Float unit -/

/-- The format code of a float type (R87). -/
def tyFmt (t : Ty) : Nat :=
  match t with
  | .f16 | .f16x2 => 1
  | .bf16 | .bf16x2 => 2
  | .b32 | .s32 | .z32 | .f32 | .s64 | .z64 | .b64 | .s16x2 | .z16x2 | .s8x4 | .z8x4 => 0

/-- CVTF and its sign operations (R202, R203). -/
def cvtfOk (f : FormR) : Bool :=
  let x := f.ext.toNat
  let op := x / 32
  chkR f (some dst32) (some (srcTy f.ty)) (if op = 3 then some (srcTy f.ty) else none) none
    (tyIn [.f32, .f16, .bf16] f.ty) (op == 0 || f.mod == 0)
    (decide (x % 32 ≤ 2) && decide (op ≤ 3) && (op == 0 || x % 32 == tyFmt f.ty))

/-- FPACK's formats and positions (R205) (DEDUCED, log 14). -/
def fpackOk (f : FormR) : Bool :=
  let x := f.ext.toNat
  let p := x / 32
  let narrow := f.mod.toNat % 4 == 0
  let fp := tyIn [.f32, .f16, .bf16] f.ty
  match x % 32 with
  | 1 | 2 => chkR f (some dst32) (some (srcTy f.ty)) (some (srcTy f.ty)) (some isZeroCode) fp (!f.lu.getLsbD 0) (p == 0)
  | 3 | 4 | 8 => chkR f (some dst32) (some (srcTy f.ty)) (some (srcTy f.ty)) (some src32) fp narrow (decide (p ≤ 1))
  | 7 | 9 => chkR f (some dst32) (some (srcTy f.ty)) (some (srcTy f.ty)) (some src32) fp narrow (decide (p ≤ 3))
  | _ => false

/-- FUNPACK's formats, indices and types (R206). -/
def funpackExt (ty : Ty) (x : Nat) : Bool :=
  let i := x / 32
  (match x % 32 with
  | 1 | 2 => decide (i ≤ 1)
  | 3 | 4 | 8 => decide (i ≤ 3)
  | 5 | 6 => i == 0
  | 7 | 9 => true
  | _ => false) && (ty != .s32 || x % 32 == 8 || x % 32 == 9)

/-- DQNT: with BLK 0, B is the zero code, a constant operand on which a mark has no effect (R66, R208). -/
def dqntOk (f : FormR) : Bool :=
  chkR f (some dst32) (some src32) (if f.ext.toNat < 32 then some isZeroCode else some src32) none
    (tyIn [.f32, .f16, .bf16] f.ty) true (descLegal f.ext.toNat)

/-! ## Pool, sequencer and trap unit -/

/-- SUB of LD, LDNP and LDB: bit 15 only with SIZE 0 and 1 (R217). -/
def ldSub (f : FormM) : Bool := decide (f.sub.toNat ≤ 3) && (!f.sub.getLsbD 0 || decide (f.size.toNat ≤ 1))

/-- SUB of ATOM and RED (R234). -/
def atomSub (atom : Bool) (f : FormM) : Bool :=
  decide (f.sub.toNat ≤ 11) && (atom || f.sub != 8) && (decide (f.sub.toNat < 9) || f.size == 2)

/-- GETS: an assigned register and its type (R274, R275). -/
def getsOk (f : FormR) : Bool :=
  let x := f.ext.toNat
  let wide := x == 0x14 || x == 0x15
  chkR f (if wide then some dst64 else some dst32) none none none
    (if wide then f.ty == .z64 else if x = 0x0C then f.ty == .b32 else f.ty == .z32) (f.mod == 0) (decide (x ≤ 0x19))

/-- TINFO: a field and its type (R290). -/
def tinfoOk (f : FormR) : Bool :=
  let x := f.ext.toNat
  let wide := x == 1 || x == 2 || x == 3 || x == 5
  chkR f (if wide then some dst64 else some dst32) none none none
    (match x with
    | 0 | 6 => f.ty == .z32
    | 1 | 5 => f.ty == .z64
    | 2 | 3 => f.ty == .b64
    | _ => f.ty == .b32) (f.mod == 0) (decide (x ≤ 7))

/-! ## Every instruction -/

/-- Whether an instruction's fields are legal (R53 check 4). The part's own steps have no encoding and no field rules (DEDUCED, log 14). -/
def legal (i : Instr) : Bool :=
  match i with
  | .nop f => chkR f none none none none (f.ty == .b32) (f.mod == 0) (f.ext == 0) && f.gd.pk == 0 && !f.gd.pn
  | .mov f => chkR f (some (dstTy f.ty)) (some (srcTy f.ty)) none none true (f.mod == 0) (f.ext == 0)
  | .movi f => moviOk f
  | .movh f => moviCommon f && dst64 f.d && f.ty == .b64
  | .sel f => chkR f (some (dstTy f.ty)) (some (srcTy f.ty)) (some (srcTy f.ty)) (some isMask) true (f.mod == 0) (f.ext == 0)
  | .iadd f => chkR f (some (dstTy f.ty)) (some (srcTy f.ty)) (some (srcTy f.ty)) none (tyIn [.b32, .s32, .z32, .b64, .s64, .z64, .s16x2, .z16x2, .s8x4, .z8x4] f.ty) (satOk f) (f.ext == 0)
  | .isub f => chkR f (some (dstTy f.ty)) (some (srcTy f.ty)) (some (srcTy f.ty)) none (tyIn [.b32, .s32, .z32, .b64, .s64, .z64, .s16x2, .z16x2, .s8x4, .z8x4] f.ty) (satOk f) (f.ext == 0)
  | .iaddc f => chkR f (some (dstTy f.ty)) (some (srcTy f.ty)) (some (srcTy f.ty)) (some isMask) (tyIn [.b32, .z32, .b64, .z64] f.ty) (f.mod == 0) (decide (f.ext.toNat ≤ 1))
  | .isubb f => chkR f (some (dstTy f.ty)) (some (srcTy f.ty)) (some (srcTy f.ty)) (some isMask) (tyIn [.b32, .z32, .b64, .z64] f.ty) (f.mod == 0) (decide (f.ext.toNat ≤ 1))
  | .ineg f => chkR f (some (dstTy f.ty)) (some (srcTy f.ty)) none none (tyIn [.s32, .s64, .s16x2, .s8x4] f.ty) (satOk f) (f.ext == 0)
  | .iabs f => chkR f (some (dstTy f.ty)) (some (srcTy f.ty)) none none (tyIn [.s32, .s64, .s16x2, .s8x4] f.ty) (satOk f) (f.ext == 0)
  | .imin f => chkR f (some (dstTy f.ty)) (some (srcTy f.ty)) (some (srcTy f.ty)) none (tyIn [.s32, .z32, .s64, .z64, .s16x2, .z16x2, .s8x4, .z8x4] f.ty) (f.mod == 0) (f.ext == 0)
  | .imax f => chkR f (some (dstTy f.ty)) (some (srcTy f.ty)) (some (srcTy f.ty)) none (tyIn [.s32, .z32, .s64, .z64, .s16x2, .z16x2, .s8x4, .z8x4] f.ty) (f.mod == 0) (f.ext == 0)
  | .imul f => chkR f (some (dstTy f.ty)) (some (srcTy f.ty)) (some (srcTy f.ty)) none (tyIn [.b32, .s32, .z32, .b64, .s64, .z64, .s16x2, .z16x2] f.ty) (f.mod == 0) (f.ext == 0)
  | .imulh f => chkR f (some (dstTy f.ty)) (some (srcTy f.ty)) (some (srcTy f.ty)) none (tyIn [.s32, .z32, .s64, .z64, .s16x2, .z16x2] f.ty) (f.mod == 0) (f.ext == 0)
  | .imad f => chkR f (some (dstTy f.ty)) (some (srcTy f.ty)) (some (srcTy f.ty)) (some (srcTy f.ty)) (tyIn [.b32, .s32, .z32, .b64, .s64, .z64, .s16x2, .z16x2] f.ty) (f.mod == 0) (f.ext == 0)
  | .imadw f => chkR f (some dst64) (some src32) (some src32) (some src64) (tyIn [.s32, .z32] f.ty) (f.mod == 0) (f.ext == 0)
  | .idiv f => chkR f (some (dstTy f.ty)) (some (srcTy f.ty)) (some (srcTy f.ty)) none (tyIn [.s32, .z32, .s64, .z64] f.ty) (f.mod.toNat < 2) (f.ext == 0)
  | .irem f => chkR f (some (dstTy f.ty)) (some (srcTy f.ty)) (some (srcTy f.ty)) none (tyIn [.s32, .z32, .s64, .z64] f.ty) (f.mod.toNat < 2) (f.ext == 0)
  | .icmp f => chkR f (some isMask) (some (srcTy f.ty)) (some (srcTy f.ty)) none (tyIn [.b32, .s32, .z32, .b64, .s64, .z64] f.ty) (f.mod == 0) (icmpExt f.ext.toNat)
  | .and f => chkR f (some (dstTy f.ty)) (some (srcTy f.ty)) (some (srcTy f.ty)) none (tyIn [.b32, .b64] f.ty) (f.mod == 0) (f.ext == 0)
  | .or f => chkR f (some (dstTy f.ty)) (some (srcTy f.ty)) (some (srcTy f.ty)) none (tyIn [.b32, .b64] f.ty) (f.mod == 0) (f.ext == 0)
  | .xor f => chkR f (some (dstTy f.ty)) (some (srcTy f.ty)) (some (srcTy f.ty)) none (tyIn [.b32, .b64] f.ty) (f.mod == 0) (f.ext == 0)
  | .not f => chkR f (some (dstTy f.ty)) (some (srcTy f.ty)) none none (tyIn [.b32, .b64] f.ty) (f.mod == 0) (f.ext == 0)
  | .andn f => chkR f (some (dstTy f.ty)) (some (srcTy f.ty)) (some (srcTy f.ty)) none (tyIn [.b32, .b64] f.ty) (f.mod == 0) (f.ext == 0)
  | .shl f => chkR f (some (dstTy f.ty)) (some (srcTy f.ty)) (some src32) none (tyIn [.b32, .s32, .z32, .b64, .s64, .z64, .s16x2, .z16x2, .s8x4, .z8x4] f.ty) (f.mod == 0) (f.ext == 0)
  | .shr f => chkR f (some (dstTy f.ty)) (some (srcTy f.ty)) (some src32) none (tyIn [.b32, .s32, .z32, .b64, .s64, .z64, .s16x2, .z16x2, .s8x4, .z8x4] f.ty) (f.mod == 0) (f.ext == 0)
  | .sar f => chkR f (some (dstTy f.ty)) (some (srcTy f.ty)) (some src32) none (tyIn [.b32, .s32, .z32, .b64, .s64, .z64, .s16x2, .z16x2, .s8x4, .z8x4] f.ty) (f.mod == 0) (f.ext == 0)
  | .rot f => chkR f (some (dstTy f.ty)) (some (srcTy f.ty)) (some src32) none (tyIn [.b32, .s32, .z32, .b64, .s64, .z64, .s16x2, .z16x2, .s8x4, .z8x4] f.ty) (f.mod == 0) (f.ext == 0)
  | .funnel f => chkR f (some dst32) (some src32) (some src32) (some src32) (f.ty == .b32) (f.mod == 0) (decide (f.ext.toNat ≤ 1))
  | .bfe f => chkR f (some (dstTy f.ty)) (some (srcTy f.ty)) (some src32) (some src32) (tyIn [.s32, .z32, .s64, .z64] f.ty) (f.mod == 0) (f.ext == 0)
  | .bfi f => chkR f (some (dstTy f.ty)) (some (srcTy f.ty)) (some (srcTy f.ty)) (some src32) (tyIn [.b32, .b64] f.ty) (f.mod == 0) (f.ext == 0)
  | .popc f => chkR f (some dst32) (some (srcTy f.ty)) none none (tyIn [.b32, .b64] f.ty) (f.mod == 0) (f.ext == 0)
  | .clz f => chkR f (some dst32) (some (srcTy f.ty)) none none (tyIn [.b32, .b64] f.ty) (f.mod == 0) (f.ext == 0)
  | .ctz f => chkR f (some dst32) (some (srcTy f.ty)) none none (tyIn [.b32, .b64] f.ty) (f.mod == 0) (f.ext == 0)
  | .brev f => chkR f (some (dstTy f.ty)) (some (srcTy f.ty)) none none (tyIn [.b32, .b64] f.ty) (f.mod == 0) (f.ext == 0)
  | .bperm f => chkR f (some dst32) (some src32) (some src32) (some src32) (f.ty == .b32) (f.mod == 0) (f.ext == 0)
  | .lea f => chkR f (some dst64) (some src64) (some src32) none (tyIn [.s32, .z32] f.ty) (f.mod == 0) (decide (f.ext.toNat ≤ 7))
  | .ptrmk f => chkR f (some dst64) (if f.ext.toNat = 8 then none else some src32) (some src64) none (f.ty == .b64) (f.mod == 0) (decide (1 ≤ f.ext.toNat) && decide (f.ext.toNat ≤ 10))
  | .ptradd f => chkR f (some dst64) (some src64) (some (srcTy f.ty)) none (tyIn [.s32, .s64] f.ty) (f.mod == 0) (f.ext == 0)
  | .ptrget f => chkR f (some dst64) (some src64) none none (f.ty == .z64) (f.mod == 0) (decide (f.ext.toNat ≤ 3))
  | .lshuf f => chkR f (some (dstTy f.ty)) (some (srcTy f.ty)) (some src32) none true (f.mod == 0) (lshufExt f.ext.toNat)
  | .lbcast f => chkR f (some (dstTy f.ty)) (some (srcTy f.ty)) (if f.ext = 1 then none else some src32) none true (f.mod == 0) (decide (f.ext.toNat ≤ 1))
  | .lvote f => lvoteOk f
  | .lscan f => chkR f (some (dstTy f.ty)) (some (srcTy f.ty)) none none true (f.ty == .f32 || f.mod == 0) (scanExt true f.ty f.ext.toNat)
  | .lreduce f => chkR f (some (dstTy f.ty)) (some (srcTy f.ty)) none none true (f.ty == .f32 || f.mod == 0) (scanExt false f.ty f.ext.toNat)
  | .kop f => chkR f (some isMask) (some isMask) (some isMask) none (f.ty == .b32) (f.mod == 0) (decide (f.ext.toNat ≤ 15))
  | .kmov f => kmovOk f
  | .fadd f => chkR f (some (dstTy f.ty)) (some (srcTy f.ty)) (some (srcTy f.ty)) none (tyIn [.f32, .f16, .bf16, .f16x2, .bf16x2] f.ty) true (f.ext == 0)
  | .fsub f => chkR f (some (dstTy f.ty)) (some (srcTy f.ty)) (some (srcTy f.ty)) none (tyIn [.f32, .f16, .bf16, .f16x2, .bf16x2] f.ty) true (f.ext == 0)
  | .fmul f => chkR f (some (dstTy f.ty)) (some (srcTy f.ty)) (some (srcTy f.ty)) none (tyIn [.f32, .f16, .bf16, .f16x2, .bf16x2] f.ty) true (f.ext == 0)
  | .ffma f => chkR f (some (dstTy f.ty)) (some (srcTy f.ty)) (some (srcTy f.ty)) (some (srcTy f.ty)) (tyIn [.f32, .f16, .bf16, .f16x2, .bf16x2] f.ty) true (decide (f.ext.toNat ≤ 3))
  | .fmin f => chkR f (some (dstTy f.ty)) (some (srcTy f.ty)) (some (srcTy f.ty)) none (tyIn [.f32, .f16, .bf16, .f16x2, .bf16x2] f.ty) (f.mod.toNat % 4 == 0) (f.ext == 0)
  | .fmax f => chkR f (some (dstTy f.ty)) (some (srcTy f.ty)) (some (srcTy f.ty)) none (tyIn [.f32, .f16, .bf16, .f16x2, .bf16x2] f.ty) (f.mod.toNat % 4 == 0) (f.ext == 0)
  | .fminnum f => chkR f (some (dstTy f.ty)) (some (srcTy f.ty)) (some (srcTy f.ty)) none (tyIn [.f32, .f16, .bf16, .f16x2, .bf16x2] f.ty) (f.mod.toNat % 4 == 0) (f.ext == 0)
  | .fmaxnum f => chkR f (some (dstTy f.ty)) (some (srcTy f.ty)) (some (srcTy f.ty)) none (tyIn [.f32, .f16, .bf16, .f16x2, .bf16x2] f.ty) (f.mod.toNat % 4 == 0) (f.ext == 0)
  | .fcmp f => chkR f (some isMask) (some (srcTy f.ty)) (some (srcTy f.ty)) none (tyIn [.f32, .f16, .bf16] f.ty) (f.mod.toNat % 4 == 0) (decide (f.ext.toNat < 64) && decide (f.ext.toNat / 8 % 4 ≠ 3))
  | .fclass f => chkR f (some dst32) (some (srcTy f.ty)) none none (tyIn [.f32, .f16, .bf16] f.ty) (f.mod.toNat % 4 == 0) (f.ext == 0)
  | .frnd f => chkR f (some (dstTy f.ty)) (some (srcTy f.ty)) none none (tyIn [.f32, .f16, .bf16, .f16x2, .bf16x2] f.ty) true (decide (f.ext.toNat ≤ 1))
  | .ffrac f => chkR f (some (dstTy f.ty)) (some (srcTy f.ty)) none none (tyIn [.f32, .f16, .bf16, .f16x2, .bf16x2] f.ty) (f.mod.toNat % 4 == 0) (f.ext == 0)
  | .fscale f => chkR f (some (dstTy f.ty)) (some (srcTy f.ty)) (some src32) none (tyIn [.f32, .f16, .bf16] f.ty) true (f.ext == 0)
  | .fgetexp f => chkR f (some (dstTy f.ty)) (some (srcTy f.ty)) none none (tyIn [.f32, .f16, .bf16] f.ty) (f.mod.toNat % 4 == 0) (f.ext == 0)
  | .frcp f => chkR f (some (dstTy f.ty)) (some (srcTy f.ty)) none none (tyIn [.f32, .f16, .bf16] f.ty) (f.mod.toNat % 4 == 0) (f.ext == 0)
  | .frsq f => chkR f (some (dstTy f.ty)) (some (srcTy f.ty)) none none (tyIn [.f32, .f16, .bf16] f.ty) (f.mod.toNat % 4 == 0) (f.ext == 0)
  | .fsqrt f => chkR f (some (dstTy f.ty)) (some (srcTy f.ty)) none none (tyIn [.f32, .f16, .bf16] f.ty) true (f.ext == 0)
  | .fdiv f => chkR f (some (dstTy f.ty)) (some (srcTy f.ty)) (some (srcTy f.ty)) none (tyIn [.f32, .f16, .bf16] f.ty) true (f.ext == 0)
  | .fexp2 f => chkR f (some (dstTy f.ty)) (some (srcTy f.ty)) none none (tyIn [.f32, .f16, .bf16] f.ty) (f.mod.toNat % 4 == 0) (f.ext == 0)
  | .flog2 f => chkR f (some (dstTy f.ty)) (some (srcTy f.ty)) none none (tyIn [.f32, .f16, .bf16] f.ty) (f.mod.toNat % 4 == 0) (f.ext == 0)
  | .fsin f => chkR f (some (dstTy f.ty)) (some (srcTy f.ty)) none none (tyIn [.f32, .f16, .bf16] f.ty) (f.mod.toNat % 4 == 0) (f.ext == 0)
  | .fcos f => chkR f (some (dstTy f.ty)) (some (srcTy f.ty)) none none (tyIn [.f32, .f16, .bf16] f.ty) (f.mod.toNat % 4 == 0) (f.ext == 0)
  | .ftanh f => chkR f (some (dstTy f.ty)) (some (srcTy f.ty)) none none (tyIn [.f32, .f16, .bf16] f.ty) (f.mod.toNat % 4 == 0) (f.ext == 0)
  | .fsigm f => chkR f (some (dstTy f.ty)) (some (srcTy f.ty)) none none (tyIn [.f32, .f16, .bf16] f.ty) (f.mod.toNat % 4 == 0) (f.ext == 0)
  | .cvtf f => cvtfOk f
  | .cvti f => chkR f (some dst32) (some (srcTy f.ty)) none none (tyIn [.s32, .z32, .s64, .z64] f.ty) (f.mod.toNat < 4) (decide (f.ext.toNat ≤ 2))
  | .cvtfi f => chkR f (some (dstTy f.ty)) (some srcF) none none (tyIn [.s32, .z32, .s64, .z64] f.ty) true (decide (f.ext.toNat ≤ 2))
  | .fpack f => fpackOk f
  | .funpack f => chkR f (some dst32) (some src32) none none (tyIn [.f32, .f16, .bf16, .s32] f.ty) true (funpackExt f.ty f.ext.toNat)
  | .qnt f => chkR f (some evenVec) (some (srcTy f.ty)) none none (tyIn [.f32, .f16, .bf16] f.ty) (f.mod.toNat % 4 == 0) (descLegal f.ext.toNat && decide (32 ≤ f.ext.toNat))
  | .dqnt f => dqntOk f
  | .fdot2 f => chkR f (some dst32) (some (srcTy f.ty)) (some (srcTy f.ty)) (some srcF) (tyIn [.f16x2, .bf16x2] f.ty) true (f.ext == 0)
  | .fdot4 f => chkR f (some dst32) (some src32) (some src32) (some srcF) (f.ty == .b32) true (f.ext == 3 || f.ext == 4 || f.ext == 8)
  | .fdot8 f => chkR f (some dst32) (some src32) (some src32) (some srcF) (f.ty == .b32) true (f.ext == 7 || f.ext == 9)
  | .ld f => chkM f (some (dstN (sizeRegs f.size))) (some src64) none true (orderIn [.rlx, .acq] f.order) true (ldSub f) true
  | .st f => chkM f none (some src64) (some (srcN (sizeRegs f.size))) true (orderIn [.rlx, .rel] f.order) true (f.sub == 0) true
  | .ldnp f => chkM f (some (dstN (sizeRegs f.size))) (some src64) none true (f.order == .rlx) true (ldSub f) true
  | .ldb f => chkM f (some (dstN (sizeRegs f.size))) (some src64) none true (orderIn [.rlx, .acq] f.order) true (ldSub f) true
  | .atom f => chkM f (some (dstN (sizeRegs f.size))) (some src64) (some (srcN (sizeRegs f.size))) true true (f.size == 2 || f.size == 3) (atomSub true f) true
  | .acas f => chkM f (some (dstN (sizeRegs f.size))) (some src64) (some (regN (if f.size = 2 then 2 else 4))) true true (f.size == 2 || f.size == 3) (f.sub == 0) true
  | .red f => chkM f none (some src64) (some (srcN (sizeRegs f.size))) true (orderIn [.rlx, .rel] f.order) (f.size == 2 || f.size == 3) (atomSub false f) true
  | .fence f => chkM f none none none true (f.order != .rlx) (f.size == 0) (f.sub == 0) (f.off == 0)
  | .pgrow f => chkR f (some dst32) (some src32) none (if f.ext = 2 then some isMask else none) (f.ty == .z32) (f.mod == 0) (decide (f.ext.toNat ≤ 2))
  | .pshrink f => chkR f (some dst32) (some src32) none (if f.ext = 2 then some isMask else none) (f.ty == .z32) (f.mod == 0) (f.ext == 0 || f.ext == 2)
  | .fgrow f => chkR f (some dst32) (some src32) none (if f.ext = 2 then some isMask else none) (f.ty == .z32) (f.mod == 0) (decide (f.ext.toNat ≤ 2))
  | .fshrink f => chkR f (some dst32) (some src32) none (if f.ext = 2 then some isMask else none) (f.ty == .z32) (f.mod == 0) (f.ext == 0 || f.ext == 2)
  | .ocfill f => chkR f none (some (vecRun (f.ext.toNat % 8 + 1))) none none (f.ty == .b32) (f.mod == 0) (decide (f.ext.toNat ≤ 7))
  | .ocdrop f => chkR f none (some (vecRun (f.ext.toNat % 8 + 1))) none none (f.ty == .b32) (f.mod == 0) (decide (f.ext.toNat ≤ 15))
  | .ocsync f => chkR f none none none none (f.ty == .b32) (f.mod == 0) (f.ext == 0)
  | .lpin f => chkM f (some isMask) (some src64) none (f.scope == .grp) (f.order == .rlx) true (f.sub == 0) true
  | .lunpin f => chkM f none (some src64) none (f.scope == .grp) (f.order == .rlx) true (f.sub == 0) true
  | .linv f => chkM f none (some src64) none (f.scope == .grp) (f.order == .rlx) true (f.sub == 0) true
  | .lwb f => chkM f none (some src64) none (f.scope == .grp) (f.order == .rlx) true (f.sub == 0) true
  | .pres f => chkM f (some dst32) (some src64) none (f.scope == .grp) (f.order == .rlx) true (f.sub == 0) true
  | .objq f => chkR f (if f.ext = 0 then some dst64 else some dst32) (some src64) none none (f.ty == .z64) (f.mod == 0) (decide (f.ext.toNat ≤ 2))
  | .ptrchk f => chkR f (some isMask) (some src64) (some src32) none (f.ty == .b64) (f.mod == 0) (decide (1 ≤ f.ext.toNat) && decide (f.ext.toNat ≤ 15))
  | .advise f => chkM f none (some src64) (some src32) (f.scope == .grp) (f.order == .rlx) (f.size == 0) (decide (f.sub.toNat ≤ 3)) true
  | .bra f => chkJ f true (noCond f) (f.opd == 0)
  | .brc f => chkJ f true true (f.opd == 0)
  | .brx f => chkR f none (some src32) none none (f.ty == .z32) (f.mod == 0) (f.ext == 0)
  | .call f => chkJ f true (noCond f) (decide (f.opd.toNat ≤ 191))
  | .callx f => chkR f none (some src32) none none (f.ty == .z32) (f.mod == 0) (decide (f.ext.toNat ≤ 191))
  | .ret f => chkR f none none none none (f.ty == .b32) (f.mod == 0) (f.ext == 0)
  | .loop f => chkJ f true (noCond f) (decide (0xC0 ≤ f.opd.toNat) && decide (f.opd.toNat ≤ 0xEF))
  | .fspawn f => chkJ f (f.hint == 0) true (f.opd == 0)
  | .fend f => chkR f none none none none (f.ty == .b32) (f.mod == 0) (f.ext == 0)
  | .fyield f => chkR f none none none none (f.ty == .b32) (f.mod == 0) (f.ext == 0)
  | .exit f => chkR f none none none none (f.ty == .b32) (f.mod == 0) (f.ext == 0)
  | .sleep f => chkR f none (some src32) none none (f.ty == .z32) (f.mod == 0) (f.ext == 0)
  | .gets f => getsOk f
  | .sets f => chkR f none (some src32) none none (f.ty == .z32) (f.mod == 0) (f.ext == 0x0F || f.ext == 0x10 || f.ext == 0x12 || f.ext == 0x13)
  | .trap f => chkR f none none none none (f.ty == .b32) (f.mod == 0) true
  | .tret f => chkR f none none none none (f.ty == .b32) (f.mod == 0) (decide (f.ext.toNat ≤ 1))
  | .tmask f => chkR f none (some src32) (some src32) none (f.ty == .z32) (f.mod == 0) (decide (f.ext.toNat ≤ 191))
  | .tinfo f => tinfoOk f
  | .tsub f => chkR f none (some (srcTy f.ty)) none none (tyIn [.b32, .s32, .z32, .f32, .b64, .s64, .z64] f.ty) (f.mod == 0) (decide (f.ext.toNat ≤ 7))
  | .ctxsave f => chkR f (some dst32) (some src32) none none (f.ty == .z32) (f.mod == 0) (f.ext == 0)
  | .ctxload f => chkR f (some dst32) (some src32) none none (f.ty == .z32) (f.mod == 0) (f.ext == 0)
  | .halt f => chkR f none none none none (f.ty == .b32) (f.mod == 0) (decide (f.ext.toNat ≤ 1))
  | .preq f => chkR f (some dst32) (some src32) none none (f.ty == .z32) (f.mod == 0) (decide (f.ext.toNat ≤ 1))
  | .binit f => chkM f none (some src64) (some src64) (f.scope == .grp) (f.order == .rlx) (f.size == 5) (f.sub == 0) true
  | .barv f => chkM f (some dst32) (some src64) none true (orderIn [.rlx, .rel] f.order) (f.size == 5) (decide (f.sub.toNat ≤ 1)) true
  | .bexp f => chkM f (some dst32) (some src64) (some src64) true (orderIn [.rlx, .rel] f.order) (f.size == 5) (decide (f.sub.toNat ≤ 3)) true
  | .bwait f => chkM f (some dst32) (some src64) (some src32) true (f.order == .rlx) (f.size == 5) (f.sub == 0) true
  | .bcont f => chkJ f (f.hint == 0) (f.ck == 0) (bcontOpd f.opd.toNat)
  | .await f => chkM f (some (dstN (sizeRegs f.size))) (some src64) (some (srcN (sizeRegs f.size))) true (f.order == .rlx) (f.size == 2 || f.size == 3) (f.sub == 0) true
  | .watch f => chkM f none (some src64) none (f.scope == .grp) (f.order == .rlx) true (f.sub == 0) true
  | .pause f => chkR f (some dst32) (some src32) none none (f.ty == .z32) (f.mod == 0) (f.ext == 0)
  | .tbar f => chkR f none none none none (f.ty == .b32) (f.mod == 0) (f.ext == 0)
  | .sbar f => chkR f none none none none (f.ty == .b32) (f.mod == 0) (f.ext == 0)
  | .gbar f => chkR f none none none none (f.ty == .b32) (f.mod == 0) (f.ext == 0)
  | .cpy f => chkQ f (some dst32) (some (regN 2)) (some pairOrZero) (f.scope != .grp) (decide (f.sub.toNat ≤ 1)) (f.ext == 0)
  | .gath f => chkQ f (some dst32) (some (regN 2)) (some pairOrZero) (f.scope != .grp) (f.sub == 0) (f.ext == 0)
  | .scat f => chkQ f (some dst32) (some (regN 2)) (some pairOrZero) (f.scope != .grp) (f.sub == 0) (f.ext == 0)
  | .cfill f => chkQ f (some dst32) (some (regN 2)) (some pairOrZero) (f.scope != .grp) (decide (f.sub.toNat ≤ 1)) (f.ext == 0)
  | .orsv f => chkQ f (some (regN 2)) (some src64) none (f.scope == .grp) (decide (f.sub.toNat ≤ 3)) (f.ext == 0)
  | .orel f => chkQ f (some dst32) (some src64) none (f.scope == .grp) (f.sub == 0) (f.ext == 0)
  | .oqry f => chkQ f (some dst32) none none (f.scope == .grp) (decide (f.sub.toNat ≤ 3)) (f.ext == 0)
  | .mma f => chkQ f (some dst32) (some src64) (some src64) (f.scope == .grp) (f.sub == 0) (f.ext == 0)
  | .azero f => chkQ f none (some src64) none (f.scope == .grp) (f.sub == 0) (decide (f.ext.toNat < 64))
  | .amov f => chkQ f (some isVec) (some src64) none (f.scope == .grp) (f.sub == 0) (decide (f.ext.toNat < 64))
  | .ains f => chkQ f none (some src64) (some isVec) (f.scope == .grp) (f.sub == 0) (decide (f.ext.toNat < 64))
  | .adrain f => chkQ f (some dst32) (some src64) (some src64) (f.scope == .grp) (f.sub == 0) (f.ext == 0)
  | .jst f => chkM f (some (dstN (sizeRegs f.size))) (some src64) (some (srcN (sizeRegs f.size))) (f.scope == .grp) (f.order == .rlx) (f.size == 2 || f.size == 3) (f.sub == 0) true
  | .jld f => chkM f (some (dstN (sizeRegs f.size))) (some src64) (some (srcN (sizeRegs f.size))) (f.scope == .grp) (f.order == .rlx) (f.size == 2 || f.size == 3) (f.sub == 0) true
  | .jldn f => chkM f (some (dstN (sizeRegs f.size))) (some src64) none (f.scope == .grp) (f.order == .rlx) (f.size == 2 || f.size == 3) (f.sub == 0) true
  | .jadd f => chkM f (some (dstN (sizeRegs f.size))) (some src64) (some (srcN (sizeRegs f.size))) (f.scope == .grp) (f.order == .rlx) (f.size == 3) (f.sub == 0) true
  | .jtrade f => chkQ f (some dst32) (some src64) none (f.scope == .grp) (f.sub == 0) (f.ext == 0)
  | .jqry f => chkQ f (if f.sub = 4 then some dst64 else some dst32) (some src64) none (f.scope == .grp) (decide (f.sub.toNat ≤ 5)) (f.ext == 0)
  | .coll f => chkQ f (some dst32) (some src64) (some src64) (fabScope f.scope) (f.sub == 0) (f.ext == 0)
  | .xfence f => chkM f (some dst32) (some src64) none (fabScope f.scope) (orderIn [.rlx, .rel] f.order) (f.size == 0) (f.sub == 0) (f.off == 0)
  | .xqry f => chkQ f (some dst32) (some src64) none (f.scope == .grp) (decide (f.sub.toNat ≤ 5)) (f.ext == 0)
  | .pwrq f => chkR f (some (regN 1)) none none none (f.ty == .z32) (f.mod == 0) (decide (f.ext.toNat ≤ 5))
  | .pwrarm f => chkR f none none none none (f.ty == .b32) (f.mod == 0) (decide (f.ext.toNat ≤ 1))
  | .veerhold f => chkR f (some dst32) (some (regN 1)) none none (f.ty == .z32) (f.mod == 0) (f.ext == 0)
  | .tclaim f => chkR f (some dst32) (some src32) none none (f.ty == .z32) (f.mod == 0) (f.ext == 0)
  | .tplace f => chkR f (some dst32) (some src32) (if f.ext = 1 then some src32 else none) none (f.ty == .z32) (f.mod == 0) (decide (f.ext.toNat ≤ 2))
  | .gdec f => chkR f (some dst32) (some src32) none none (f.ty == .z32) (f.mod == 0) (f.ext == 0)
  | .qtake f => chkR f (some dst32) (some src64) none none (f.ty == .z32) (f.mod == 0) (f.ext == 0)
  | .qack f => chkR f (some dst32) (some src32) (some src32) none (f.ty == .z32) (f.mod == 0) (f.ext == 0)
  | .clauseStart _ _ => true
  | .clauseBoundary _ => true
  | .sliceIssue _ _ => true
  | .groupUrgent _ => true
  | .fixedLatencyLanding _ => true
  | .switchPoint _ => true
  | .entrySetAcquire _ => true
  | .operandCacheFillDone _ => true
  | .ocdropComplete _ => true
  | .ocsyncComplete _ => true
  | .poolLoadReturn _ _ => true
  | .storePerformed _ _ => true
  | .atomicPerformed _ _ => true
  | .parkedLoadWake _ => true
  | .fenceDrainDone _ => true
  | .objectCacheFill _ _ => true
  | .lpinFillDone _ _ => true
  | .allocatorAnswer _ => true
  | .stallGrowRetry _ => true
  | .stallGrowTimeout _ => true
  | .shrinkAfterCopies _ => true
  | .sleepWake _ => true
  | .groupLeaveSlot _ => true
  | .teamEnd _ => true
  | .trapDelivery _ => true
  | .switchPointTrap _ => true
  | .throttleTrap _ => true
  | .haltRequest _ => true
  | .groupHalted _ => true
  | .gridKill _ => true
  | .killComplete _ => true
  | .barrierUpdate _ => true
  | .phaseWaiterWake _ => true
  | .continuationFire _ => true
  | .waitPoll _ => true
  | .pauseWake _ => true
  | .pauseTimeout _ => true
  | .barrierInstanceComplete _ _ _ => true
  | .gustWaveRelease _ => true
  | .streamerRequestActive _ => true
  | .streamerLineRead _ => true
  | .streamerLineLand _ _ => true
  | .streamerCredit _ => true
  | .gcountCredit _ => true
  | .requestComplete _ => true
  | .bulkHandoff _ => true
  | .bulkCreditArrival _ => true
  | .copyPageResume _ => true
  | .copyAbort _ => true
  | .mmaStep _ => true
  | .mmaResults _ => true
  | .matrixCommandBegin _ => true
  | .matrixCommandFinish _ => true
  | .drainRow _ => true
  | .drainLinePerformed _ _ => true
  | .drainComplete _ => true
  | .drainPageResume _ => true
  | .drainAbort _ => true
  | .matrixStepReexecute _ => true
  | .reservationFreed _ _ => true
  | .latticeLanePerformed _ => true
  | .latticeReply _ => true
  | .thresholdReached _ => true
  | .thresholdPoll _ => true
  | .cellCacheFill _ _ _ _ => true
  | .regionCacheFill _ _ => true
  | .tradeInstant _ _ => true
  | .tradePacketApply _ => true
  | .tradeAck _ => true
  | .starHubSend _ _ => true
  | .jtradeComplete _ => true
  | .peerAccessReply _ _ _ _ => true
  | .fabricPortAccept _ => true
  | .peerWriteAck _ _ => true
  | .multicastApply _ => true
  | .inboundFabricAccess _ => true
  | .xfenceDone _ => true
  | .collectiveComplete _ _ => true
  | .collectiveTimeout _ => true
  | .peerResetLearned _ _ _ => true
  | .ringPacketAdmit _ => true
  | .ringAdmissionStarved _ _ => true
  | .ringPacketDelivery _ => true
  | .dieReset _ => true
  | .incarnationTableLoad _ => true
  | .incarnationAnnounce _ => true
  | .targetResetCompletion _ _ => true
  | .baseDieBError => true
  | .baseDieAError => true
  | .modulePowerOn => true
  | .linkRetrain _ => true
  | .inboundPostedWrite _ => true
  | .inboundRead _ => true
  | .inboundAtomicop _ => true
  | .inboundLineAck _ _ => true
  | .hostMemoryRequest _ _ => true
  | .hostCompletion _ _ _ _ => true
  | .systemReleaseFlush _ => true
  | .pageRequest _ _ _ => true
  | .prqptrHeadWrite _ _ => true
  | .pageAnswerZero _ => true
  | .pageAnswerCopy _ => true
  | .pageAnswerMap _ => true
  | .pageAnswerFail _ => true
  | .hreqQuery _ _ => true
  | .hreqPin _ _ => true
  | .hreqUnpin _ _ => true
  | .hreqTohost _ _ _ => true
  | .hreqTodev _ _ => true
  | .hreqDrop _ _ => true
  | .otinvWrite _ _ => true
  | .otinvComplete _ => true
  | .partitionEnable _ _ _ => true
  | .partitionTeardown _ => true
  | .teardownComplete _ => true
  | .epochEnd _ => true
  | .pageMoveStep _ _ => true
  | .functionLevelReset _ => true
  | .mctpMessage _ => true
  | .qinSubmission _ _ _ => true
  | .qcfgEnable _ _ _ => true
  | .qstatusClear _ _ _ => true
  | .cmdNop _ _ => true
  | .cmdBegin _ _ => true
  | .cmdCommit _ _ => true
  | .cmdGraph _ _ => true
  | .cmdRcreate _ _ => true
  | .cmdRdestroy _ _ => true
  | .cmdFence _ _ => true
  | .gridStart _ _ => true
  | .gridComplete _ => true
  | .runComplete _ => true
  | .firmwareRestart => true
  | .watchdogPreempt _ => true
  | .watchdogKill _ => true
  | .watchdogFence _ => true
  | .haltIdleWake _ => true
  | .controlInterval _ => true
  | .fcapWrite _ => true
  | .currentRatingReached _ => true
  | .ratioChange _ => true
  | .squall _ => true
  | .clauseReexecute _ => true
  | .veerInstant _ _ => true
  | .veerStart _ => true
  | .veerPauseEnd _ => true
  | .registerWrite _ _ _ => true
  | .squallStretchEnd _ => true
  | .firmwareRestartEnd => true
  | .matrixQueryComplete _ => true
  | .latticeQueryComplete _ => true
  | .fabricQueryComplete _ => true
  | .qtakeQackComplete _ => true

/-- The instructions whose fields are legal. -/
abbrev WellFormed (i : Instr) : Prop := legal i = true

end Sys2Proof
end

