-- ==== Sys2Proof/Decode.lean ====
section
/-! DEFINITION. Sys2Proof/Decode.lean: instruction words to instructions, rejecting by name, and the encoder (R45, R53, R62, R67-R76). -/

namespace Sys2Proof

/-- Why a word is not an instruction (R53 checks 1 and 4). -/
inductive DecodeError where
  /-- Bits 63:58 are all ones: the word is a clause header (R76). -/
  | headerTag
  /-- The opcode is reserved (R76). -/
  | reservedOpcode
  /-- An operand field holds 0xFF (R62). -/
  | operandCode
  /-- TY is 15 (R64). -/
  | typeCode
  /-- SCOPE is 6 or 7 (R71). -/
  | scopeCode
  /-- A field holds a value its form does not take (R53 check 4). -/
  | illegalField
  deriving DecidableEq, Repr

/-- n bits of a word from bit lo up. -/
def fld (w lo n : Nat) : Nat := w / 2 ^ lo % 2 ^ n

/-! ## Codes -/

/-- The 8-bit code of an operand (R62). -/
def opdCode (o : Opd) : Nat :=
  match o with
  | .v n => n.val
  | .s n => 0xC0 + n.val
  | .k n => 0xF0 + n.val
  | .zero => 0xF8
  | .one => 0xF9
  | .half => 0xFA
  | .two => 0xFB
  | .negOne => 0xFC
  | .lane => 0xFD
  | .ones => 0xFE

/-- The operand of an 8-bit code; none for 0xFF (R62). -/
def opdOf (x : Nat) : Option Opd :=
  if x < 192 then some (.v (Fin.ofNat 192 x))
  else if x < 0xC0 + 48 then some (.s (Fin.ofNat 48 (x - 0xC0)))
  else if x < 0xF8 then some (.k (Fin.ofNat 8 (x - 0xF0)))
  else if x = 0xF8 then some .zero
  else if x = 0xF9 then some .one
  else if x = 0xFA then some .half
  else if x = 0xFB then some .two
  else if x = 0xFC then some .negOne
  else if x = 0xFD then some .lane
  else if x = 0xFE then some .ones
  else none

/-- The code of a type (R64). -/
def tyCode (t : Ty) : Nat :=
  match t with
  | .b32 => 0
  | .s32 => 1
  | .z32 => 2
  | .f32 => 3
  | .f16 => 4
  | .bf16 => 5
  | .s64 => 6
  | .z64 => 7
  | .b64 => 8
  | .f16x2 => 9
  | .bf16x2 => 10
  | .s16x2 => 11
  | .z16x2 => 12
  | .s8x4 => 13
  | .z8x4 => 14

/-- The type of a code; none for 15 (R64). -/
def tyOf (x : Nat) : Option Ty :=
  match x with
  | 0 => some .b32
  | 1 => some .s32
  | 2 => some .z32
  | 3 => some .f32
  | 4 => some .f16
  | 5 => some .bf16
  | 6 => some .s64
  | 7 => some .z64
  | 8 => some .b64
  | 9 => some .f16x2
  | 10 => some .bf16x2
  | 11 => some .s16x2
  | 12 => some .z16x2
  | 13 => some .s8x4
  | 14 => some .z8x4
  | _ => none

/-- The code of a scope (R71). -/
def scopeCode (s : Scope) : Nat :=
  match s with
  | .grp => 0
  | .team => 1
  | .stk => 2
  | .dev => 3
  | .fab => 4
  | .sys => 5

/-- The scope of a code; none for 6 and 7 (R71). -/
def scopeOf (x : Nat) : Option Scope :=
  match x with
  | 0 => some .grp
  | 1 => some .team
  | 2 => some .stk
  | 3 => some .dev
  | 4 => some .fab
  | 5 => some .sys
  | _ => none

/-- The code of an order (R71). -/
def orderCode (o : Order) : Nat :=
  match o with
  | .rlx => 0
  | .acq => 1
  | .rel => 2
  | .ar => 3

/-- The order of a 2-bit code (R71). -/
def orderOf (x : Nat) : Order :=
  match x % 4 with
  | 0 => .rlx
  | 1 => .acq
  | 2 => .rel
  | _ => .ar

/-! ## Fields to forms -/

/-- SW, PK and PN (R67). -/
def guardOf (w : Nat) : Guard := { sw := fld w 63 1 == 1, pk := BitVec.ofNat 3 (fld w 52 3), pn := fld w 51 1 == 1 }

/-- Format R (R69). -/
def formR (w : Nat) : Except DecodeError FormR :=
  match opdOf (fld w 43 8), opdOf (fld w 35 8), opdOf (fld w 27 8), opdOf (fld w 19 8), tyOf (fld w 15 4) with
  | some d, some a, some b, some c, some t =>
    .ok { gd := guardOf w, d := d, a := a, b := b, c := c, ty := t, mod := BitVec.ofNat 3 (fld w 12 3),
          lu := BitVec.ofNat 3 (fld w 9 3), sn := fld w 8 1 == 1, ext := BitVec.ofNat 8 (fld w 0 8) }
  | some _, some _, some _, some _, none => .error .typeCode
  | _, _, _, _, _ => .error .operandCode

/-- Format I (R70). -/
def formI (w : Nat) : Except DecodeError FormI :=
  match opdOf (fld w 43 8), tyOf (fld w 39 4) with
  | some d, some t =>
    .ok { gd := guardOf w, d := d, ty := t, mod := BitVec.ofNat 3 (fld w 36 3), sn := fld w 35 1 == 1,
          rsv := BitVec.ofNat 3 (fld w 32 3), imm := BitVec.ofNat 32 (fld w 0 32) }
  | some _, none => .error .typeCode
  | none, _ => .error .operandCode

/-- Format M (R71). -/
def formM (w : Nat) : Except DecodeError FormM :=
  match opdOf (fld w 43 8), opdOf (fld w 35 8), opdOf (fld w 27 8), scopeOf (fld w 24 3) with
  | some d, some a, some b, some s =>
    .ok { gd := guardOf w, d := d, a := a, b := b, scope := s, order := orderOf (fld w 22 2),
          size := BitVec.ofNat 3 (fld w 19 3), sub := BitVec.ofNat 4 (fld w 15 4), lu := BitVec.ofNat 2 (fld w 13 2),
          sn := fld w 12 1 == 1, off := BitVec.ofNat 12 (fld w 0 12) }
  | some _, some _, some _, none => .error .scopeCode
  | _, _, _, _ => .error .operandCode

/-- Format J (R72). -/
def formJ (w : Nat) : FormJ :=
  { gd := guardOf w, off := BitVec.ofNat 32 (fld w 19 32), hint := BitVec.ofNat 2 (fld w 17 2),
    ck := BitVec.ofNat 3 (fld w 14 3), cn := fld w 13 1 == 1, opd := BitVec.ofNat 8 (fld w 5 8),
    rsv := BitVec.ofNat 5 (fld w 0 5) }

/-- Format Q (R73). -/
def formQ (w : Nat) : Except DecodeError FormQ :=
  match opdOf (fld w 43 8), opdOf (fld w 35 8), opdOf (fld w 27 8), scopeOf (fld w 19 3) with
  | some d, some a, some b, some s =>
    .ok { gd := guardOf w, d := d, a := a, b := b, fmt := BitVec.ofNat 5 (fld w 22 5), scope := s,
          sub := BitVec.ofNat 8 (fld w 11 8), lu := BitVec.ofNat 2 (fld w 9 2), sn := fld w 8 1 == 1,
          ext := BitVec.ofNat 8 (fld w 0 8) }
  | some _, some _, some _, none => .error .scopeCode
  | _, _, _, _ => .error .operandCode

/-! ## The opcode map (R75) -/

/-- The instructions of format R. -/
def instrR (op : Nat) (f : FormR) : Option Instr :=
  match op with
  | 0x00 => some (.nop f)
  | 0x01 => some (.mov f)
  | 0x04 => some (.sel f)
  | 0x05 => some (.iadd f)
  | 0x06 => some (.isub f)
  | 0x07 => some (.iaddc f)
  | 0x08 => some (.isubb f)
  | 0x09 => some (.ineg f)
  | 0x0A => some (.iabs f)
  | 0x0B => some (.imin f)
  | 0x0C => some (.imax f)
  | 0x0D => some (.imul f)
  | 0x0E => some (.imulh f)
  | 0x0F => some (.imad f)
  | 0x10 => some (.imadw f)
  | 0x11 => some (.idiv f)
  | 0x12 => some (.irem f)
  | 0x13 => some (.icmp f)
  | 0x14 => some (.and f)
  | 0x15 => some (.or f)
  | 0x16 => some (.xor f)
  | 0x17 => some (.not f)
  | 0x18 => some (.andn f)
  | 0x19 => some (.shl f)
  | 0x1A => some (.shr f)
  | 0x1B => some (.sar f)
  | 0x1C => some (.rot f)
  | 0x1D => some (.funnel f)
  | 0x1E => some (.bfe f)
  | 0x1F => some (.bfi f)
  | 0x20 => some (.popc f)
  | 0x21 => some (.clz f)
  | 0x22 => some (.ctz f)
  | 0x23 => some (.brev f)
  | 0x24 => some (.bperm f)
  | 0x25 => some (.lea f)
  | 0x26 => some (.ptrmk f)
  | 0x27 => some (.ptradd f)
  | 0x28 => some (.ptrget f)
  | 0x29 => some (.lshuf f)
  | 0x2A => some (.lbcast f)
  | 0x2B => some (.lvote f)
  | 0x2C => some (.lscan f)
  | 0x2D => some (.lreduce f)
  | 0x2E => some (.kop f)
  | 0x2F => some (.kmov f)
  | 0x30 => some (.fadd f)
  | 0x31 => some (.fsub f)
  | 0x32 => some (.fmul f)
  | 0x33 => some (.ffma f)
  | 0x34 => some (.fmin f)
  | 0x35 => some (.fmax f)
  | 0x36 => some (.fminnum f)
  | 0x37 => some (.fmaxnum f)
  | 0x38 => some (.fcmp f)
  | 0x39 => some (.fclass f)
  | 0x3A => some (.frnd f)
  | 0x3B => some (.ffrac f)
  | 0x3C => some (.fscale f)
  | 0x3D => some (.fgetexp f)
  | 0x3E => some (.frcp f)
  | 0x3F => some (.frsq f)
  | 0x40 => some (.fsqrt f)
  | 0x41 => some (.fdiv f)
  | 0x42 => some (.fexp2 f)
  | 0x43 => some (.flog2 f)
  | 0x44 => some (.fsin f)
  | 0x45 => some (.fcos f)
  | 0x46 => some (.ftanh f)
  | 0x47 => some (.fsigm f)
  | 0x48 => some (.cvtf f)
  | 0x49 => some (.cvti f)
  | 0x4A => some (.cvtfi f)
  | 0x4B => some (.fpack f)
  | 0x4C => some (.funpack f)
  | 0x4D => some (.qnt f)
  | 0x4E => some (.dqnt f)
  | 0x4F => some (.fdot2 f)
  | 0x50 => some (.fdot4 f)
  | 0x51 => some (.fdot8 f)
  | 0x68 => some (.pgrow f)
  | 0x69 => some (.pshrink f)
  | 0x6A => some (.fgrow f)
  | 0x6B => some (.fshrink f)
  | 0x6C => some (.ocfill f)
  | 0x6D => some (.ocdrop f)
  | 0x6E => some (.ocsync f)
  | 0x74 => some (.objq f)
  | 0x75 => some (.ptrchk f)
  | 0x82 => some (.brx f)
  | 0x84 => some (.callx f)
  | 0x85 => some (.ret f)
  | 0x88 => some (.fend f)
  | 0x89 => some (.fyield f)
  | 0x8A => some (.exit f)
  | 0x8B => some (.sleep f)
  | 0x8C => some (.gets f)
  | 0x8D => some (.sets f)
  | 0x90 => some (.trap f)
  | 0x91 => some (.tret f)
  | 0x92 => some (.tmask f)
  | 0x93 => some (.tinfo f)
  | 0x94 => some (.tsub f)
  | 0x95 => some (.ctxsave f)
  | 0x96 => some (.ctxload f)
  | 0x97 => some (.halt f)
  | 0x98 => some (.preq f)
  | 0xA7 => some (.pause f)
  | 0xA8 => some (.tbar f)
  | 0xA9 => some (.sbar f)
  | 0xAA => some (.gbar f)
  | 0xD8 => some (.pwrq f)
  | 0xD9 => some (.pwrarm f)
  | 0xDA => some (.veerhold f)
  | 0xE0 => some (.tclaim f)
  | 0xE1 => some (.tplace f)
  | 0xE2 => some (.gdec f)
  | 0xE3 => some (.qtake f)
  | 0xE4 => some (.qack f)
  | _ => none

/-- The instructions of format I. -/
def instrI (op : Nat) (f : FormI) : Option Instr :=
  match op with
  | 0x02 => some (.movi f)
  | 0x03 => some (.movh f)
  | _ => none

/-- The instructions of format M. -/
def instrM (op : Nat) (f : FormM) : Option Instr :=
  match op with
  | 0x60 => some (.ld f)
  | 0x61 => some (.st f)
  | 0x62 => some (.ldnp f)
  | 0x63 => some (.ldb f)
  | 0x64 => some (.atom f)
  | 0x65 => some (.acas f)
  | 0x66 => some (.red f)
  | 0x67 => some (.fence f)
  | 0x6F => some (.lpin f)
  | 0x70 => some (.lunpin f)
  | 0x71 => some (.linv f)
  | 0x72 => some (.lwb f)
  | 0x73 => some (.pres f)
  | 0x76 => some (.advise f)
  | 0xA0 => some (.binit f)
  | 0xA1 => some (.barv f)
  | 0xA2 => some (.bexp f)
  | 0xA3 => some (.bwait f)
  | 0xA5 => some (.await f)
  | 0xA6 => some (.watch f)
  | 0xC8 => some (.jst f)
  | 0xC9 => some (.jld f)
  | 0xCA => some (.jldn f)
  | 0xCB => some (.jadd f)
  | 0xD1 => some (.xfence f)
  | _ => none

/-- The instructions of format J. -/
def instrJ (op : Nat) (f : FormJ) : Option Instr :=
  match op with
  | 0x80 => some (.bra f)
  | 0x81 => some (.brc f)
  | 0x83 => some (.call f)
  | 0x86 => some (.loop f)
  | 0x87 => some (.fspawn f)
  | 0xA4 => some (.bcont f)
  | _ => none

/-- The instructions of format Q. -/
def instrQ (op : Nat) (f : FormQ) : Option Instr :=
  match op with
  | 0xB0 => some (.cpy f)
  | 0xB1 => some (.gath f)
  | 0xB2 => some (.scat f)
  | 0xB3 => some (.cfill f)
  | 0xB8 => some (.orsv f)
  | 0xB9 => some (.orel f)
  | 0xBA => some (.oqry f)
  | 0xBB => some (.mma f)
  | 0xBC => some (.azero f)
  | 0xBD => some (.amov f)
  | 0xBE => some (.ains f)
  | 0xBF => some (.adrain f)
  | 0xCC => some (.jtrade f)
  | 0xCD => some (.jqry f)
  | 0xD0 => some (.coll f)
  | 0xD2 => some (.xqry f)
  | _ => none

/-- The five formats (R68-R73). -/
inductive Format where
  | r | i | m | j | q
  deriving DecidableEq, Repr

/-- The format of an opcode; none for the reserved ones (R75, R76). -/
def formatOf (op : Nat) : Option Format :=
  match op with
  | 0x02 | 0x03 => some .i
  | 0x60 | 0x61 | 0x62 | 0x63 | 0x64 | 0x65 | 0x66 | 0x67 | 0x6F | 0x70 | 0x71 | 0x72 | 0x73 | 0x76 | 0xA0 | 0xA1 | 0xA2 | 0xA3 | 0xA5 | 0xA6 | 0xC8 | 0xC9 | 0xCA | 0xCB | 0xD1 => some .m
  | 0x80 | 0x81 | 0x83 | 0x86 | 0x87 | 0xA4 => some .j
  | 0xB0 | 0xB1 | 0xB2 | 0xB3 | 0xB8 | 0xB9 | 0xBA | 0xBB | 0xBC | 0xBD | 0xBE | 0xBF | 0xCC | 0xCD | 0xD0 | 0xD2 => some .q
  | 0x00 | 0x01 | 0x04 | 0x05 | 0x06 | 0x07 | 0x08 | 0x09 | 0x0A | 0x0B | 0x0C | 0x0D | 0x0E | 0x0F | 0x10 | 0x11 => some .r
  | 0x12 | 0x13 | 0x14 | 0x15 | 0x16 | 0x17 | 0x18 | 0x19 | 0x1A | 0x1B | 0x1C | 0x1D | 0x1E | 0x1F | 0x20 | 0x21 => some .r
  | 0x22 | 0x23 | 0x24 | 0x25 | 0x26 | 0x27 | 0x28 | 0x29 | 0x2A | 0x2B | 0x2C | 0x2D | 0x2E | 0x2F | 0x30 | 0x31 => some .r
  | 0x32 | 0x33 | 0x34 | 0x35 | 0x36 | 0x37 | 0x38 | 0x39 | 0x3A | 0x3B | 0x3C | 0x3D | 0x3E | 0x3F | 0x40 | 0x41 => some .r
  | 0x42 | 0x43 | 0x44 | 0x45 | 0x46 | 0x47 | 0x48 | 0x49 | 0x4A | 0x4B | 0x4C | 0x4D | 0x4E | 0x4F | 0x50 | 0x51 => some .r
  | 0x68 | 0x69 | 0x6A | 0x6B | 0x6C | 0x6D | 0x6E | 0x74 | 0x75 | 0x82 | 0x84 | 0x85 | 0x88 | 0x89 | 0x8A | 0x8B => some .r
  | 0x8C | 0x8D | 0x90 | 0x91 | 0x92 | 0x93 | 0x94 | 0x95 | 0x96 | 0x97 | 0x98 | 0xA7 | 0xA8 | 0xA9 | 0xAA | 0xD8 => some .r
  | 0xD9 | 0xDA | 0xE0 | 0xE1 | 0xE2 | 0xE3 | 0xE4 => some .r
  | _ => none

/-- The opcode field (R67). -/
def opField (w : Nat) : Nat := fld w 55 8

/-- A legal instruction, or the field error. -/
def checked (i : Option Instr) : Except DecodeError Instr :=
  match i with
  | none => .error .reservedOpcode
  | some i => if legal i then .ok i else .error .illegalField

/-- The instruction of a word whose bits are w (R53 checks 1 and 4). -/
def decodeNat (w : Nat) : Except DecodeError Instr :=
  if fld w 58 6 = 63 then .error .headerTag
  else match formatOf (opField w) with
    | none => .error .reservedOpcode
    | some .r => match formR w with
      | .error e => .error e
      | .ok f => checked (instrR (opField w) f)
    | some .i => match formI w with
      | .error e => .error e
      | .ok f => checked (instrI (opField w) f)
    | some .m => match formM w with
      | .error e => .error e
      | .ok f => checked (instrM (opField w) f)
    | some .j => checked (instrJ (opField w) (formJ w))
    | some .q => match formQ w with
      | .error e => .error e
      | .ok f => checked (instrQ (opField w) f)

/-- The instruction of a 64-bit word. -/
def decode (w : W64) : Except DecodeError Instr := decodeNat w.toNat

/-- The instruction the decoder reads from the eight bytes of a word, lowest address first (R2, R42). -/
def decodeBytes (bs : List Byte) : Except DecodeError Instr := decodeNat (leValue (bs.take 8))

/-- The instruction of a table word: one 64-bit little-endian word (R42); a shorter word has zero bits above. -/
def decodeTableWord (nbits w : Nat) : Option Instr :=
  if 64 < nbits then none
  else match decodeBytes (leBytes 8 (w % 2 ^ nbits)) with
    | .ok i => some i
    | .error _ => none

/-! ## Classes (R46-R50) -/

/-- The clause class of an opcode: compute 0, pool 1, control 2, wait 3, command 4, system 5; 6 above (R46). -/
def classOfOp (op : Nat) : Nat :=
  if op ≤ 0x5F then 0 else if op ≤ 0x7F then 1 else if op ≤ 0x9F then 2 else if op ≤ 0xAF then 3
  else if op ≤ 0xD7 then 4 else if op ≤ 0xDF then 2 else if op ≤ 0xEF then 5 else 6

/-- The clause-ending opcodes (R48): BRA, BRC, BRX, CALL, CALLX, RET, LOOP, FEND, FYIELD, EXIT, SLEEP, TRAP, TRET. -/
def clauseEnding (op : Nat) : Bool :=
  match op with
  | 0x80 | 0x81 | 0x82 | 0x83 | 0x84 | 0x85 | 0x86 | 0x88 | 0x89 | 0x8A | 0x8B | 0x90 | 0x91 => true
  | _ => false

/-- The privileged control opcodes (R50): CTXSAVE, CTXLOAD, HALT, PREQ. -/
def privileged (op : Nat) : Bool :=
  match op with
  | 0x95 | 0x96 | 0x97 | 0x98 => true
  | _ => false

/-- A clause header's fields (R45). -/
structure Header where
  cls : Nat
  cnt : Nat
  wait : BitVec 8
  u : Bool
  rsv : Nat
  deriving DecidableEq, Repr

/-- A word read as a header; none where TAG is not all ones (R45, R49). -/
def headerOf (w : Nat) : Option Header :=
  if fld w 58 6 = 63 then
    some { cls := fld w 55 3, cnt := fld w 51 4 + 1, wait := BitVec.ofNat 8 (fld w 43 8), u := fld w 42 1 == 1, rsv := fld w 0 42 }
  else none

/-! ## The encoder -/

/-- SW, PK and PN in place, with the opcode (R67). -/
def encGuard (op : Nat) (g : Guard) : Nat :=
  b2n g.sw * 2 ^ 63 + op * 2 ^ 55 + g.pk.toNat * 2 ^ 52 + b2n g.pn * 2 ^ 51

/-- Format R (R69). -/
def encR (op : Nat) (f : FormR) : Nat :=
  encGuard op f.gd + opdCode f.d * 2 ^ 43 + opdCode f.a * 2 ^ 35 + opdCode f.b * 2 ^ 27 + opdCode f.c * 2 ^ 19 +
    tyCode f.ty * 2 ^ 15 + f.mod.toNat * 2 ^ 12 + f.lu.toNat * 2 ^ 9 + b2n f.sn * 2 ^ 8 + f.ext.toNat

/-- Format I (R70). -/
def encI (op : Nat) (f : FormI) : Nat :=
  encGuard op f.gd + opdCode f.d * 2 ^ 43 + tyCode f.ty * 2 ^ 39 + f.mod.toNat * 2 ^ 36 + b2n f.sn * 2 ^ 35 +
    f.rsv.toNat * 2 ^ 32 + f.imm.toNat

/-- Format M (R71). -/
def encM (op : Nat) (f : FormM) : Nat :=
  encGuard op f.gd + opdCode f.d * 2 ^ 43 + opdCode f.a * 2 ^ 35 + opdCode f.b * 2 ^ 27 + scopeCode f.scope * 2 ^ 24 +
    orderCode f.order * 2 ^ 22 + f.size.toNat * 2 ^ 19 + f.sub.toNat * 2 ^ 15 + f.lu.toNat * 2 ^ 13 + b2n f.sn * 2 ^ 12 +
    f.off.toNat

/-- Format J (R72). -/
def encJ (op : Nat) (f : FormJ) : Nat :=
  encGuard op f.gd + f.off.toNat * 2 ^ 19 + f.hint.toNat * 2 ^ 17 + f.ck.toNat * 2 ^ 14 + b2n f.cn * 2 ^ 13 +
    f.opd.toNat * 2 ^ 5 + f.rsv.toNat

/-- Format Q (R73). -/
def encQ (op : Nat) (f : FormQ) : Nat :=
  encGuard op f.gd + opdCode f.d * 2 ^ 43 + opdCode f.a * 2 ^ 35 + opdCode f.b * 2 ^ 27 + f.fmt.toNat * 2 ^ 22 +
    scopeCode f.scope * 2 ^ 19 + f.sub.toNat * 2 ^ 11 + f.lu.toNat * 2 ^ 9 + b2n f.sn * 2 ^ 8 + f.ext.toNat

/-- The word of an instruction; the part's own steps have none. -/
def encodeNat (i : Instr) : Option Nat :=
  match i with
  | .nop f => some (encR 0x00 f)
  | .mov f => some (encR 0x01 f)
  | .movi f => some (encI 0x02 f)
  | .movh f => some (encI 0x03 f)
  | .sel f => some (encR 0x04 f)
  | .iadd f => some (encR 0x05 f)
  | .isub f => some (encR 0x06 f)
  | .iaddc f => some (encR 0x07 f)
  | .isubb f => some (encR 0x08 f)
  | .ineg f => some (encR 0x09 f)
  | .iabs f => some (encR 0x0A f)
  | .imin f => some (encR 0x0B f)
  | .imax f => some (encR 0x0C f)
  | .imul f => some (encR 0x0D f)
  | .imulh f => some (encR 0x0E f)
  | .imad f => some (encR 0x0F f)
  | .imadw f => some (encR 0x10 f)
  | .idiv f => some (encR 0x11 f)
  | .irem f => some (encR 0x12 f)
  | .icmp f => some (encR 0x13 f)
  | .and f => some (encR 0x14 f)
  | .or f => some (encR 0x15 f)
  | .xor f => some (encR 0x16 f)
  | .not f => some (encR 0x17 f)
  | .andn f => some (encR 0x18 f)
  | .shl f => some (encR 0x19 f)
  | .shr f => some (encR 0x1A f)
  | .sar f => some (encR 0x1B f)
  | .rot f => some (encR 0x1C f)
  | .funnel f => some (encR 0x1D f)
  | .bfe f => some (encR 0x1E f)
  | .bfi f => some (encR 0x1F f)
  | .popc f => some (encR 0x20 f)
  | .clz f => some (encR 0x21 f)
  | .ctz f => some (encR 0x22 f)
  | .brev f => some (encR 0x23 f)
  | .bperm f => some (encR 0x24 f)
  | .lea f => some (encR 0x25 f)
  | .ptrmk f => some (encR 0x26 f)
  | .ptradd f => some (encR 0x27 f)
  | .ptrget f => some (encR 0x28 f)
  | .lshuf f => some (encR 0x29 f)
  | .lbcast f => some (encR 0x2A f)
  | .lvote f => some (encR 0x2B f)
  | .lscan f => some (encR 0x2C f)
  | .lreduce f => some (encR 0x2D f)
  | .kop f => some (encR 0x2E f)
  | .kmov f => some (encR 0x2F f)
  | .fadd f => some (encR 0x30 f)
  | .fsub f => some (encR 0x31 f)
  | .fmul f => some (encR 0x32 f)
  | .ffma f => some (encR 0x33 f)
  | .fmin f => some (encR 0x34 f)
  | .fmax f => some (encR 0x35 f)
  | .fminnum f => some (encR 0x36 f)
  | .fmaxnum f => some (encR 0x37 f)
  | .fcmp f => some (encR 0x38 f)
  | .fclass f => some (encR 0x39 f)
  | .frnd f => some (encR 0x3A f)
  | .ffrac f => some (encR 0x3B f)
  | .fscale f => some (encR 0x3C f)
  | .fgetexp f => some (encR 0x3D f)
  | .frcp f => some (encR 0x3E f)
  | .frsq f => some (encR 0x3F f)
  | .fsqrt f => some (encR 0x40 f)
  | .fdiv f => some (encR 0x41 f)
  | .fexp2 f => some (encR 0x42 f)
  | .flog2 f => some (encR 0x43 f)
  | .fsin f => some (encR 0x44 f)
  | .fcos f => some (encR 0x45 f)
  | .ftanh f => some (encR 0x46 f)
  | .fsigm f => some (encR 0x47 f)
  | .cvtf f => some (encR 0x48 f)
  | .cvti f => some (encR 0x49 f)
  | .cvtfi f => some (encR 0x4A f)
  | .fpack f => some (encR 0x4B f)
  | .funpack f => some (encR 0x4C f)
  | .qnt f => some (encR 0x4D f)
  | .dqnt f => some (encR 0x4E f)
  | .fdot2 f => some (encR 0x4F f)
  | .fdot4 f => some (encR 0x50 f)
  | .fdot8 f => some (encR 0x51 f)
  | .ld f => some (encM 0x60 f)
  | .st f => some (encM 0x61 f)
  | .ldnp f => some (encM 0x62 f)
  | .ldb f => some (encM 0x63 f)
  | .atom f => some (encM 0x64 f)
  | .acas f => some (encM 0x65 f)
  | .red f => some (encM 0x66 f)
  | .fence f => some (encM 0x67 f)
  | .pgrow f => some (encR 0x68 f)
  | .pshrink f => some (encR 0x69 f)
  | .fgrow f => some (encR 0x6A f)
  | .fshrink f => some (encR 0x6B f)
  | .ocfill f => some (encR 0x6C f)
  | .ocdrop f => some (encR 0x6D f)
  | .ocsync f => some (encR 0x6E f)
  | .lpin f => some (encM 0x6F f)
  | .lunpin f => some (encM 0x70 f)
  | .linv f => some (encM 0x71 f)
  | .lwb f => some (encM 0x72 f)
  | .pres f => some (encM 0x73 f)
  | .objq f => some (encR 0x74 f)
  | .ptrchk f => some (encR 0x75 f)
  | .advise f => some (encM 0x76 f)
  | .bra f => some (encJ 0x80 f)
  | .brc f => some (encJ 0x81 f)
  | .brx f => some (encR 0x82 f)
  | .call f => some (encJ 0x83 f)
  | .callx f => some (encR 0x84 f)
  | .ret f => some (encR 0x85 f)
  | .loop f => some (encJ 0x86 f)
  | .fspawn f => some (encJ 0x87 f)
  | .fend f => some (encR 0x88 f)
  | .fyield f => some (encR 0x89 f)
  | .exit f => some (encR 0x8A f)
  | .sleep f => some (encR 0x8B f)
  | .gets f => some (encR 0x8C f)
  | .sets f => some (encR 0x8D f)
  | .trap f => some (encR 0x90 f)
  | .tret f => some (encR 0x91 f)
  | .tmask f => some (encR 0x92 f)
  | .tinfo f => some (encR 0x93 f)
  | .tsub f => some (encR 0x94 f)
  | .ctxsave f => some (encR 0x95 f)
  | .ctxload f => some (encR 0x96 f)
  | .halt f => some (encR 0x97 f)
  | .preq f => some (encR 0x98 f)
  | .binit f => some (encM 0xA0 f)
  | .barv f => some (encM 0xA1 f)
  | .bexp f => some (encM 0xA2 f)
  | .bwait f => some (encM 0xA3 f)
  | .bcont f => some (encJ 0xA4 f)
  | .await f => some (encM 0xA5 f)
  | .watch f => some (encM 0xA6 f)
  | .pause f => some (encR 0xA7 f)
  | .tbar f => some (encR 0xA8 f)
  | .sbar f => some (encR 0xA9 f)
  | .gbar f => some (encR 0xAA f)
  | .cpy f => some (encQ 0xB0 f)
  | .gath f => some (encQ 0xB1 f)
  | .scat f => some (encQ 0xB2 f)
  | .cfill f => some (encQ 0xB3 f)
  | .orsv f => some (encQ 0xB8 f)
  | .orel f => some (encQ 0xB9 f)
  | .oqry f => some (encQ 0xBA f)
  | .mma f => some (encQ 0xBB f)
  | .azero f => some (encQ 0xBC f)
  | .amov f => some (encQ 0xBD f)
  | .ains f => some (encQ 0xBE f)
  | .adrain f => some (encQ 0xBF f)
  | .jst f => some (encM 0xC8 f)
  | .jld f => some (encM 0xC9 f)
  | .jldn f => some (encM 0xCA f)
  | .jadd f => some (encM 0xCB f)
  | .jtrade f => some (encQ 0xCC f)
  | .jqry f => some (encQ 0xCD f)
  | .coll f => some (encQ 0xD0 f)
  | .xfence f => some (encM 0xD1 f)
  | .xqry f => some (encQ 0xD2 f)
  | .pwrq f => some (encR 0xD8 f)
  | .pwrarm f => some (encR 0xD9 f)
  | .veerhold f => some (encR 0xDA f)
  | .tclaim f => some (encR 0xE0 f)
  | .tplace f => some (encR 0xE1 f)
  | .gdec f => some (encR 0xE2 f)
  | .qtake f => some (encR 0xE3 f)
  | .qack f => some (encR 0xE4 f)
  | .clauseStart _ _ => none
  | .clauseBoundary _ => none
  | .sliceIssue _ _ => none
  | .groupUrgent _ => none
  | .fixedLatencyLanding _ => none
  | .switchPoint _ => none
  | .entrySetAcquire _ => none
  | .operandCacheFillDone _ => none
  | .ocdropComplete _ => none
  | .ocsyncComplete _ => none
  | .poolLoadReturn _ _ => none
  | .storePerformed _ _ => none
  | .atomicPerformed _ _ => none
  | .parkedLoadWake _ => none
  | .fenceDrainDone _ => none
  | .objectCacheFill _ _ => none
  | .lpinFillDone _ _ => none
  | .allocatorAnswer _ => none
  | .stallGrowRetry _ => none
  | .stallGrowTimeout _ => none
  | .shrinkAfterCopies _ => none
  | .sleepWake _ => none
  | .groupLeaveSlot _ => none
  | .teamEnd _ => none
  | .trapDelivery _ => none
  | .switchPointTrap _ => none
  | .throttleTrap _ => none
  | .haltRequest _ => none
  | .groupHalted _ => none
  | .gridKill _ => none
  | .killComplete _ => none
  | .barrierUpdate _ => none
  | .phaseWaiterWake _ => none
  | .continuationFire _ => none
  | .waitPoll _ => none
  | .pauseWake _ => none
  | .pauseTimeout _ => none
  | .barrierInstanceComplete _ _ _ => none
  | .gustWaveRelease _ => none
  | .streamerRequestActive _ => none
  | .streamerLineRead _ => none
  | .streamerLineLand _ _ => none
  | .streamerCredit _ => none
  | .gcountCredit _ => none
  | .requestComplete _ => none
  | .bulkHandoff _ => none
  | .bulkCreditArrival _ => none
  | .copyPageResume _ => none
  | .copyAbort _ => none
  | .mmaStep _ => none
  | .mmaResults _ => none
  | .matrixCommandBegin _ => none
  | .matrixCommandFinish _ => none
  | .drainRow _ => none
  | .drainLinePerformed _ _ => none
  | .drainComplete _ => none
  | .drainPageResume _ => none
  | .drainAbort _ => none
  | .matrixStepReexecute _ => none
  | .reservationFreed _ _ => none
  | .latticeLanePerformed _ => none
  | .latticeReply _ => none
  | .thresholdReached _ => none
  | .thresholdPoll _ => none
  | .cellCacheFill _ _ _ _ => none
  | .regionCacheFill _ _ => none
  | .tradeInstant _ _ => none
  | .tradePacketApply _ => none
  | .tradeAck _ => none
  | .starHubSend _ _ => none
  | .jtradeComplete _ => none
  | .peerAccessReply _ _ _ _ => none
  | .fabricPortAccept _ => none
  | .peerWriteAck _ _ => none
  | .multicastApply _ => none
  | .inboundFabricAccess _ => none
  | .xfenceDone _ => none
  | .collectiveComplete _ _ => none
  | .collectiveTimeout _ => none
  | .peerResetLearned _ _ _ => none
  | .ringPacketAdmit _ => none
  | .ringAdmissionStarved _ _ => none
  | .ringPacketDelivery _ => none
  | .dieReset _ => none
  | .incarnationTableLoad _ => none
  | .incarnationAnnounce _ => none
  | .targetResetCompletion _ _ => none
  | .baseDieBError => none
  | .baseDieAError => none
  | .modulePowerOn => none
  | .linkRetrain _ => none
  | .inboundPostedWrite _ => none
  | .inboundRead _ => none
  | .inboundAtomicop _ => none
  | .inboundLineAck _ _ => none
  | .hostMemoryRequest _ _ => none
  | .hostCompletion _ _ _ _ => none
  | .systemReleaseFlush _ => none
  | .pageRequest _ _ _ => none
  | .prqptrHeadWrite _ _ => none
  | .pageAnswerZero _ => none
  | .pageAnswerCopy _ => none
  | .pageAnswerMap _ => none
  | .pageAnswerFail _ => none
  | .hreqQuery _ _ => none
  | .hreqPin _ _ => none
  | .hreqUnpin _ _ => none
  | .hreqTohost _ _ _ => none
  | .hreqTodev _ _ => none
  | .hreqDrop _ _ => none
  | .otinvWrite _ _ => none
  | .otinvComplete _ => none
  | .partitionEnable _ _ _ => none
  | .partitionTeardown _ => none
  | .teardownComplete _ => none
  | .epochEnd _ => none
  | .pageMoveStep _ _ => none
  | .functionLevelReset _ => none
  | .mctpMessage _ => none
  | .qinSubmission _ _ _ => none
  | .qcfgEnable _ _ _ => none
  | .qstatusClear _ _ _ => none
  | .cmdNop _ _ => none
  | .cmdBegin _ _ => none
  | .cmdCommit _ _ => none
  | .cmdGraph _ _ => none
  | .cmdRcreate _ _ => none
  | .cmdRdestroy _ _ => none
  | .cmdFence _ _ => none
  | .gridStart _ _ => none
  | .gridComplete _ => none
  | .runComplete _ => none
  | .firmwareRestart => none
  | .watchdogPreempt _ => none
  | .watchdogKill _ => none
  | .watchdogFence _ => none
  | .haltIdleWake _ => none
  | .controlInterval _ => none
  | .fcapWrite _ => none
  | .currentRatingReached _ => none
  | .ratioChange _ => none
  | .squall _ => none
  | .clauseReexecute _ => none
  | .veerInstant _ _ => none
  | .veerStart _ => none
  | .veerPauseEnd _ => none
  | .registerWrite _ _ _ => none
  | .squallStretchEnd _ => none
  | .firmwareRestartEnd => none
  | .matrixQueryComplete _ => none
  | .latticeQueryComplete _ => none
  | .fabricQueryComplete _ => none
  | .qtakeQackComplete _ => none

/-- The 64-bit word of an instruction (R42). -/
def encode (i : Instr) : Option W64 := (encodeNat i).map (BitVec.ofNat 64)

/-- The opcode of an instruction (R75). -/
def opcodeOf (i : Instr) : Option Nat := (encodeNat i).map opField

end Sys2Proof
end

