-- ==== Sys2Proof/Machine/State.lean ====
section
/-! DEFINITION. Sys2Proof/Machine/State.lean: every piece of state the manual gives the KB-816, as plain data, and the state after reset. Each field's docstring names its rule; INVENTORY.md lists them with widths and reset values. -/

namespace Sys2Proof.Machine

/-- Why the machine stops. -/
inductive Fault where
  /-- Raised by exec when it is asked to run an instruction while no group is issuing inside a clause; step never raises it (DESIGN CHOICE, log 3). Safe: no rule gives such a case a meaning, and nothing is claimed of it. -/
  | noIssuingGroup
  deriving DecidableEq, Repr

/-- Why an instruction has no meaning. -/
inductive Refusal where
  /-- Raised only by an arm of exec for an instruction not yet given its meaning. Safe: the machine stops. -/
  | notModelled (mnemonic : String)
  deriving DecidableEq, Repr

/-! ## Memory -/

/-- Bytes of every byte-addressed space in one canonical list: keys strictly rising, no entry 0 (DESIGN CHOICE, log 9). -/
abbrev Memory := List Host.Cell

/-- Where a byte-addressed access goes (R116, R120). -/
inductive Loc where
  /-- A byte of a pool, operand buffer or accumulator, by its key. -/
  | pool (key : Nat)
  /-- A unified address of a partition, which G and H pointers reach (R428, R429). -/
  | uni (part : Nat) (ua : Nat)
  /-- A lattice offset of the issuing stack's replica. -/
  | lat (part region off : Nat)
  /-- A byte of an object of a peer. -/
  | peer (member obj off : Nat)
  /-- A byte of an object on every member of a multicast group. -/
  | mcast (group obj off : Nat)
  deriving DecidableEq, Repr

/-! ## Groups -/

/-- The clause in progress: its header offset, class, instruction count, next index, U bit, and whether it is a remainder after a trap (R45, R286). -/
structure Clause where
  h : Nat
  cls : Nat
  cnt : Nat
  idx : Nat
  u : Bool
  deriving DecidableEq, Repr

/-- A fibre (R251); hnd marks a handler fibre (R284); rem holds the clause that a fibre resumed by TRET finishes first (R286). -/
structure Fibre where
  pc : Nat
  pred : Mask
  wbase : Nat
  waitc : Nat
  wake : Option Nat
  hnd : Bool
  rem : Option Clause
  deriving DecidableEq, Repr

/-- A return-stack entry (R265). -/
structure RetEnt where
  pc : Nat
  wbase : Nat
  deriving DecidableEq, Repr

/-- A continuation record in the fibre segment (R319); prev is the CHEAD it displaced, hnd marks one that a handler fibre registered. -/
structure ContRec where
  idx : Nat
  pred : Mask
  pc : Nat
  wbase : Nat
  prev : Nat
  obj : Nat
  hnd : Bool
  deriving DecidableEq, Repr

/-- An entry of a group's operand-cache set (R219-R221): its register, the word of each lane, the dirty lanes, whether it is filled, and whether a background fill is running (R225). -/
structure OcEnt where
  reg : Nat
  vals : List W32
  dirty : Mask
  filled : Bool
  filling : Bool
  deriving DecidableEq, Repr

/-- An entry set: eight places and their order, least recently used first (R220). -/
structure OcSet where
  ents : List (Option OcEnt)
  lru : List Nat
  deriving DecidableEq, Repr

/-- A scheduled write of register state (R56, R186): lanes of a frame register (through: spill-now), a scalar, lanes of a mask, or a special register. -/
inductive RegWrite where
  | vreg (reg : Nat) (vals : List (Nat × W32)) (through : Bool)
  | sreg (n : Nat) (val : W32)
  | kreg (n : Nat) (bits : List (Nat × Bool))
  | flagsOr (f : BitVec 5)
  | flagsSet (f : BitVec 5)
  | trapenSet (f : BitVec 5)
  | scopeflagSet (b : Bool)
  | hintmissSet (x : W32)
  deriving DecidableEq, Repr

/-- A write that lands at an issue position (R56). -/
structure Pend where
  at' : Nat
  w : RegWrite
  deriving DecidableEq, Repr

/-- Where a group stands between clauses: at a boundary (with what R255 needs of the ended clause), at a header whose clause has not started, in a clause, or with no ready fibre. -/
inductive Phase where
  | boundary (backward yielded : Bool)
  | header
  | inClause (c : Clause)
  | asleep
  deriving DecidableEq, Repr

/-- The resolved destination of a returned value: a frame register (window base included; sn for spill-now, R66), a scalar, or nothing (R62). -/
inductive Dst where
  | vec (reg : Nat) (sn : Bool)
  | scal (n : Nat)
  | none
  deriving DecidableEq, Repr

/-- An AWAIT on a lattice cell (R321, R387): its number, its cell, pointer and target, D, whether D is a pair, whether it holds a threshold entry, and the value once reached. -/
structure CellWait where
  op : Nat
  part : Nat
  region : Nat
  cell : Nat
  ptr : W64
  t : W64
  d : Dst
  eff : Mask
  wide : Bool
  entry : Bool
  got : Option W64
  deriving DecidableEq, Repr

/-- The command queues of a core that a group may wait for an entry of (R335, R353, R405). -/
inductive QueueKind where
  | streamer | matrix | fabric
  deriving DecidableEq, Repr

/-- Why a group does not issue (R57, R61, R300). -/
inductive Park where
  | none
  | sw
  | stall
  | objMiss (k : ObjKey)
  | regionMiss (r : Nat)
  | fence (order : Order) (scope : Scope)
  | alloc
  | growWait (since : Nat)
  | shrinkWait
  | entryWait (queue : QueueKind) (since : Nat)
  | bwait (obj : Nat) (ptr : W64) (p : W32) (d : Dst) (eff : Mask) (scope : Scope)
  | awaitPhase (obj : Nat) (ptr : W64) (p : W32) (d : Dst) (eff : Mask) (scope : Scope) (wide : Bool)
  | awaitCell (w : CellWait)
  | pause (until' : Nat) (d : Dst) (eff : Mask)
  | tbar (inst : Nat)
  | sbar (inst : Nat)
  | gbar (inst : Nat)
  | absent (op : Nat)
  | agentIdle (until' : Nat)
  deriving DecidableEq, Repr

/-- The trap record (R281). -/
structure TrapRec where
  active : Mask
  cause : Nat
  sub : Nat
  dbl : Bool
  handled : Bool
  wbase : Nat
  resume : Nat
  lanes : Mask
  addr : W64
  word : W64
  pc : Nat
  deriving DecidableEq, Repr

/-- A translation-fault or memory-error trap that waits for a switch point; kept marks one that was pending when a handler was entered (R280). -/
structure PendTrap where
  kept : Bool
  cause : Nat
  sub : Nat
  lanes : Mask
  addr : W64
  word : W64
  deriving DecidableEq, Repr

/-- The group's watch (R322): its 64-byte line's location, whether it is armed at the watch point, and what triggered it. -/
structure Watch where
  loc : Loc
  ptr : W64
  armed : Bool
  trig : Option Nat
  stamp : Nat
  deriving DecidableEq, Repr

/-- A failed X or M write of a group (R403, R406): the operation that made it, the members it went to, and the XFENCEs that have counted it: of all members, and of single ones. -/
structure XfFail where
  op : Nat
  members : List Nat
  byAll : Bool
  byOne : List Nat
  deriving DecidableEq, Repr

/-- The slot that a group holds (R16). -/
structure SlotAt where
  core : Nat
  slice : Nat
  slot : Nat
  deriving DecidableEq, Repr

/-- A group (R27; trapRets keeps the return stacks of the trap, R286) with all that R254, R300 and the register rules give it; fetched lists the region records fetched for the instruction it waits to issue (R382); born is the stamp of the last access before its start; readBy lists the matrix commands in flight that read its registers, each with the number of entries that regPast then had, and regPast the register words written since with the values before, newest first (R147; the model's own); tried marks a stalled instruction that has been found able to issue (R277), cls the class of the current or last clause (R476); image is what its last CTXSAVE wrote (DESIGN CHOICE, log 7). -/
structure Group where
  id : Nat
  ctx : Nat
  team : Nat
  idx : Nat
  role : Nat
  width : Nat
  frame : Nat
  depth : Nat
  feed : Bool
  agent : Bool
  slot : Option SlotAt
  ended : Bool
  left : Bool
  halted : Bool
  cur : Option Fibre
  fibres : List Fibre
  idle : Mask
  exited : Mask
  conts : List ContRec
  firing : List ContRec
  rets : List (List RetEnt)
  scal : List W32
  masks : List Mask
  cnt : List Nat
  pos : Nat
  pend : List Pend
  phase : Phase
  park : Park
  waitEntry : Bool
  swDue : Bool
  flags : BitVec 5
  trapen : BitVec 5
  scopeflag : Bool
  hintmiss : W32
  hEntry : Nat
  hMask : W32
  hShift : Nat
  hMode : Bool
  trec : TrapRec
  trapped : Option Fibre
  trapRets : List (List RetEnt)
  trapCount : BitVec 16
  pendTraps : List PendTrap
  held : Option Nat
  armed : Bool
  trapDue : Option TrapRec
  watch : Option Watch
  oc : Option OcSet
  xf : List XfFail
  fetched : List Nat
  born : Nat
  readBy : List (Nat × Nat)
  regPast : List (Nat × W32)
  lastTime : Nat
  ready : Nat
  waited : Nat
  urgent : Option Nat
  suspect : Bool
  suspects : Nat
  tried : Bool
  cls : Nat
  image : List Byte
  deriving DecidableEq, Repr

/-- A party with a scope: the last strong write of an aligned 8-byte word (its key, issuer and scope; R138), or a release, of which view is what it carries and vscope its scope (R127, R128). -/
structure StrongRec where
  word : Nat
  group : Nat
  team : Nat
  stack : Nat
  part : Nat
  scope : Scope
  view : List (Nat × Nat)
  vscope : Scope
  deriving DecidableEq, Repr

/-- A write of one byte that readers may not have to see yet (R131, R133; the model's own; DESIGN CHOICE, log 19): the byte's key, its values before and after, the party that wrote it, by which operation and when, its scope, whether it was strong and a read-modify-write, and whether it is a write of a race; rels are the releases whose sequences it belongs to, seqs those that a later read-modify-write goes on (R127). -/
structure PastByte where
  key : Nat
  old : Byte
  new : Byte
  party : Nat
  op : Nat
  stamp : Nat
  src : StrongRec
  strong : Bool
  rmw : Bool
  raced : Bool
  rels : List StrongRec
  seqs : List StrongRec
  deriving DecidableEq, Repr

/-- A read of some bytes that a later write may race with (R133, R137; the model's own; DESIGN CHOICE, log 19): the first byte's key, their number, the party, its operation and when, its scope, whether it was strong and a read-modify-write. -/
structure PastRead where
  key : Nat
  len : Nat
  party : Nat
  op : Nat
  stamp : Nat
  src : StrongRec
  strong : Bool
  rmw : Bool
  deriving DecidableEq, Repr

/-- What happens before a party's next access (R129; the model's own; DESIGN CHOICE, log 19): for each party the stamp up to which its accesses do; the last release fence of each scope, whose sequences its later writes belong to (R127); the last release of each scope, after which its commands to engines come (R145); and the releases whose values its relaxed strong reads returned (R127). -/
structure Know where
  party : Nat
  view : List (Nat × Nat)
  fences : List StrongRec
  outs : List StrongRec
  seen : List StrongRec
  deriving DecidableEq, Repr

/-! ## Contexts, teams, grids, runs -/

/-- A line of a team's L1 ways (R140, R240-R242); die and inc are the die whose L1 holds it and that die's incarnation then, which a write-back carries (R22). -/
structure L1Line where
  die : Nat
  inc : BitVec 16
  key : LineKey
  part : Nat
  ua : Nat
  data : List Byte
  written : Mask
  pinned : Bool
  filling : Bool
  stamp : Nat
  deriving DecidableEq, Repr

/-- The states of a context (R294). -/
inductive CtxState where
  | running | halting | halted | saved | killing | free
  deriving DecidableEq, Repr

/-- A context-table entry (R293; imaging marks one on which an agent's CTXSAVE or CTXLOAD is in progress, R295, R482): one team's presence on one core; haltReq is a halt request on its way to the core, saveReq says that one asked for a save (R295); spill lists the 2 KiB units of its spill area by HBM stack (R301). -/
structure Ctx where
  id : Nat
  num : Nat
  part : Nat
  stack : Nat
  core : Nat
  rank : Nat
  team : Nat
  grid : Nat
  state : CtxState
  faulted : Bool
  saveArea : W64
  incarn : BitVec 16
  scratch : Nat
  l1w : Nat
  l1 : List L1Line
  gran : Nat
  evicted : Nat
  spill : List (Nat × Nat)
  savedAt : Nat
  haltReq : Bool
  saveReq : Bool
  imaging : Bool
  deriving DecidableEq, Repr

/-- A team (R26). -/
structure Team where
  id : Nat
  grid : Nat
  idx : Nat
  paired : Bool
  share : Nat
  stack : Nat
  ended : Bool
  veers : W32
  holdEnd : Nat
  lastSeen : Bool
  tInst : Nat
  tArr : List Nat
  sInst : Nat
  sArr : List Nat
  sDone : Bool
  gInst : Nat
  gArr : List Nat
  gDone : Bool
  deriving DecidableEq, Repr

/-- A role of a launch record (R30, R449). -/
structure Role where
  entry : Nat
  frame : Nat
  groups : Nat
  width : Nat
  depth : Nat
  feed : Bool
  deriving DecidableEq, Repr

/-- The header fields of a launch record (R449). -/
structure Launch where
  stamp : Nat
  savep : W64
  l1w : Nat
  scratch : Nat
  nstacks : Nat
  pair : Bool
  teams : Nat
  argp : W64
  data : W64
  code : W64
  roles : List Role
  deriving DecidableEq, Repr

/-- The gusts of a completed GBAR instance (R325): when it completed, the next wave, teams admitted in each wave, the gap, and the count of earlier instances. -/
structure Gust where
  start : Nat
  wave : Nat
  w : Nat
  gap : Nat
  c : Nat
  deriving DecidableEq, Repr

/-- A grid (R25, R459): what one launch node started. icache holds the code lines the grid has fetched (R44). -/
structure Grid where
  id : Nat
  num : Nat
  part : Nat
  run : Nat
  node : Nat
  lr : Launch
  shares : List Nat
  ticket : Nat
  returned : List Nat
  bound : Nat
  endedTeams : Nat
  sDone : List Nat
  gDone : Nat
  gust : Option Gust
  killDue : Bool
  killed : Bool
  status : Nat
  rec1 : Option TrapRec
  progress : Nat
  killAt : Option Nat
  preDone : Option Nat
  icache : List (Nat × List Byte)
  deriving DecidableEq, Repr

/-- A node of a run: its predecessor counter and how far it is (R454, R456). -/
inductive NodeState where
  | waiting | started | completed | faulted | skipped
  deriving DecidableEq, Repr

/-- A node with its counter, state, successors and validated launch record (R453-R456); ahead counts the decrements made at GRID_COMPLETE that an agent's GDEC has not yet reported (R456, R463) (DESIGN CHOICE, log 63). -/
structure Node where
  pred : Nat
  ahead : Nat
  state : NodeState
  succ : List Nat
  lr : Launch
  deriving DecidableEq, Repr

/-- A run of a graph table (R454). -/
structure Run where
  id : Nat
  num : Nat
  part : Nat
  queue : Nat
  seq : Nat
  nodes : List Node
  crec : W64
  status : Nat
  faultNode : Nat
  rec1 : Option TrapRec
  done : Bool
  deriving DecidableEq, Repr

/-! ## Operations in flight -/

/-- What an operation in flight does when it is performed (R54). -/
inductive OpKind where
  | ld (signed bypass np : Bool)
  | ldb (signed bypass : Bool)
  | st
  | atom (op : BitVec 4)
  | acas
  | red (op : BitVec 4)
  | pres
  | objq (field : Nat)
  | watch
  | jst
  | jld
  | jldn
  | jadd
  | ldL (signed bc : Bool)
  | jtrade
  | jqry (field : Nat)
  | xqry (value : Nat)
  | xfence (member : Option Nat)
  | query
  | bar (bc : Bool)
  | ocfill
  | ocdrop
  | ocsync
  | tclaim (grid : Nat)
  | gdec (run node : Nat)
  | qtake (ptr : W64)
  | qack (queue seq : Nat)
  deriving DecidableEq, Repr

/-- How far one lane's access is: sent, held for a page, sent to the host or a peer, waiting for a threshold (with a table entry or without, R387), performed with its value not yet written (R396), performed, or failed. -/
inductive LaneState where
  | sent | page | host | peer | waiting (entry : Bool) | valued | performed | failed
  deriving DecidableEq, Repr

/-- One lane's access (R121): its pointer, its place, its data words, the value it returns, and the bytes of it already performed with what they read or wrote (R122). -/
structure LaneOp where
  lane : Nat
  ptr : W64
  loc : Loc
  key : Option LineKey
  data : List W32
  val : List W32
  st : LaneState
  got : List (Nat × Byte)
  deriving DecidableEq, Repr

/-- An operation in flight: who issued it, what it does, which counter it holds, its lanes, destination, size, order and scope; hold marks one that a release fence orders before later writes (R129), mate names the other half of a load of lattice and other locations (R54), inc is the incarnation of the die that issued it (R22), absent marks one that met absent pool lines when it was issued (R144). -/
structure Op where
  id : Nat
  g : Nat
  kind : OpKind
  ctr : Nat
  lanes : List LaneOp
  dst : Dst
  eff : Mask
  size : Nat
  hold : Bool
  order : Order
  scope : Scope
  word : W64
  mate : Option Nat
  inc : BitVec 16
  absent : Bool
  deriving DecidableEq, Repr

/-- A write that the fabric port has accepted and its members have not all acknowledged (R401, R406): the operation, group and partition that made it, its place and its data, a reduction's operation, the party it comes from and the releases that it carries, the members it goes to and those yet to acknowledge it; own marks one whose copy on this member is still to be made (R402), failed one that a member lost or refused. -/
structure PeerWrite where
  id : Nat
  op : Nat
  g : Nat
  part : Nat
  loc : Loc
  size : Nat
  red : Option (BitVec 4)
  data : Nat
  party : Nat
  src : StrongRec
  rels : List StrongRec
  strong : Bool
  members : List Nat
  pending : List Nat
  own : Bool
  failed : Bool
  deriving DecidableEq, Repr

/-- What an update carries (R310): an arrival, expected bytes, credited bytes, the error mark, zero-filled entries, and BEXP's clearing. -/
structure UpdItem where
  a : Bool
  e : Nat
  c : Nat
  err : Bool
  z : Nat
  clr : Bool
  deriving DecidableEq, Repr

/-- A barrier update on its way to its object (R310, R312): the object's pool key and context, what it carries, the operation's lane that its phase answers (R316), and its issuer and scope. -/
structure Upd where
  id : Nat
  obj : Nat
  ctx : Nat
  item : UpdItem
  reply : Option (Nat × Nat)
  src : StrongRec
  deriving DecidableEq, Repr

/-- The four streamer forms (R334). -/
inductive CopyForm where
  | cpy | gath | scat | cfill
  deriving DecidableEq, Repr

/-- How far a streamer request is (R340, R342, R343). -/
inductive ReqState where
  | queued | active | stopped | issued | bulkSent | bulk | done
  deriving DecidableEq, Repr

/-- A line a request has read or prepared: its destination bytes, not yet landed (R340, R341). -/
structure CopyLine where
  id : Nat
  bytes : List (Loc × Byte)
  deriving DecidableEq, Repr

/-- A streamer request (R330-R344): who issued it and by which lane; the places of SRC, DST and the index list, with the pointers' offsets and the size of what the indexed pointer names; next is the next unit in iteration order; absent lists the destination lines whose presence bits it holds clear with the bytes still to land; idx holds the index entries read; bs is the bulk streamer it goes to (0-7 on half A, 8-15 on half B), inc the incarnation of the die that issued it (R22). -/
structure Req where
  id : Nat
  inc : BitVec 16
  g : Nat
  ctx : Nat
  part : Nat
  team : Nat
  lane : Nat
  form : CopyForm
  bulk : Bool
  scope : Scope
  unit : Nat
  n0 : Nat
  n1 : Nat
  n2 : Nat
  n3 : Nat
  ss : List Int
  ds : List Int
  src : Loc
  dst : Loc
  list : Loc
  soff : Nat
  doff : Nat
  lim : Nat
  fill : W64
  bcred : Nat
  gone : Bool
  gcnt : Option (Nat × Nat)
  bar : Option Nat
  bs : Option Nat
  idx : List (Option Nat)
  state : ReqState
  next : Nat
  lines : List CopyLine
  absent : List (Nat × Nat)
  landed : Nat
  credited : Nat
  sinceCredit : Nat
  zeros : Nat
  zerosSent : Nat
  err : Bool
  killed : Bool
  finalSent : Bool
  gdone : Bool
  pageAt : Option Nat
  deriving DecidableEq, Repr

/-- The matrix commands that enter the command queue (R353). -/
inductive MKind where
  | mma | azero | amov | ains | adrain
  deriving DecidableEq, Repr

/-- How far a matrix command is (R366-R369): queued, begun, an MMA whose steps are all done, or a drain stopped on a page. -/
inductive MState where
  | queued | begun | stepsDone | stopped
  deriving DecidableEq, Repr

/-- A matrix command with the fields of its block and the places they name (R357, R360-R362): acc is the accumulator key, step the next step or row, tile the words it has staged, lines the lines produced and not yet performed, resvs the records it names; killed marks a drain of a killed grid, whose whole lines still land (R303), inc the incarnation of the die that issued it (R22), sn an AMOV's spill-now mark (R66), made the bytes of its next row that a drain has produced (R371), suspect that its last step ran in a squall's window and has not been executed again (R476). -/
structure MCmd where
  id : Nat
  inc : BitVec 16
  g : Nat
  ctx : Nat
  part : Nat
  team : Nat
  lane : Nat
  kind : MKind
  blk : Nat
  bar : Option Nat
  acc : Nat
  n : Nat
  reg : Nat
  asrc : Loc
  bsrc : Loc
  ascl : Option Loc
  bscl : Option Loc
  adesc : Nat
  bdesc : Nat
  steps : Nat
  zero : Bool
  dst : Loc
  xdst : Option Loc
  dsc : Option Loc
  xsc : Option Loc
  ddesc : Nat
  xdesc : Nat
  dpitch : Nat
  xpitch : Nat
  clr : Bool
  add : Bool
  step : Nat
  flags : BitVec 8
  tile : List Nat
  lines : List CopyLine
  absent : List (Nat × Nat)
  credit : Nat
  sn : Bool
  resvs : List Nat
  pageAt : Option Nat
  killed : Bool
  made : Nat
  suspect : Bool
  state : MState
  deriving DecidableEq, Repr

/-- A reservation record (R346, R355). -/
structure Resv where
  id : Nat
  ctx : Nat
  team : Nat
  isAcc : Bool
  base : Nat
  len : Nat
  edesc : Nat
  scoff : Nat
  releasing : Option Nat
  deriving DecidableEq, Repr

/-- A collective that this member has accepted (R408-R411): who issued it and by which lane, its descriptor's fields, the group's size and this member's rank, the places of the buffers, the object, when it was accepted, and the lines held absent; out says, once it is matched or has ended, whether with ERR, peers keeps what the others brought, own this member's SEND bytes once read, staged that RECV has been prepared, lines the lines of RECV still to land, sent that its update has been made. -/
structure Coll where
  id : Nat
  g : Nat
  lane : Nat
  ctx : Nat
  part : Nat
  team : Nat
  scope : Scope
  mgrp : Nat
  seq : Nat
  kind : Nat
  ty : Nat
  rop : Nat
  root : Nat
  count : Nat
  n : Nat
  rank : Nat
  send : Option Loc
  recv : Option Loc
  bar : Option Nat
  since : Nat
  absent : List (Nat × Nat)
  out : Option Bool
  peers : List PeerColl
  own : Option (List Byte)
  staged : Bool
  lines : List CopyLine
  sent : Bool
  deriving DecidableEq, Repr

/-- What this member answers a peer's access with (R400, R403): the peer, the incarnation that its packet carried, whether the access was made, the value read, and whether it met a scope mismatch (R138). -/
structure FabReply where
  part : Nat
  member : Nat
  incarn : Nat
  made : Bool
  val : List Byte
  mism : Bool
  deriving DecidableEq, Repr

/-! ## Ring and dies -/

/-- A line entry of a trade: its line index and the cells it holds (R391). -/
structure TradeLine where
  line : Nat
  vals : List (Nat × Nat)
  deriving DecidableEq, Repr

/-- What a ring packet carries: a trade's or JTRADE's part of count packets, with the releases that the sender includes (R391, R394); inst is its region's; m of a JTRADE counts the trades taken before it. -/
inductive RingMsg where
  | trade (part region inst m fromStack toStack count : Nat) (lines : List TradeLine) (rels : List (Nat × List (Nat × Nat)))
  | tradeAck (part region inst m fromStack toStack : Nat)
  | jtrade (op part region inst m fromStack toStack count : Nat) (lines : List TradeLine) (rels : List (Nat × List (Nat × Nat)))
  | jtradeAck (op toStack : Nat)
  | bulk (req : Nat)
  | bulkCredit (upd : Upd)
  deriving DecidableEq, Repr

/-- A ring packet (R19, R22): waiting at its stop or in flight; fl lists the stops whose buffers its flits stand in, first flit first. -/
structure Pkt where
  id : Nat
  src : Nat
  dst : Nat
  srcStop : Nat
  dstStop : Nat
  fl : List Nat
  part : Nat
  incarn : BitVec 16
  reqIncarn : Option (BitVec 16)
  flits : Nat
  up : Bool
  flying : Bool
  delivered : Bool
  msg : RingMsg
  deriving DecidableEq, Repr

/-- One direction of a ring stop: flits in its buffer, cycles of refusal, its signal, and the partition admitted last (R20, R39). -/
structure StopDir where
  used : Nat
  refused : Nat
  starved : Bool
  turn : Nat
  deriving DecidableEq, Repr

/-- A ring stop (R18). -/
structure Stop where
  asc : StopDir
  desc : StopDir
  deriving DecidableEq, Repr

/-- A die (R22, R23). -/
structure Die where
  incarn : BitVec 16
  table : List (BitVec 16)
  loaded : Bool
  announcing : Bool
  stale : Nat
  deriving DecidableEq, Repr

/-! ## Cores -/

/-- An object-table entry or import entry as a cache holds it (R246, R399, R429). -/
structure ObjEnt where
  key : ObjKey
  valid : Bool
  ubase : Nat
  len : Nat
  rights : BitVec 4
  hint : Option Nat
  psize : Nat
  deriving DecidableEq, Repr

/-- A slice (R16, R228, R275): the ratio that has taken effect, and the one that the arbiter has set (R473, R474). -/
structure Slice where
  ratio : Nat
  set : Nat
  cycles : Nat
  waiters : List Nat
  deriving DecidableEq, Repr

/-- A grow or shrink request at the allocator (R243, R244): the group, the opcode (0x68 PGROW to 0x6B FSHRINK) with its fields, the amount read, the effective lanes, and a number that rises in the order in which grows began to wait (R245). -/
structure AllocReq where
  g : Nat
  op : Nat
  f : FormR
  amount : Nat
  eff : Mask
  since : Nat
  deriving DecidableEq, Repr

/-- An agent's reservation (R462): its grid, the granules it holds on the core of each rank, and the slots in group order. -/
structure AgentResv where
  grid : Nat
  grans : List (Nat × Nat)
  slots : List SlotAt
  deriving DecidableEq, Repr

/-- The agent of a core (R461, R462): the claim and the reservation that it holds, and whether an event for it has come since it last woke (R302). -/
structure Agent where
  claim : Option (Nat × Nat)
  resv : Option AgentResv
  event : Bool
  deriving DecidableEq, Repr

/-- A core (R15). freed says that granules were released since the waiting grows last asked (R245); img numbers the matrix-side image beneath it; clk is 0 for 1.4 GHz, 1 for 1.05, 2 for 0.70 (R475). -/
structure Core where
  clk : Nat
  cycles : Nat
  slices : List Slice
  free : Nat
  freed : Bool
  fenced : Bool
  paused : Bool
  resync : Bool
  squall : Bool
  capped : Bool
  img : Nat
  objCache : List ObjEnt
  regionCache : List Nat
  alloc : List AllocReq
  stalled : List AllocReq
  resvs : List Resv
  agent : Agent
  deriving DecidableEq, Repr

/-! ## Partitions -/

/-- The state of a 4 KiB granule (R428); moving keeps what it was and what it becomes (R433). -/
inductive GranState where
  | none
  | hbm (stack : Nat)
  | tier2 (half : Nat)
  | host (hpa : Nat)
  deriving DecidableEq, Repr

/-- A granule of a unified range (R428, R432, R440). -/
structure Gran where
  num : Nat
  state : GranState
  moving : Option GranState
  pinned : Bool
  psize : Nat
  advice : Nat
  missA : Nat
  missB : Nat
  hostAcc : Nat
  deriving DecidableEq, Repr

/-- An outstanding page request (R436-R439); dead marks one that a teardown or a function level reset has discarded and whose answer may still come (R418, R441). -/
structure PageReq where
  rid : Nat
  gran : Nat
  cinc : BitVec 16
  ctx : Nat
  write : Bool
  exec : Bool
  atom : Bool
  eng : Bool
  joined : List PageAsker
  dead : Bool
  deriving DecidableEq, Repr

/-- A packet in an intake FIFO (R444, R464): the core whose agent has taken it, and whether its command has begun (R445). -/
structure Packet where
  raw : List Byte
  taken : Option Nat
  started : Bool
  deriving DecidableEq, Repr

/-- A command queue (R443-R447, R464, R465); inBatch and committed say how far the batch at its head is, batchBy which agent is taking one. -/
structure Queue where
  vec : Nat
  enable : Bool
  prio : Nat
  last : Nat
  overf : Bool
  gap : Bool
  intake : List Packet
  wFence : Nat
  wKill : Nat
  wPre : Nat
  qcseq : Nat
  inBatch : Bool
  committed : Bool
  batchBy : Option Nat
  deriving DecidableEq, Repr

/-- A replica of a region (R374, R391): its cells above bottom, how many snapshots it has taken, and for each changed line how many had been taken at its last change; rels holds, cell by cell, what happens before the joins that it includes (R394; the model's own; DESIGN CHOICE, log 19); back counts, HBM stack by HBM stack, the 4 KiB granules that back it (R378). -/
structure Replica where
  stack : Nat
  back : List Nat
  vals : List (Nat × Nat)
  changed : List (Nat × Nat)
  snaps : Nat
  rels : List (Nat × List (Nat × Nat))
  deriving DecidableEq, Repr

/-- A trade in progress (R390-R393). -/
structure Trade where
  m : Nat
  acks : Nat
  spokes : List Nat
  hubSent : Bool
  deriving DecidableEq, Repr

/-- A lattice region (R378) with its replicas; inst tells it from regions that had its number before it (R391-R393; the model's own); dying names the queue of a pending RDESTROY and the grids that it waits for (R458). -/
structure Region where
  num : Nat
  inst : Nat
  ty : Nat
  sched : Nat
  cells : Nat
  period : Nat
  reps : List Replica
  taken : Nat
  completed : Nat
  trade : Option Trade
  lastInstant : Nat
  dying : Option (Nat × List Nat)
  deriving DecidableEq, Repr

/-- A multicast group (R399): members in ascending number. -/
structure MGroup where
  num : Nat
  members : List Nat
  deriving DecidableEq, Repr

/-- Another member of the domain as this one knows it: its number, incarnation, switch levels, and whether it can be reached, which the fabric decides (an input; R403, R407). -/
structure Peer where
  member : Nat
  incarn : Nat
  hops : Nat
  reach : Bool
  deriving DecidableEq, Repr

/-- The throttle-cause register (R475). -/
structure Throttle where
  trans : Nat
  ratio : Nat
  clock : Nat
  active : Bool
  cause : Nat
  deriving DecidableEq, Repr

/-- A partition (R38) with its registers and tables; spill counts the 2 KiB units of its spill areas on each HBM stack (R301). -/
structure Part where
  ways : BitVec 16
  link : Nat
  enable : Bool
  scopemis : Bool
  stackBits : BitVec 8
  uwin : W64
  ulim : W64
  otbase : W64
  otinvObj : Nat
  otinvBusy : Bool
  prqbase : W64
  prqHead : BitVec 16
  prqTail : BitVec 16
  otcnt : W64
  teardown : Bool
  faulted : Bool
  masked : Bool
  grant : List Nat
  spill : List Nat
  grans : List Gran
  preqs : List PageReq
  nextRid : Nat
  heldRecs : List (List Byte)
  mpCache : List ObjEnt
  epoch : Nat
  queues : List Queue
  takeTurn : List Nat
  startTurn : List Nat
  regions : List Region
  imports : List ObjEnt
  groups : List MGroup
  member : Option Nat
  peers : List Peer
  myIncarn : BitVec 16
  staleFab : Nat
  shed : Nat
  floor : Nat
  cap : Nat
  gap : Nat
  wave : Nat
  ppwr : Nat
  watts : Nat
  gcause : Nat
  thr : Throttle
  thrSeen : Throttle
  deriving DecidableEq, Repr

/-! ## Host port, power, veer -/

/-- A posted write's line at the ordering point (R419, R422). -/
structure InbLine where
  id : Nat
  ua : Nat
  data : List Byte
  acked : Bool
  deriving DecidableEq, Repr

/-- A posted write not yet acknowledged on every route (R422); inc is the incarnation of its port's base die when it was accepted (R22). -/
structure Inbound where
  id : Nat
  inc : BitVec 16
  req : HostReq
  lines : List InbLine
  deriving DecidableEq, Repr

/-- Written bytes of an L1 line on their way to their home slice, where a die on the path has no table or announces (R22, R23): the die that sent them, its incarnation then, the partition, the bytes by their addresses. -/
structure WriteBack where
  die : Nat
  inc : BitVec 16
  part : Nat
  bytes : List (Nat × Byte)
  deriving DecidableEq, Repr

/-- A command of the host agent in progress (R440): its partition, granule, number and frame; held marks one that waits to begin until its page is at rest. -/
structure HreqCmd where
  part : Nat
  gran : Nat
  cmd : Nat
  hpa : Nat
  held : Bool
  deriving DecidableEq, Repr

/-- The completion of an inbound read or AtomicOp (R419, R420, R423): its link and requester, its status (0 data, 1 Unsupported Request, 2 Completer Abort), its EP bit, its bytes. -/
structure HostCpl where
  link : Nat
  rid : Nat
  status : Nat
  ep : Bool
  data : List Byte
  deriving DecidableEq, Repr

/-- A write to host memory that the link has not been seen to complete (R426). -/
structure HostWrite where
  g : Nat
  hpa : Nat
  deriving DecidableEq, Repr

/-- A stack's power state (R471, R473, R474): how many steps its thermal limit and its current limit lower its ceiling; the operating point, 0 (8/8 at 1.4 GHz) to 8 (2/8 at 0.70 GHz), as set (target) and as it has taken effect (point); the binding cause; and the rail's episode: 0 none, 1 its first fall taken in this interval, 2 going on. -/
structure StackPower where
  heat : Nat
  amp : Nat
  target : Nat
  point : Nat
  cause : Nat
  railHit : Nat
  deriving DecidableEq, Repr

/-- How far a veer is (R483, R484): deferred by a team hold, its groups stopping, its units in their pause, or their images exchanged. -/
inductive VeerStage where
  | deferred | stopping | paused | moved
  deriving DecidableEq, Repr

/-- A veer chosen at an instant (R482, R483). -/
structure Veer where
  instant : Nat
  hot : List Nat
  lee : List Nat
  stage : VeerStage
  deriving DecidableEq, Repr

/-- A line of a lattice engine's cell cache (R396). -/
structure CellLine where
  part : Nat
  region : Nat
  line : Nat
  deriving DecidableEq, Repr

/-- What has an uncorrectable error (R279, R371, R397, R441): a 128-byte line of device memory by its number, a 32-byte word of a pool, an operand buffer or an accumulator by its number (R210; those of the last two DEDUCED, log 107), or a replica's line. -/
inductive BadLine where
  | mem (line : Nat)
  | word (word : Nat)
  | replica (stack part region line : Nat)
  deriving DecidableEq, Repr

/-- The whole module. -/
structure State where
  /-- Steps the environment and the device's free choices put next (the model's own; DESIGN CHOICE, log 1). -/
  agenda : List Instr
  /-- The group that issues, or issued last (the model's own; DESIGN CHOICE, log 1). -/
  cur : Option Nat
  /-- The groups whose instructions issue in this slice cycle and have not yet (R28, R277). -/
  turn : List Nat
  /-- Where the next free value is drawn (the model's own; DESIGN CHOICE, log 2). -/
  fresh : Nat
  /-- Numbers operations, packets and groups (the model's own; DESIGN CHOICE, log 1). -/
  nextId : Nat
  /-- The device timer's master count (R276). -/
  tick : Nat
  mem : Memory
  strong : List StrongRec
  /-- Uncorrectable errors that the surroundings make, each with the tick at which it strikes (an input; R279, R397, R441; DESIGN CHOICE, log 43). -/
  upsets : List (Nat × BadLine)
  /-- The lines with an uncorrectable error (R279, R397, R441). -/
  poison : List BadLine
  /-- The writes that a racing read may look behind, newest first (R133; the model's own; DESIGN CHOICE, log 19). -/
  past : List PastByte
  reads : List PastRead
  /-- Numbers the writes of past (the model's own; DESIGN CHOICE, log 19). -/
  stamp : Nat
  /-- What happens before each party's next access (R129; the model's own; DESIGN CHOICE, log 19). -/
  knows : List Know
  dies : List Die
  stops : List Stop
  cellCache : List (List CellLine)
  pkts : List Pkt
  cores : List Core
  groups : List Group
  ctxs : List Ctx
  teams : List Team
  grids : List Grid
  runs : List Run
  parts : List Part
  ops : List Op
  pwrites : List PeerWrite
  upds : List Upd
  reqs : List Req
  mcmds : List MCmd
  colls : List Coll
  /-- The answers to peers' accesses, oldest first (an output; R400, R403). -/
  fabOut : List FabReply
  inb : List Inbound
  /-- The completions sent to the host, oldest first (an output; R419, R420). -/
  cpls : List HostCpl
  hwrites : List HostWrite
  wbacks : List WriteBack
  links : List Bool
  heldMsix : List (Nat × Nat)
  msix : List (Nat × Nat)
  answ0 : W64
  answ1 : W64
  hreq0 : W64
  hreq1 : W64
  hres : W64
  hcmd : Option HreqCmd
  fcapWatts : Nat
  fcapSeq : Nat
  fcapActed : Option (Nat × Nat)
  fcapBusy : Bool
  sweep : Option Nat
  interval : Nat
  sqcnt : W32
  mindiff : Nat
  vperiod : Nat
  stackPower : List StackPower
  veers : List (Option Veer)
  veerAt : List Nat
  restart : Bool
  unsupported : Nat
  cfgErrors : Nat
  discarded : Nat
  overcap : Nat
  deriving DecidableEq, Repr

/-! ## Reset -/

/-- A trap record of zeros (R290). -/
def TrapRec.zero : TrapRec :=
  { active := 0, cause := 0, sub := 0, dbl := false, handled := false, wbase := 0, resume := 0, lanes := 0,
    addr := 0, word := 0, pc := 0 }

/-- A die after module power-on (R22; tables loaded; DEDUCED, log 6). -/
def Die.reset : Die :=
  { incarn := 1, table := List.replicate Config.numDies 1, loaded := true, announcing := false, stale := 0 }

/-- An idle ring stop. -/
def Stop.reset : Stop := { asc := ⟨0, 0, false, 0⟩, desc := ⟨0, 0, false, 0⟩ }

/-- A slice at 8/8 (R473, R475: RATIO resets to 8). -/
def Slice.reset : Slice := { ratio := 8, set := 8, cycles := 0, waiters := [] }

/-- A core after reset, with its own matrix-side image. -/
def Core.reset (i : Nat) : Core :=
  { clk := 0, cycles := 0, slices := List.replicate Config.numSlices Slice.reset, free := Config.poolGranules, freed := false,
    fenced := false, paused := false, resync := false, squall := false, capped := false, img := i,
    objCache := [], regionCache := [], alloc := [], stalled := [], resvs := [], agent := ⟨none, none, false⟩ }

/-- A command queue after reset (R443, R465). -/
def Queue.reset : Queue :=
  { vec := 0, enable := false, prio := 0, last := 0, overf := false, gap := false, intake := [], wFence := 0,
    wKill := 0, wPre := 0, qcseq := 0, inBatch := false, committed := false, batchBy := none }

/-- A partition after reset (R417, R430, R469, R470, R475; registers without a stated value 0; DESIGN CHOICE, log 5). -/
def Part.reset : Part :=
  { ways := 0, link := 0, enable := false, scopemis := false, stackBits := 0, uwin := 0, ulim := 0, otbase := 0,
    otinvObj := 0, otinvBusy := false, prqbase := 0, prqHead := 0, prqTail := 0, otcnt := 0, teardown := false, faulted := false, masked := false,
    grant := List.replicate 14 0, spill := List.replicate 12 0, grans := [], preqs := [], nextRid := 0, heldRecs := [], mpCache := [], epoch := 0,
    queues := List.replicate 64 Queue.reset, takeTurn := List.replicate 4 63,
    startTurn := List.replicate 4 63, regions := [], imports := [], groups := [], member := none,
    peers := [], myIncarn := 1, staleFab := 0, shed := 0, floor := 0, cap := 0, gap := 0, wave := 0, ppwr := 0,
    watts := 0, gcause := 0, thr := ⟨0, 8, 0, false, 0⟩, thrSeen := ⟨0, 8, 0, false, 0⟩ }

/-- A stack whose ceiling does not bind (R471). -/
def StackPower.reset : StackPower := { heat := 0, amp := 0, target := 0, point := 0, cause := 0, railHit := 0 }

/-- The module right after power-on: no program runs until one is loaded (DESIGN CHOICE, log 10). -/
def State.reset : State :=
  { agenda := [], cur := none, turn := [], fresh := 0, nextId := 0, tick := 0, mem := [], strong := [], upsets := [], poison := [], past := [], reads := [], stamp := 0, knows := [],
    dies := List.replicate Config.numDies Die.reset, stops := List.replicate Config.numStops Stop.reset, cellCache := List.replicate Config.numStacks [], pkts := [],
    cores := (List.range Config.numCores).map Core.reset, groups := [], ctxs := [], teams := [], grids := [],
    runs := [], parts := List.replicate Config.numParts Part.reset, ops := [], pwrites := [], upds := [], reqs := [],
    mcmds := [], colls := [], fabOut := [], inb := [], cpls := [], hwrites := [], wbacks := [], links := List.replicate 4 true, heldMsix := [], msix := [],
    answ0 := 0, answ1 := 0, hreq0 := 0, hreq1 := 0, hres := 0, hcmd := none, fcapWatts := 0, fcapSeq := 0, fcapActed := none, fcapBusy := false,
    sweep := none, interval := 0, sqcnt := 0, mindiff := 12, vperiod := 2000,
    stackPower := List.replicate Config.numStacks StackPower.reset, veers := List.replicate Config.numStacks none, veerAt := List.replicate Config.numStacks 0,
    restart := false, unsupported := 0, cfgErrors := 0, discarded := 0, overcap := 0 }

end Sys2Proof.Machine
end

