-- ==== Sys2Proof/Machine/Mem.lean ====
section
/-! DEFINITION. Sys2Proof/Machine/Mem.lean: byte memory in its canonical form and the keys of its spaces (R2, R120). -/

namespace Sys2Proof.Machine

/-- The byte at a key; an unlisted key reads 0 (DESIGN CHOICE, log 9). -/
def memRd : Memory → Nat → Byte
  | [], _ => 0
  | (a, c) :: m, k => if a = k then c else memRd m k

/-- A byte written at a key, keeping the canonical form. -/
def memWr : Memory → Nat → Byte → Memory
  | [], k, b => if b = 0 then [] else [(k, b)]
  | (a, c) :: m, k, b =>
    if k < a then (if b = 0 then (a, c) :: m else (k, b) :: (a, c) :: m)
    else if k = a then (if b = 0 then m else (k, b) :: m)
    else (a, c) :: memWr m k b

/-- Keys strictly above lo and rising, no zero byte. -/
def memWfFrom : Nat → Memory → Bool
  | _, [] => true
  | lo, (a, c) :: m => decide (lo ≤ a) && c != 0 && memWfFrom (a + 1) m

/-- The canonical form: keys strictly rising, no entry equal to what an unlisted key reads. -/
def Memory.wf (m : Memory) : Bool := memWfFrom 0 m

/-- n bytes from a key up. -/
def memRdN (m : Memory) (k n : Nat) : List Byte := (List.range n).map (fun i => memRd m (k + i))

/-- Bytes written from a key up. -/
def memWrN (m : Memory) (k : Nat) : List Byte → Memory
  | [] => m
  | b :: bs => memWrN (memWr m k b) (k + 1) bs

/-- The little-endian value of n bytes (R2). -/
def memRdV (m : Memory) (k n : Nat) : Nat := leValue (memRdN m k n)

/-- n bytes of a value, little-endian (R2). -/
def memWrV (m : Memory) (k n x : Nat) : Memory := memWrN m k (leBytes n x)

/-- n bytes from a key set to zero. -/
def memZero (m : Memory) (k n : Nat) : Memory := m.filter (fun c => decide (c.1 < k) || decide (k + n ≤ c.1))

/-! ## Keys: space, instance, offset -/

/-- The block of keys of one instance of a space. -/
def keyBlock (space inst : Nat) : Nat := inst * 8 + space
/-- A key. -/
def mkKey (space inst off : Nat) : Nat := keyBlock space inst * 2 ^ 64 + off % 2 ^ 64
/-- A byte of a context's scratchpad. -/
def scrKey (ctx off : Nat) : Nat := mkKey 1 ctx off
/-- A byte of a group's lane stack segment (R211, R265). -/
def stackKey (g off : Nat) : Nat := mkKey 0 g off
/-- A byte of a group's fibre segment (R211, R252). -/
def fibreKey (g off : Nat) : Nat := mkKey 7 g off
/-- The space of a key. -/
def keySpace (k : Nat) : Nat := k / 2 ^ 64 % 8
/-- A byte of a group's register segment. -/
def frameKey (g off : Nat) : Nat := mkKey 2 g off
/-- A byte of an operand buffer. -/
def obufKey (img off : Nat) : Nat := mkKey 3 img off
/-- A byte of an accumulator memory. -/
def accKey (img off : Nat) : Nat := mkKey 4 img off
/-- A byte of a partition's unified range. -/
def uniKey (part ua : Nat) : Nat := mkKey 5 part ua
/-- A byte of host memory (DEDUCED, log 34). -/
def hostKey (hpa : Nat) : Nat := mkKey 6 0 hpa

end Sys2Proof.Machine
end

