-- ==== Sys2Proof/Machine/Operands.lean ====
section
/-! DEFINITION. Sys2Proof/Machine/Operands.lean: a group's registers behind its operand cache, every operand form as source and destination, and the landing of fixed-latency writes (R56, R58, R62-R66, R215-R223). -/

namespace Sys2Proof.Machine

/-- A group with the memory behind its frame: what an instruction that only touches registers works on. -/
structure GM where
  g : Group
  m : Memory
  deriving DecidableEq, Repr

/-- The issuing fibre's window base (R216). -/
def wbaseOf (g : Group) : Nat :=
  match g.cur with
  | some f => f.wbase
  | none => 0

/-- The issuing fibre's predicate word (R251). -/
def predOf (g : Group) : Mask :=
  match g.cur with
  | some f => f.pred
  | none => 0

/-! ## Frames and the operand cache -/

/-- Where register r of lane l stands in the register segment (R215). -/
def regOff (w r l : Nat) : Nat := 4 * (r * w + l)

/-- A register as the frame holds it. -/
def frameReg (m : Memory) (g : Group) (r l : Nat) : W32 := BitVec.ofNat 32 (memRdV m (frameKey g.id (regOff g.width r l)) 4)

/-- A register written to the frame. -/
def frameRegWr (m : Memory) (g : Group) (r l : Nat) (x : W32) : Memory := memWrV m (frameKey g.id (regOff g.width r l)) 4 x.toNat

/-- The entry that holds a register (R219). -/
def ocEntOf (g : Group) (r : Nat) : Option OcEnt :=
  match g.oc with
  | none => none
  | some o => (o.ents.find? (fun e => match e with
      | some e => e.reg == r
      | none => false)).join

/-- A register of a lane as an operand reads it: from its entry where the entry has it, else from the frame (R222). -/
def readReg (x : GM) (r l : Nat) : W32 :=
  match ocEntOf x.g r with
  | some e => if e.filled || e.dirty.getLsbD l then nth e.vals l 0 else frameReg x.m x.g r l
  | none => frameReg x.m x.g r l

/-- The dirty lanes of an entry written to the frame (R220). -/
def entWriteBack (m : Memory) (g : Group) (e : OcEnt) : Memory :=
  (lanesOf e.dirty).foldl (fun m l => frameRegWr m g e.reg l (nth e.vals l 0)) m

/-- An entry with its lanes that are not dirty filled from the frame (R221). -/
def entFill (m : Memory) (g : Group) (e : OcEnt) : OcEnt :=
  { e with vals := (List.range g.width).map (fun l => if e.filled || e.dirty.getLsbD l then nth e.vals l 0 else frameReg m g e.reg l),
           filled := true, filling := false }

/-- The empty entry set a group acquires (R219). -/
def ocEmpty : OcSet := { ents := List.replicate 8 none, lru := [0, 1, 2, 3, 4, 5, 6, 7] }

/-- A place made the most recently used (R220). -/
def lruTouch (lru : List Nat) (i : Nat) : List Nat := lru.filter (· != i) ++ [i]

/-- The place of a register in a set. -/
def ocPlace (o : OcSet) (r : Nat) : Option Nat :=
  o.ents.findIdx? (fun e => match e with
    | some e => e.reg == r
    | none => false)

/-- The victim of a miss: the lowest invalid place, else the least recently used (R220). -/
def ocVictim (o : OcSet) : Nat := (o.ents.findIdx? (·.isNone)).getD (o.lru.headD 0)

/-- A set with the entry of one place replaced. -/
def ocPut (o : OcSet) (i : Nat) (e : Option OcEnt) : OcSet := { o with ents := o.ents.set i e }

/-- A touch of one register (R220, R221): fill says whether the entry must hold the frame's values. -/
def touchReg (x : GM) (fill : Bool) (r : Nat) : GM :=
  match x.g.oc with
  | none => x
  | some o =>
    match ocPlace o r with
    | some i =>
      let o := { o with lru := lruTouch o.lru i }
      if fill then
        { x with g := { x.g with oc := some { o with ents := o.ents.modify i (fun e => e.map (fun e => if e.filled then { e with filling := false } else entFill x.m x.g e)) } } }
      else { x with g := { x.g with oc := some o } }
    | none =>
      let i := ocVictim o
      let m := match nth o.ents i none with
        | some e => entWriteBack x.m x.g e
        | none => x.m
      let e : OcEnt := { reg := r, vals := List.replicate x.g.width 0, dirty := 0, filled := false, filling := false }
      let e := if fill then entFill m x.g e else e
      { g := { x.g with oc := some { ocPut o i (some e) with lru := lruTouch o.lru i } }, m := m }

/-- The entry of a register made invalid, its dirty lanes discarded (R223). -/
def dropReg (x : GM) (r : Nat) : GM :=
  match x.g.oc with
  | none => x
  | some o =>
    match ocPlace o r with
    | none => x
    | some i => { x with g := { x.g with oc := some (ocPut o i none) } }

/-- Every dirty lane of the set written back; the entries stay, clean (R224, R227). -/
def ocWriteBackAll (x : GM) : GM :=
  match x.g.oc with
  | none => x
  | some o =>
    { m := (o.ents.filterMap id).foldl (fun m e => entWriteBack m x.g e) x.m,
      g := { x.g with oc := some { o with ents := o.ents.map (fun e => e.map (fun e => if e.dirty = 0 then e else { entFill x.m x.g e with dirty := 0 })) } } }

/-- The set released: dirty lanes written back, the entries given up (R219). -/
def ocRelease (x : GM) : GM :=
  match x.g.oc with
  | none => x
  | some o => { m := (o.ents.filterMap id).foldl (fun m e => entWriteBack m x.g e) x.m, g := { x.g with oc := none } }

/-- An acquire at team scope or wider: every entry with no dirty lane made invalid; one with dirty lanes keeps those, and its other lanes read the frame again (R150, R224). -/
def ocAcquire (g : Group) : Group :=
  match g.oc with
  | none => g
  | some o => { g with oc := some { o with ents := o.ents.map (fun e => match e with
      | some e => if e.dirty = 0 then none else some { e with filled := false }
      | none => none) } }

/-- A register word's value remembered before it is written, for the matrix commands in flight that read it (R147). -/
def regNote (x : GM) (r l : Nat) : GM :=
  if x.g.readBy.isEmpty then x else { x with g := { x.g with regPast := (regOff x.g.width r l, readReg x r l) :: x.g.regPast } }

/-- One lane's word put into a register: into its entry as a dirty lane, or into the frame (R221, R222). through writes both and leaves the lane clean (R223). -/
def putReg (x : GM) (r l : Nat) (v : W32) (through : Bool) : GM :=
  let x := regNote x r l
  match x.g.oc with
  | none => { x with m := frameRegWr x.m x.g r l v }
  | some o =>
    match ocPlace o r with
    | none => { x with m := frameRegWr x.m x.g r l v }
    | some i =>
      let up := fun e : OcEnt =>
        let e := entFill x.m x.g e
        { e with vals := e.vals.set l v, dirty := if through then e.dirty &&& ~~~(oneLane l) else e.dirty ||| oneLane l }
      { g := { x.g with oc := some { o with ents := o.ents.modify i (·.map up) } },
        m := if through then frameRegWr x.m x.g r l v else x.m }

/-! ## Masks and scalars -/

/-- Bit l of a mask register; k0 reads all ones (R154). -/
def kbit (g : Group) (n l : Nat) : Bool := n == 0 || (nth g.masks n 0).getLsbD l

/-- Bits of a mask register written; k0 ignores writes (R154). -/
def kput (g : Group) (n : Nat) (bs : List (Nat × Bool)) : Group :=
  if n = 0 then g
  else { g with masks := g.masks.modify n (fun m => bs.foldl (fun m b => if b.2 then m ||| oneLane b.1 else m &&& ~~~(oneLane b.1)) m) }

/-- A scalar. -/
def scal (g : Group) (n : Nat) : W32 := nth g.scal n 0

/-! ## Landing (R56, R58, R186) -/

/-- One scheduled write landed. -/
def landWrite (x : GM) (w : RegWrite) : GM :=
  match w with
  | .vreg r vs t => vs.foldl (fun x v => putReg x r v.1 v.2 t) x
  | .sreg n v => { x with g := { x.g with scal := x.g.scal.set n v } }
  | .kreg n bs => { x with g := kput x.g n bs }
  | .flagsOr f => { x with g := { x.g with flags := x.g.flags ||| f } }
  | .flagsSet f => { x with g := { x.g with flags := f } }
  | .trapenSet f => { x with g := { x.g with trapen := f } }
  | .scopeflagSet b => { x with g := { x.g with scopeflag := b } }
  | .hintmissSet v => { x with g := { x.g with hintmiss := v } }

/-- The writes of a list landed in order. -/
def landList (x : GM) (ps : List Pend) : GM := ps.foldl (fun x p => landWrite x p.w) x

/-- Every write due at or before a position landed, earlier positions first and, at one position, in issue order (R56, R58). -/
def landAt (x : GM) (pos : Nat) : GM :=
  let due := x.g.pend.takeWhile (fun p => p.at' ≤ pos)
  landList { x with g := { x.g with pend := x.g.pend.drop due.length } } due

/-- Every scheduled write landed (R60). -/
def landAll (x : GM) : GM := landList { x with g := { x.g with pend := [] } } x.g.pend

/-- A write inserted behind those of the same or an earlier position. -/
def pendInsert (ps : List Pend) (p : Pend) : List Pend := ps.takeWhile (fun q => q.at' ≤ p.at') ++ p :: ps.dropWhile (fun q => q.at' ≤ p.at')

/-- A write scheduled to land at a position. -/
def sched (x : GM) (at' : Nat) (w : RegWrite) : GM := { x with g := { x.g with pend := pendInsert x.g.pend ⟨at', w⟩ } }

/-! ## Source operands (R62-R64) -/

/-- A small integer in a float type's format; packed float types hold it in both elements (DEDUCED, log 11). -/
def floatConst (ty : Ty) (neg : Bool) (m : Nat) (e : Int) : Nat :=
  match ty with
  | .f16 => (froundMag .f16 .rne false neg m e).1
  | .bf16 => (froundMag .bf16 .rne false neg m e).1
  | .f16x2 => (froundMag .f16 .rne false neg m e).1 * 65537
  | .bf16x2 => (froundMag .bf16 .rne false neg m e).1 * 65537
  | .b32 | .s32 | .z32 | .f32 | .s64 | .z64 | .b64 | .s16x2 | .z16x2 | .s8x4 | .z8x4 => (froundMag .f32 .rne false neg m e).1

/-- A source operand of a lane under a type: its bits at the type's width (R62, R63). -/
def rdOpd (x : GM) (o : Opd) (ty : Ty) (l : Nat) : Nat :=
  match o with
  | .v n =>
    let r := wbaseOf x.g + n.val
    if tyWide ty then (readReg x r l).toNat + 2 ^ 32 * (readReg x (r + 1) l).toNat else (readReg x r l).toNat
  | .s n => if tyWide ty then (scal x.g n.val).toNat + 2 ^ 32 * (scal x.g (n.val + 1)).toNat else (scal x.g n.val).toNat
  | .k _ => 0
  | .zero => 0
  | .one => floatConst ty false 1 0
  | .half => floatConst ty false 1 (-1)
  | .two => floatConst ty false 1 1
  | .negOne => floatConst ty true 1 0
  | .lane => if tyFloat ty then floatConst ty false l 0 else l
  | .ones => if tyWide ty then 2 ^ 64 - 1 else 2 ^ 32 - 1

/-- n consecutive registers of a source, lowest first (R71): constants fill the operand's width (DEDUCED, log 15). -/
def rdRegs (x : GM) (o : Opd) (n l : Nat) : List W32 :=
  (List.range n).map (fun j =>
    match o with
    | .v k => readReg x (wbaseOf x.g + k.val + j) l
    | .s k => scal x.g (k.val + j)
    | .ones => BitVec.ofNat 32 (2 ^ 32 - 1)
    | .lane => if j = 0 then BitVec.ofNat 32 l else 0
    | .k _ | .zero | .one | .half | .two | .negOne => 0)

/-- The mask register a mask operand names. -/
def maskNo (o : Opd) : Nat :=
  match o with
  | .k n => n.val
  | .v _ | .s _ | .zero | .one | .half | .two | .negOne | .lane | .ones => 0

/-- Bit l of a mask operand. -/
def rdMask (g : Group) (o : Opd) (l : Nat) : Bool := kbit g (maskNo o) l

/-- The frame registers a vector operand of c registers spans (R62); none for other operands. -/
def opdRegs (g : Group) (o : Opd) (c : Nat) : List Nat :=
  match o with
  | .v n => (List.range c).map (fun j => wbaseOf g + n.val + j)
  | .s _ | .k _ | .zero | .one | .half | .two | .negOne | .lane | .ones => []

/-- The last frame register of a vector operand of c registers, window base included: the number that R62 tests; none for other operands (DEDUCED, log 13). -/
def opdTop (g : Group) (o : Opd) (c : Nat) : Option Nat :=
  match o with
  | .v n => if c = 0 then none else some (wbaseOf g + n.val + c - 1)
  | .s _ | .k _ | .zero | .one | .half | .two | .negOne | .lane | .ones => none

/-- The register number that failed R62's test, of the first operand beyond the frame (R279) (DEDUCED, log 13). -/
def frameFail (g : Group) (os : List (Opd × Nat)) : Option Nat :=
  (os.filterMap (fun o => opdTop g o.1 o.2)).find? (fun r => g.frame ≤ r)

/-! ## Destinations (R62, R63) -/

/-- Word j of a value. -/
def wordOf (x j : Nat) : W32 := BitVec.ofNat 32 (x >>> (32 * j))

/-- A value of n registers scheduled into a destination for each lane of a list: vector registers per lane, a scalar from the first lane, the zero code discards. -/
def schedDst (x : GM) (at' : Nat) (d : Opd) (n : Nat) (sn : Bool) (vs : List (Nat × Nat)) : GM :=
  match d with
  | .v k =>
    (List.range n).foldl (fun x j => sched x at' (.vreg (wbaseOf x.g + k.val + j) (vs.map (fun v => (v.1, wordOf v.2 j))) sn)) x
  | .s k =>
    match vs with
    | [] => x
    | (_, v) :: _ => (List.range n).foldl (fun x j => sched x at' (.sreg (k.val + j) (wordOf v j))) x
  | .k _ | .zero | .one | .half | .two | .negOne | .lane | .ones => x

/-- Whether a destination is a scalar. -/
def isScal (o : Opd) : Bool :=
  match o with
  | .s _ => true
  | .v _ | .k _ | .zero | .one | .half | .two | .negOne | .lane | .ones => false

/-- Where a value returned later goes, with the window base resolved (R62); sn says that a register is also written through to the frame as the value lands (R66). -/
def dstOf (g : Group) (d : Opd) (sn : Bool) : Dst :=
  match d with
  | .v k => .vec (wbaseOf g + k.val) sn
  | .s k => .scal k.val
  | .k _ | .zero | .one | .half | .two | .negOne | .lane | .ones => .none

/-- A returned value of some words written to its destination at once: per lane to a register, through to the frame under spill-now (R66), or once to a scalar (R222). -/
def putDst (x : GM) (d : Dst) (vs : List (Nat × List W32)) : GM :=
  match d with
  | .vec r sn => vs.foldl (fun x v => (List.range v.2.length).foldl (fun x j => putReg x (r + j) v.1 (nth v.2 j 0) sn) x) x
  | .scal n =>
    match vs with
    | [] => x
    | (_, ws) :: _ => { x with g := { x.g with scal := (List.range ws.length).foldl (fun sc j => sc.set (n + j) (nth ws j 0)) x.g.scal } }
  | .none => x

/-! ## Effective lanes and passes (R29, R67, R68) -/

/-- The lanes that a guard leaves effective, as the masks stand now (R67). -/
def effNow (g : Group) (gd : Guard) : Mask :=
  let k := if gd.pk = 0 then BitVec.allOnes 128 else nth g.masks gd.pk.toNat 0
  predOf g &&& (if gd.pn then ~~~k else k) &&& fullMask g.width

/-- The lanes of pass p (R29). -/
def passMask (p : Nat) : Mask := BitVec.ofNat 128 ((2 ^ 32 - 1) * 2 ^ (32 * p))

/-- How many passes a width takes (R29). -/
def passes (w : Nat) : Nat := ceilDiv w 32

/-- One pass's effective lanes with the registers they read, at the position at which the pass issues; a pass with none takes no position (R29, R56, R67). -/
def passReadsStep (gd : Guard) (st : GM × List (Nat × GM)) (p : Nat) : GM × List (Nat × GM) :=
  let y := landAt st.1 st.1.g.pos
  match lanesOf (effNow y.g gd &&& passMask p) with
  | [] => st
  | ls => ({ y with g := { y.g with pos := y.g.pos + 1 } }, st.2 ++ ls.map (fun l => (l, y)))

/-- The effective lanes of an instruction that reads pass by pass, each with the registers as they stand at its pass (R29, R56). -/
def passReads (x : GM) (gd : Guard) : List (Nat × GM) := ((List.range (passes x.g.width)).foldl (passReadsStep gd) (x, [])).2

/-- The effective lanes of an instruction that reads pass by pass (R29, R67). -/
def effPasses (x : GM) (gd : Guard) : Mask := maskOf ((passReads x gd).map (·.1))

/-- The registers that a lane's pass reads (R56). -/
def atPass (x : GM) (gd : Guard) (l : Nat) : GM := (((passReads x gd).find? (fun r => r.1 == l)).map (·.2)).getD x

/-- Words that hold one bit per lane (R175). -/
def maskWords (w : Nat) : Nat := ceilDiv w 32

/-- The lowest lane of a mask. -/
def lowLane (m : Mask) : Option Nat := (lanesOf m).head?

end Sys2Proof.Machine
end

