-- ==== Sys2Proof/Machine/Ops.lean ====
section
/-! DEFINITION. Sys2Proof/Machine/Ops.lean: named access to the parts of the state, the object table and pointer checks (R116-R119, R246, R429), code (R42-R44), and taking a trap and returning from one (R279-R286, R292, R304). -/

namespace Sys2Proof.Machine

/-! ## Parts of the state by number -/

/-- A list with what has number i changed. -/
def modBy {α : Type} (num : α → Nat) (l : List α) (i : Nat) (f : α → α) : List α := l.map (fun x => if num x = i then f x else x)

/-- A group by its number. -/
def getG (s : State) (i : Nat) : Option Group := s.groups.find? (fun g => g.id == i)
/-- A group changed. -/
def modG (s : State) (i : Nat) (f : Group → Group) : State := { s with groups := modBy Group.id s.groups i f }
/-- A context by its id. -/
def getC (s : State) (i : Nat) : Option Ctx := s.ctxs.find? (fun c => c.id == i)
/-- A context changed. -/
def modC (s : State) (i : Nat) (f : Ctx → Ctx) : State := { s with ctxs := modBy Ctx.id s.ctxs i f }
/-- A team by its id. -/
def getT (s : State) (i : Nat) : Option Team := s.teams.find? (fun t => t.id == i)
/-- A team changed. -/
def modT (s : State) (i : Nat) (f : Team → Team) : State := { s with teams := modBy Team.id s.teams i f }
/-- A grid by its id. -/
def getGrid (s : State) (i : Nat) : Option Grid := s.grids.find? (fun g => g.id == i)
/-- A grid changed. -/
def modGrid (s : State) (i : Nat) (f : Grid → Grid) : State := { s with grids := modBy Grid.id s.grids i f }
/-- A run changed. -/
def modRun (s : State) (i : Nat) (f : Run → Run) : State := { s with runs := modBy Run.id s.runs i f }
/-- A partition changed. -/
def modP (s : State) (i : Nat) (f : Part → Part) : State := { s with parts := s.parts.modify i f }
/-- A core changed. -/
def modCore (s : State) (i : Nat) (f : Core → Core) : State := { s with cores := s.cores.modify i f }
/-- A slice changed. -/
def modSlice (s : State) (c i : Nat) (f : Slice → Slice) : State := modCore s c (fun k => { k with slices := k.slices.modify i f })
/-- An operation in flight by its number. -/
def getOp (s : State) (i : Nat) : Option Op := s.ops.find? (fun o => o.id == i)
/-- An operation changed. -/
def modOp (s : State) (i : Nat) (f : Op → Op) : State := { s with ops := modBy Op.id s.ops i f }
/-- An operation removed. -/
def delOp (s : State) (i : Nat) : State := { s with ops := s.ops.filter (fun o => o.id != i) }
/-- A streamer request changed. -/
def modReq (s : State) (i : Nat) (f : Req → Req) : State := { s with reqs := modBy Req.id s.reqs i f }
/-- A matrix command changed. -/
def modCmd (s : State) (i : Nat) (f : MCmd → MCmd) : State := { s with mcmds := modBy MCmd.id s.mcmds i f }
/-- A ring packet changed. -/
def modPkt (s : State) (i : Nat) (f : Pkt → Pkt) : State := { s with pkts := modBy Pkt.id s.pkts i f }
/-- A die changed. -/
def modDie (s : State) (i : Nat) (f : Die → Die) : State := { s with dies := s.dies.modify i f }

/-- The state with memory m and group g put back. -/
def putGM (s : State) (x : GM) : State := { modG s x.g.id (fun _ => x.g) with mem := x.m }
/-- A group with the memory of the state. -/
def gmOf (s : State) (g : Group) : GM := ⟨g, s.mem⟩
/-- A group changed together with memory, by number. -/
def modGM (s : State) (i : Nat) (f : GM → GM) : State :=
  match getG s i with
  | none => s
  | some g => putGM s (f (gmOf s g))

/-- The context a group runs in. -/
def ctxOf (s : State) (g : Group) : Option Ctx := getC s g.ctx
/-- The core a context stands on; 0 where the context is gone. -/
def coreOfCtx (s : State) (c : Nat) : Nat := ((getC s c).map Ctx.core).getD 0
/-- The core a group stands on (R275: %CORE). -/
def coreOf (s : State) (g : Group) : Nat := coreOfCtx s g.ctx
/-- The partition of a group. -/
def partOf (s : State) (g : Group) : Nat := ((ctxOf s g).map Ctx.part).getD 0
/-- The physical stack of a group (R15). -/
def stackOf (s : State) (g : Group) : Nat := coreOf s g / Config.coresPerStack
/-- The grid of a group. -/
def gridOf (s : State) (g : Group) : Option Grid := (ctxOf s g).bind (fun c => getGrid s c.grid)
/-- The partition record. -/
def partAt (s : State) (p : Nat) : Part := nth s.parts p Part.reset
/-- The core record. -/
def coreAt (s : State) (c : Nat) : Core := nth s.cores c (Core.reset c)
/-- The next free number, and the state that has used it (DESIGN CHOICE, log 1). -/
def newId (s : State) : Nat × State := (s.nextId, { s with nextId := s.nextId + 1 })
/-- The compute dies' half of a stack (R12). -/
def halfOfStack (k : Nat) : Nat := if k ≤ 3 then 0 else 1
/-- The vector-scalar die of a stack (R12). -/
def vsDie (k : Nat) : Nat := 2 + 2 * k

/-- A dependency counter (R54). -/
def cntOf (g : Group) (d : Nat) : Nat := nth g.cnt d 0
/-- R54: a counter up by one. -/
def cntInc (g : Group) (d : Nat) : Group := { g with cnt := g.cnt.modify d (· + 1) }
/-- R54: a counter down by one. -/
def cntDec (g : Group) (d : Nat) : Group := { g with cnt := g.cnt.modify d (· - 1) }
/-- Every dependency counter reads zero (R61). -/
def cntZero (g : Group) : Bool := g.cnt.all (· == 0)

/-! ## The unified range and the object table (R428, R429) -/

/-- A granule's record; NONE where nothing is kept (R428). -/
def granAt (p : Part) (n : Nat) : Gran :=
  (p.grans.find? (fun g => g.num == n)).getD
    { num := n, state := .none, moving := none, pinned := false, psize := 0, advice := 0, missA := 0, missB := 0, hostAcc := 0 }

/-- A granule's record changed, made where there is none. -/
def modGran (p : Part) (n : Nat) (f : Gran → Gran) : Part :=
  if p.grans.any (fun g => g.num == n) then { p with grans := modBy Gran.num p.grans n f }
  else { p with grans := f (granAt p n) :: p.grans }

/-- Where a unified byte's contents stand: the host frame of a HOST granule, else the partition's own store (R428, R426). -/
def uniByteKey (p : Part) (part ua : Nat) : Nat :=
  match (granAt p (ua / 4096)).state with
  | .host hpa => hostKey (hpa + ua % 4096)
  | .none | .hbm _ | .tier2 _ => uniKey part ua

/-- n bytes of the unified range. -/
def uniRd (s : State) (part ua n : Nat) : List Byte :=
  (List.range n).map (fun i => memRd s.mem (uniByteKey (partAt s part) part (ua + i)))

/-- Whether n bytes at a place touch the 64-byte line of a watch (R322). -/
def watchHit (l : Loc) (n : Nat) (w : Watch) : Bool :=
  match l, w.loc with
  | .pool a, .pool b => decide (b < a + n) && decide (a < b + 64)
  | .uni p a, .uni q b => p == q && decide (b < a + n) && decide (a < b + 64)
  | _, _ => false

/-- R322: a write performed at a place triggers the armed watches on its lines. -/
def noteWrite (s : State) (l : Loc) (n : Nat) : State :=
  { s with groups := s.groups.map (fun g => match g.watch with
    | some w => if w.armed && w.trig.isNone && watchHit l n w then { g with watch := some { w with trig := some 0 } } else g
    | none => g) }

/-- Bytes put into the unified range, one by one. -/
def uniPut (s : State) (part ua : Nat) : List Byte → State
  | [] => s
  | b :: bs => uniPut { s with mem := memWr s.mem (uniByteKey (partAt s part) part ua) b } part (ua + 1) bs

/-- Bytes put into the unified range; watches see the write. -/
def uniSet (s : State) (part ua : Nat) (bs : List Byte) : State := noteWrite (uniPut s part ua bs) (.uni part ua) bs.length

/-- Bytes put into a pool; watches see the write. -/
def poolSet (s : State) (k : Nat) (bs : List Byte) : State := noteWrite { s with mem := memWrN s.mem k bs } (.pool k) bs.length

/-- A write that every later reader sees: no read looks behind it (R131) (DESIGN CHOICE, log 19). -/
def forget (s : State) (k n : Nat) : State := { s with past := s.past.filter (fun e => decide (e.key < k) || decide (k + n ≤ e.key)) }

/-- Bytes written to the unified range, seen by every later reader. -/
def uniWr (s : State) (part ua : Nat) (bs : List Byte) : State := uniSet (forget s (uniKey part ua) bs.length) part ua bs

/-- Bytes written to a pool, seen by every later reader. -/
def poolWr (s : State) (k : Nat) (bs : List Byte) : State := poolSet (forget s k bs.length) k bs

/-- An object-table entry that does not map. -/
def ObjEnt.unmapped (k : ObjKey) : ObjEnt := { key := k, valid := false, ubase := 0, len := 0, rights := 0, hint := none, psize := 0 }

/-- The bytes of a page size code (R429). -/
def pageBytes (ps : Nat) : Nat :=
  match ps with
  | 0 => 4096
  | 1 => 65536
  | _ => 2097152

/-- R429: an entry of 256 bits read as an object, or unmapped. -/
def objEntOf (p : Part) (obj x : Nat) : ObjEnt :=
  let ps := bits x 5 4
  let ub := bits x 120 64
  let len := bits x 191 128
  if bit x 6 && ps != 3 && bits x 63 7 == 0 && bits x 127 121 == 0 && bits x 255 197 == 0 && ub % pageBytes ps == 0 &&
      decide (ub + len ≤ p.ulim.toNat) && decide (obj < p.otcnt.toNat) && decide (len ≤ 2 ^ 36) then
    { key := .g obj, valid := true, ubase := ub, len := len, rights := BitVec.ofNat 4 (bits x 3 0),
      hint := if bit x 196 then some (bits x 195 192) else none, psize := ps }
  else ObjEnt.unmapped (.g obj)

/-- The object table's entry as it stands now (R429). -/
def objTable (s : State) (part obj : Nat) : ObjEnt :=
  let p := partAt s part
  objEntOf p obj (leValue (uniRd s part (p.otbase.toNat + 32 * obj) 32))

/-- What a lookup that misses the cache fetches: the object table's or the import table's entry (R246, R399). -/
def entFetch (s : State) (part : Nat) (k : ObjKey) : ObjEnt :=
  match k with
  | .g obj => objTable s part obj
  | .x _ _ | .m _ _ => ((partAt s part).imports.find? (fun e => e.key == k)).getD (ObjEnt.unmapped k)

/-- A core's copy of an entry (R246) (DEDUCED, log 35). -/
def objCached (s : State) (core : Nat) (k : ObjKey) : Option ObjEnt := (coreAt s core).objCache.find? (fun e => e.key == k)

/-- An entry made the most recently used, the least recently used of 256 given up (R246). -/
def objCachePut (s : State) (core : Nat) (e : ObjEnt) : State :=
  modCore s core (fun c => { c with objCache := (e :: c.objCache.filter (fun x => x.key != e.key)).take 256 })

/-! ## Pointer checks (R116-R119) -/

/-- R246: a use of a cached entry: it is the most recently used; an entry not cached is left to the fetch. -/
def objUse (s : State) (core : Nat) (k : ObjKey) : State :=
  match objCached s core k with
  | some e => objCachePut s core e
  | none => s

/-- R382: a use of a cached region record: it is the most recently used. -/
def regionUse (s : State) (core n : Nat) : State :=
  modCore s core (fun c => if c.regionCache.contains n then { c with regionCache := n :: c.regionCache.filter (· != n) } else c)

/-- The use of the table entry or region record that a pointer names counted for the replacement order of its cache (R246, R382). -/
def consult (s : State) (core part p : Nat) : State :=
  match ptrSpace p with
  | 1 => objUse s core (.g (ptrF1 p))
  | 4 => regionUse s core (part * 4096 + ptrF1 p)
  | 9 => objUse s core (.x (ptrF1 p) (ptrF2 p))
  | 10 => objUse s core (.m (ptrF1 p) (ptrF2 p))
  | _ => s

/-- The table entries and region records that several pointers of a group name, consulted in turn (R246, R382). -/
def consultAll (s : State) (g : Group) (ps : List Nat) : State := ps.foldl (fun s p => consult s (coreOf s g) (partOf s g) p) s

/-- The result of a check: a place, a fault, or a table entry or region record that the core must fetch first (R246, R382). -/
inductive PtrRes where
  | ok (loc : Loc)
  | bad
  | missObj (k : ObjKey)
  | missRegion (r : Nat)
  deriving DecidableEq, Repr

/-- A pointer with no bit set outside its space's fields (R116, R117). -/
def ptrClean (p : Nat) : Bool :=
  match ptrSpace p with
  | 1 | 9 | 10 => true
  | 2 | 3 => bits p 59 52 == 0 && bits p 47 32 == 0
  | 4 => true
  | 5 => bits p 59 56 == 0 && bits p 47 32 == 0
  | 6 => bits p 59 52 == 0 && bits p 47 19 == 0
  | 7 => bits p 59 52 == 0 && bits p 47 20 == 0
  | 8 => bits p 59 57 == 0
  | _ => false

/-- The context of a team at a logical core rank (R119). -/
def ctxAtRank (s : State) (team rank : Nat) : Option Ctx := s.ctxs.find? (fun c => c.team == team && c.rank == rank && c.state != .free)

/-- A lattice region of a partition (R378). -/
def regionAt (s : State) (part r : Nat) : Option Region := (partAt s part).regions.find? (fun x => x.num == r)

/-- Bytes of a cell of a region type (R374). -/
def cellBytes (ty : Nat) : Nat :=
  match ty with
  | 0 | 2 | 3 => 4
  | 6 => 64
  | _ => 8

/-- Whether a range lies within one reservation of a team on a core (R346). -/
def resvHolds (c : Core) (team : Nat) (isAcc : Bool) (base n : Nat) : Bool :=
  c.resvs.any (fun r => r.team == team && r.isAcc == isAcc && r.releasing.isNone && decide (r.base ≤ base) && decide (base + n ≤ r.base + r.len))

/-- Whether entry e grants n bytes at off with the rights asked for. -/
def entGrants (e : ObjEnt) (off n : Nat) (rights : BitVec 4) : Bool := e.valid && decide (off + n ≤ e.len) && (e.rights &&& rights) == rights

/-- R117: n bytes at a pointer for a group, with the rights of R246; acc says whether an A pointer is legal here (engine operands) (DEDUCED, log 35). -/
def checkPtr (s : State) (g : Group) (p n : Nat) (rights : BitVec 4) (acc : Bool) : PtrRes :=
  let part := partOf s g
  let core := coreOf s g
  let off := ptrOff p
  let paired := ((getT s g.team).map Team.paired).getD false
  let rank := ptrF1 p
  let rankOk := if paired then decide (rank ≤ 1) else rank == 0
  let myRank := ((ctxOf s g).map Ctx.rank).getD 0
  let fromEnt := fun k => match objCached s core k with
    | none => PtrRes.missObj k
    | some e =>
      if entGrants e off n rights then
        .ok (match k with
          | .g _ => .uni part (e.ubase + off)
          | .x m o => .peer m o off
          | .m gr o => .mcast gr o off)
      else .bad
  if !ptrClean p then .bad
  else match ptrSpace p with
    | 1 => fromEnt (.g (ptrF1 p))
    | 2 =>
      if rankOk && rank == myRank then
        match ctxOf s g with
        | some c => if off + n ≤ c.scratch then .ok (.pool (scrKey c.id off)) else .bad
        | none => .bad
      else .bad
    | 3 =>
      if rankOk then
        match ctxAtRank s g.team rank with
        | some c => if off + n ≤ c.scratch then .ok (.pool (scrKey c.id off)) else .bad
        | none => .bad
      else .bad
    | 4 =>
      if (coreAt s core).regionCache.contains (part * 4096 + rank) || g.fetched.contains (part * 4096 + rank) then
        match regionAt s part rank with
        | some r => if off + n ≤ r.cells * cellBytes r.ty then .ok (.lat part rank off) else .bad
        | none => .bad
      else .missRegion rank
    | 5 =>
      match s.groups.find? (fun h => h.team == g.team && h.idx == rank && !h.left) with
      | some h => if off + n ≤ 4 * h.frame * h.width then .ok (.pool (frameKey h.id off)) else .bad
      | none => .bad
    | 6 =>
      if rankOk then
        match ctxAtRank s g.team rank with
        | some c => if resvHolds (coreAt s c.core) g.team false off n then .ok (.pool (obufKey (coreAt s c.core).img off)) else .bad
        | none => .bad
      else .bad
    | 7 =>
      if acc && rankOk then
        match ctxAtRank s g.team rank with
        | some c => if resvHolds (coreAt s c.core) g.team true off n then .ok (.pool (accKey (coreAt s c.core).img off)) else .bad
        | none => .bad
      else .bad
    | 8 => if off + n ≤ (partAt s part).ulim.toNat then .ok (.uni part off) else .bad
    | 9 => if (partAt s part).member.isSome then fromEnt (.x (ptrF1 p) (ptrF2 p)) else .bad
    | 10 =>
      match (partAt s part).member with
      | none => .bad
      | some me =>
        if (partAt s part).groups.any (fun mg => mg.num == ptrF1 p && mg.members.contains me) then fromEnt (.m (ptrF1 p) (ptrF2 p)) else .bad
    | _ => .bad

/-- A place moved by an offset. -/
def locShift (l : Loc) (d : Int) : Loc :=
  match l with
  | .pool k => .pool ((k : Int) + d).toNat
  | .uni p ua => .uni p ((ua : Int) + d).toNat
  | .lat p r o => .lat p r ((o : Int) + d).toNat
  | .peer m o x => .peer m o ((x : Int) + d).toNat
  | .mcast g o x => .mcast g o ((x : Int) + d).toNat

/-- A place moved up. -/
def locUp (l : Loc) (n : Nat) : Loc := locShift l (n : Int)

/-- Whether n bytes at a key touch a line of device memory or a word of a core's memories with an uncorrectable error (R371, R441). -/
def badKey (s : State) (k n : Nat) : Bool :=
  let device := keySpace k == 5 || keySpace k == 6
  s.poison.any (fun b => match b with
    | .mem l => device && decide (k / 128 ≤ l) && decide (l ≤ (k + n - 1) / 128)
    | .word w => !device && decide (k / 32 ≤ w) && decide (w ≤ (k + n - 1) / 32)
    | .replica _ _ _ _ => false)

/-- Whether n bytes at a place touch a line with an uncorrectable error (R279, R441). -/
def badLine (s : State) (l : Loc) (n : Nat) : Bool :=
  match l with
  | .pool k => badKey s k n
  | .uni p ua => badKey s (uniByteKey (partAt s p) p ua) n
  | .lat _ _ _ | .peer _ _ _ | .mcast _ _ _ => false

/-- The bytes at a pool or unified place; other places read as zeros here. -/
def locRd (s : State) (l : Loc) (n : Nat) : List Byte :=
  match l with
  | .pool k => memRdN s.mem k n
  | .uni p ua => uniRd s p ua n
  | .lat _ _ _ | .peer _ _ _ | .mcast _ _ _ => List.replicate n 0

/-- Bytes put at a pool or unified place. -/
def locSet (s : State) (l : Loc) (bs : List Byte) : State :=
  match l with
  | .pool k => poolSet s k bs
  | .uni p ua => uniSet s p ua bs
  | .lat _ _ _ | .peer _ _ _ | .mcast _ _ _ => s

/-- Bytes written at a pool or unified place. -/
def locWr (s : State) (l : Loc) (bs : List Byte) : State :=
  match l with
  | .pool k => poolWr s k bs
  | .uni p ua => uniWr s p ua bs
  | .lat _ _ _ | .peer _ _ _ | .mcast _ _ _ => s

/-! ## Code (R42-R44) -/

/-- The object number of a grid's code (R449). -/
def codeObj (gr : Grid) : Nat := ptrF1 gr.lr.code.toNat

/-- The code object's entry as a core's lookup gives it, or the key to fetch. -/
def codeEnt (s : State) (core : Nat) (gr : Grid) : Option ObjEnt := objCached s core (.g (codeObj gr))

/-- Whether the word at an offset lies in the code object with the execute right (R43). -/
def codeOk (e : ObjEnt) (off : Nat) : Bool := entGrants e off 8 4

/-- A 64-byte code line as the grid's fetch has it (R44). -/
def icLine (gr : Grid) (n : Nat) : Option (List Byte) := (gr.icache.find? (fun l => l.1 == n)).map (·.2)

/-- The word at a code offset: the fetched line's, else memory's (R42, R44). -/
def codeWord (s : State) (gr : Grid) (e : ObjEnt) (off : Nat) : W64 :=
  match icLine gr (off / 64) with
  | some bs => BitVec.ofNat 64 (leValue ((bs.drop (off % 64)).take 8))
  | none => BitVec.ofNat 64 (leValue (uniRd s gr.part (e.ubase + off) 8))

/-- The size of a grid's code object as its table entry gives it. -/
def codeLen (s : State) (gr : Grid) : Nat := (objTable s gr.part (codeObj gr)).len

/-- Whether an offset may be a target: a multiple of 8 within the code object (R72, R260). -/
def targetOk (s : State) (gr : Grid) (t : Int) : Bool := decide (0 ≤ t) && t % 8 == 0 && decide (t + 8 ≤ (codeLen s gr : Int))

/-! ## Taking a trap (R279-R285, R304) -/

/-- The cause codes of R279. -/
inductive Cause where
  | illegalInstr | illegalClause | privilegedInstr | frameRange | capability | misalignedAtomic | nonMonotone | intDivide
  | floatExc | feedRights | callDepth | returnEmpty | poolExhausted | poolState | translation | memError | userTrap | throttle
  | engineReq
  deriving DecidableEq, Repr

/-- A cause's code (R279). -/
def causeCode (c : Cause) : Nat :=
  match c with
  | .illegalInstr => 0x01
  | .illegalClause => 0x02
  | .privilegedInstr => 0x03
  | .frameRange => 0x04
  | .capability => 0x05
  | .misalignedAtomic => 0x06
  | .nonMonotone => 0x07
  | .intDivide => 0x08
  | .floatExc => 0x09
  | .feedRights => 0x0A
  | .callDepth => 0x0B
  | .returnEmpty => 0x0C
  | .poolExhausted => 0x0D
  | .poolState => 0x0E
  | .translation => 0x0F
  | .memError => 0x10
  | .userTrap => 0x11
  | .throttle => 0x12
  | .engineReq => 0x13

/-- R304: the causes that no handler receives. -/
def forcedTrap (cause sub : Nat) : Bool := cause == 0x03 || (cause == 0x10 && sub == 1)

/-- Whether the word at the handler entry is a header (R284). -/
def handlerEntryOk (s : State) (g : Group) : Bool :=
  match gridOf s g with
  | none => false
  | some gr =>
    let e := objTable s gr.part (codeObj gr)
    codeOk e g.hEntry && (headerOf (codeWord s gr e g.hEntry).toNat).isSome

/-- Whether a trap of this cause goes to the group's user handler (R283, R284). -/
def toUser (s : State) (g : Group) (cause sub : Nat) : Bool :=
  g.hMask.getLsbD cause && !g.hMode && !forcedTrap cause sub && decide (wbaseOf g + g.hShift < g.frame) && handlerEntryOk s g

/-- R284, R285: DOUBLE is set for a trap in handler mode, and for one whose handler cannot be entered. -/
def trapDouble (g : Group) (cause sub : Nat) : Bool :=
  g.hMode || (g.hMask.getLsbD cause && !forcedTrap cause sub)

/-- Granules released on a core; the grows that wait there may ask again (R245). -/
def giveGrans (k : Core) (n : Nat) : Core := { k with free := k.free + n, freed := k.freed || !k.stalled.isEmpty }

/-- The trap record of a cause at a point (R281). -/
def trapRec (g : Group) (cause sub : Nat) (lanes : Mask) (addr word : W64) (pc resume : Nat) (dbl handled : Bool) : TrapRec :=
  { active := predOf g, cause := cause, sub := sub, dbl := dbl, handled := handled, wbase := wbaseOf g, resume := resume,
    lanes := lanes, addr := addr, word := word, pc := pc }

/-- TAKING A TRAP: every scheduled write lands, the record is written, and either the handler fibre takes over (R284) or the grid is marked to be killed (R283, R303). rem is the clause the trapped fibre finishes after TRET (R286). -/
def takeTrap (s : State) (gid : Nat) (cause sub : Nat) (lanes : Mask) (addr word : W64) (pc resume : Nat) (rem : Option Clause) : State :=
  match getG s gid with
  | none => s
  | some g0 =>
    let x := landAll (gmOf s g0)
    let g := x.g
    let user := toUser s g cause sub
    let rec1 := trapRec g cause sub lanes addr word pc resume (!user && trapDouble g cause sub) user
    if user then
      putGM s { x with g := { g with
        trec := rec1, trapCount := g.trapCount + 1, hMode := true, trapDue := none, pos := 0, phase := .header, park := .none,
        pendTraps := g.pendTraps.map (fun p => { p with kept := true }),
        trapped := g.cur.map (fun f => { f with pc := resume, rem := rem }), trapRets := g.rets,
        cur := some { pc := g.hEntry, pred := predOf g, wbase := wbaseOf g + g.hShift, waitc := 0, wake := none, hnd := true, rem := none } } }
    else
      let s := putGM s { x with g := { g with trec := rec1, trapDue := none } }
      match ctxOf s g with
      | none => s
      | some c => modGrid s c.grid (fun gr => { gr with killDue := true, rec1 := gr.rec1.or (some rec1) })

/-- The lanes of a group's live handler fibres, those of continuations that a handler registered and that have fired among them (R284, R292, R319) (DESIGN CHOICE, log 79). -/
def handlerLanes (g : Group) : Mask :=
  (g.firing.filter ContRec.hnd).foldl (fun m k => m ||| k.pred)
    ((g.fibres.filter Fibre.hnd).foldl (fun m f => m ||| f.pred) ((g.cur.filter Fibre.hnd).map Fibre.pred |>.getD 0))

/-- The lanes registered in continuations that have not fired (R250) (DESIGN CHOICE, log 79). -/
def contLanes (g : Group) : Mask := g.conts.foldl (fun m c => m ||| c.pred) 0

/-- The return stacks after TRET: those of the trap in the lanes that resume (R286). -/
def restoreRets (g : Group) (pred : Mask) : List (List RetEnt) :=
  g.rets.zipIdx.map (fun r => if pred.getLsbD r.2 then nth g.trapRets r.2 r.1 else r.1)

/-- RETURNING FROM A TRAP (R286, R292): handler mode ends, every handler fibre is discarded, and the trapped fibre goes on at a point, within a clause where rem says so. Lanes that handler fibres ended by FEND are restored to it; lanes that exited or registered are not, and lanes that the handler had spawned are idle again (DESIGN CHOICE, log 79). -/
def returnTrap (g : Group) (resume : Nat) (rem : Option Clause) : Group :=
  let pred := ((g.trapped.map Fibre.pred).getD 0) &&& ~~~g.exited &&& ~~~(contLanes g)
  let f := if pred = 0 then none else g.trapped.map (fun f => { f with pc := resume, rem := none, pred := pred })
  { g with
    hMode := false, trapped := none, rets := restoreRets g pred, trapRets := [], pendTraps := g.pendTraps.map (fun p => { p with kept := false }),
    conts := g.conts.map (fun k => { k with hnd := false }), fibres := g.fibres.filter (fun h => !h.hnd), firing := g.firing.filter (fun k => !k.hnd),
    idle := (g.idle ||| handlerLanes g) &&& ~~~pred &&& ~~~g.exited &&& ~~~(contLanes g),
    cur := f, pos := 0,
    phase := match f, rem with
      | none, _ => .boundary false false
      | some _, some c => .inClause c
      | some _, none => .header }

end Sys2Proof.Machine
end

