-- ==== Sys2Proof/Machine/Fresh.lean ====
section
/-! DEFINITION. Sys2Proof/Machine/Fresh.lean: groups, teams, contexts and grids as placement and the command front make them (R26, R27, R81, R293, R459). -/

namespace Sys2Proof.Machine

/-- The lane masks of a group whose k1 to k7 are 0 (R154). -/
def masks0 : List Mask := List.replicate 8 0

/-- A group as placement leaves it (R27, R30, R81, R213), in a slot. -/
def freshGroup (id ctx team idx role width frame depth : Nat) (feed agent : Bool) (slot : Option SlotAt) (entry : Nat) : Group :=
  { id := id, ctx := ctx, team := team, idx := idx, role := role, width := width, frame := frame, depth := depth, feed := feed,
    agent := agent, slot := slot, ended := false, left := false, halted := false,
    cur := some { pc := entry, pred := fullMask width, wbase := 0, waitc := 0, wake := none, hnd := false, rem := none },
    fibres := [], idle := 0, exited := 0, conts := [], firing := [], rets := List.replicate width [],
    scal := List.replicate 48 0, masks := masks0, cnt := List.replicate 8 0, pos := 0, pend := [], phase := .header,
    park := .none, waitEntry := false, swDue := false, flags := 0, trapen := 0, scopeflag := false, hintmiss := 0,
    hEntry := 0, hMask := 0, hShift := 0, hMode := false, trec := TrapRec.zero, trapped := none, trapRets := [], trapCount := 0,
    pendTraps := [], held := none, armed := false, trapDue := none, watch := none, oc := none, xf := [], fetched := [], born := 0, readBy := [], regPast := [], lastTime := 0,
    ready := 0, waited := 0, urgent := none, suspect := false, suspects := 0, tried := false, cls := 0, image := [] }

/-- A team as placement leaves it (R26). -/
def freshTeam (id grid idx share stack : Nat) (paired : Bool) : Team :=
  { id := id, grid := grid, idx := idx, paired := paired, share := share, stack := stack, ended := false, veers := 0,
    holdEnd := 0, lastSeen := false, tInst := 0, tArr := [], sInst := 0, sArr := [], sDone := false, gInst := 0, gArr := [],
    gDone := false }

/-- A context as placement leaves it (R293, R294). -/
def freshCtx (id num part stack core rank team grid scratch l1w gran : Nat) (save : W64) : Ctx :=
  { id := id, num := num, part := part, stack := stack, core := core, rank := rank, team := team, grid := grid,
    state := .running, faulted := false, saveArea := save, incarn := 0, scratch := scratch, l1w := l1w, l1 := [],
    gran := gran, evicted := 0, spill := [], savedAt := 0, haltReq := false, saveReq := false, imaging := false }

/-- A live grid as the command front starts it (R459). -/
def freshGrid (id num part run node : Nat) (lr : Launch) (shares : List Nat) : Grid :=
  { id := id, num := num, part := part, run := run, node := node, lr := lr, shares := shares, ticket := 0, returned := [],
    bound := 0, endedTeams := 0, sDone := List.replicate shares.length 0, gDone := 0, gust := none, killDue := false, killed := false,
    status := 0, rec1 := none, progress := 0, killAt := none, preDone := none, icache := [] }

end Sys2Proof.Machine
end

