-- ==== Sys2Proof/Machine/Flags.lean ====
section
/-! DEFINITION. Sys2Proof/Machine/Flags.lean: the float exceptions as they reach %FLAGS and the float-exception trap (R111, R184-R187). -/

namespace Sys2Proof.Machine

/-- The exceptions a group has enabled (R185). -/
def enabledOf (g : Group) (fl : Flags) : Flags := fl &&& g.trapen

/-- R111: the recorded exception's bit number, the first enabled one in the order invalid, division by zero, overflow, underflow, inexact. -/
def firstFlag (fl : Flags) : Nat := ((List.range 5).find? (fun i => fl.getLsbD i)).getD 0

/-- R186: the flags of a list of lanes, ORed. -/
def orFlags (fs : List (Nat × Flags)) : Flags := fs.foldl (fun a f => a ||| f.2) 0

/-- R187: the lanes that raised an enabled exception. -/
def faultingLanes (g : Group) (fs : List (Nat × Flags)) : List Nat := (fs.filter (fun f => enabledOf g f.2 != 0)).map (·.1)

/-- R187: the enabled exceptions over all lanes. -/
def enabledAll (g : Group) (fs : List (Nat × Flags)) : Flags := enabledOf g (orFlags fs)

/-- A flag update scheduled with its pass's results (R186). -/
def schedFlags (x : GM) (at' : Nat) (fs : List (Nat × Flags)) : GM :=
  if orFlags fs = 0 then x else sched x at' (.flagsOr (orFlags fs))

end Sys2Proof.Machine
end

