-- ==== Sys2Proof/Machine/Issue.lean ====
section
/-! DEFINITION. Sys2Proof/Machine/Issue.lean: issuing one instruction of a clause: the entry set, the end of an instruction, precise traps, and the three ways lanes are read and written over passes (R29, R52-R62, R172, R187, R219-R223, R487). -/

namespace Sys2Proof.Machine

/-- What every meaning answers. -/
abbrev Out := Host.Outcome State Fault Refusal

/-- The code offset of the instruction a clause is at (R42). -/
def pcOf (c : Clause) : Nat := c.h + 8 * (c.idx + 1)
/-- The offset of the clause after a clause (R49). -/
def fallThrough (c : Clause) : Nat := c.h + 8 * (c.cnt + 1)
/-- Where the machine goes on after the instruction a clause is at: offset, and the clause where it is not the last (R279 "next"). -/
def nextPoint (c : Clause) : Nat × Option Clause :=
  if c.idx + 1 < c.cnt then (pcOf c + 8, some { c with idx := c.idx + 1 }) else (fallThrough c, none)

/-- Blocks of the operand cache an entry set takes (R219). -/
def ocBlocks (w : Nat) : Nat := 8 * ceilDiv w 32

/-- Blocks that the sets of a slice's groups hold (R219). -/
def blocksUsed (s : State) (core slice : Nat) : Nat :=
  (s.groups.filter (fun h => h.oc.isSome && (match h.slot with
    | some a => a.core == core && a.slice == slice
    | none => false))).foldl (fun n h => n + ocBlocks h.width) 0

/-- Whether a group can take its entry set now (R219): it holds one, or enough blocks of its slice are free and it is first in line. -/
def canAcquire (s : State) (g : Group) : Bool :=
  g.oc.isSome || (match g.slot with
    | none => true
    | some a =>
      decide (blocksUsed s a.core a.slice + ocBlocks g.width ≤ 128) &&
        (match (nth (coreAt s a.core).slices a.slice Slice.reset).waiters with
          | [] => true
          | w :: _ => w == g.id))

/-- The group waits in its slice's line for blocks (R219). -/
def waitBlocks (s : State) (g : Group) : State :=
  match g.slot with
  | none => s
  | some a => modSlice s a.core a.slice (fun sl => if sl.waiters.contains g.id then sl else { sl with waiters := sl.waiters ++ [g.id] })

/-- The group takes its entry set and leaves the line (R219). -/
def takeSet (s : State) (g : Group) : State × Group :=
  if g.oc.isSome then (s, g)
  else
    let g' := { g with oc := some ocEmpty }
    let s := modG s g.id (fun _ => g')
    (match g.slot with
      | none => s
      | some a => modSlice s a.core a.slice (fun sl => { sl with waiters := sl.waiters.filter (· != g.id) }), g')

/-- The group whose turn it is, inside a clause: its entry set is taken first (R219); with no blocks free it waits. -/
def withIssue (s : State) (k : State → Group → Clause → Out) : Out :=
  match s.cur.bind (getG s) with
  | none => .fault .noIssuingGroup
  | some g =>
    match g.phase with
    | .inClause c =>
      if canAcquire s g then k (takeSet s g).1 (takeSet s g).2 c else .next (waitBlocks s g)
    | .boundary _ _ | .header | .asleep => .fault .noIssuingGroup

/-- The group after an instruction: the next instruction, or the boundary with the fibre at the fall-through clause (R49); SW parks it (R61). -/
def advance (g : Group) (c : Clause) (sw : Bool) : Group :=
  let g := if sw then { g with park := .sw, fetched := [] } else { g with park := .none, fetched := [] }
  if c.idx + 1 < c.cnt then { g with phase := .inClause { c with idx := c.idx + 1 } }
  else { g with phase := .boundary false false, cur := g.cur.map (fun f => { f with pc := fallThrough c }) }

/-- The state after an instruction that ended normally. -/
def finish1 (s : State) (x : GM) (c : Clause) (sw : Bool) : State := putGM s { x with g := advance x.g c sw }

/-- A stall (R57): nothing of the instruction has happened; it is tried again. -/
def stallOut (s : State) (g : Group) (p : Park) : Out := .next (modG s g.id (fun g => { g with park := p, tried := false }))

/-- A group parked behind an instruction that has issued; its switch marker's wait comes after (R61). -/
def parkAt (g : Group) (p : Park) (sw : Bool) : Group := { g with park := p, swDue := sw }

/-- A parked group goes on, through its switch marker's wait where it has one (R61). -/
def unpark (g : Group) : Group := { g with park := if g.swDue then .sw else .none, swDue := false }

/-- A precise trap of the instruction a clause is at (R52). -/
def trapOut (s : State) (g : Group) (c : Clause) (word : W64) (cause : Cause) (sub : Nat) (lanes : Mask) (addr : W64) : Out :=
  .next (takeTrap s g.id (causeCode cause) sub lanes addr word (pcOf c) (pcOf c) (some c))

/-- The effective lanes of an instruction, each pass's as its guard stands at its own position (R29, R67). -/
def effAt (s : State) (g : Group) (gd : Guard) : Mask := effPasses (landAt (gmOf s g) g.pos) gd

/-- The effective lanes of an instruction that reads everything at its first issued pass (R73, R487). -/
def effFirst (s : State) (g : Group) (gd : Guard) : Mask := effNow (landAt (gmOf s g) g.pos).g gd

/-- A decode trap: illegal-instruction over the effective lanes (R52, R279). -/
def illegalOut (s : State) (g : Group) (c : Clause) (gd : Guard) (word : W64) : Out :=
  trapOut s g c word .illegalInstr 0 (effAt s g gd) 0

/-- The frame-range trap of a register (R62, R279) (DEDUCED, log 13). -/
def frameOut (s : State) (g : Group) (c : Clause) (gd : Guard) (word : W64) (r : Nat) : Out :=
  trapOut s g c word .frameRange 0 (effAt s g gd) (BitVec.ofNat 64 r)

/-! ## Lane instructions -/

/-- How a source operand is read: not at all, under a type, under a type without a touch (a data operand of the pool class, R222), as n registers, or as a mask. -/
inductive Rd where
  | no
  | val (ty : Ty)
  | cold (ty : Ty)
  | regs (n : Nat)
  | msk
  deriving DecidableEq, Repr

/-- What an instruction writes: nothing, n registers of D, the mask D, or n registers of D and the mask C. -/
inductive Wr where
  | no
  | val (n : Nat)
  | msk
  | valK (n : Nat)
  deriving DecidableEq, Repr

/-- How an instruction reads its operands and writes its destination, and its latency (R155, R182). -/
structure LaneSpec where
  a : Rd
  b : Rd
  c : Rd
  d : Wr
  lat : Nat
  deriving DecidableEq, Repr

/-- What one lane reads. -/
structure LaneIn where
  l : Nat
  w : Nat
  a : Nat
  b : Nat
  c : Nat
  ka : Bool
  kb : Bool
  kc : Bool
  kd : Bool
  deriving DecidableEq, Repr

/-- What one lane writes: D's bits, the bit of mask D, the bit of mask C, its exceptions. -/
structure LaneOut where
  d : Nat
  k : Bool
  kc : Bool
  fl : Flags
  deriving DecidableEq, Repr

/-- A lane's result that is a value. -/
def outV (d : Nat) : LaneOut := ⟨d, false, false, 0⟩
/-- A lane's result that is a value with exceptions. -/
def outF (r : Nat × Flags) : LaneOut := ⟨r.1, false, false, r.2⟩
/-- A lane's result that is a mask bit. -/
def outK (k : Bool) : LaneOut := ⟨0, k, false, 0⟩

/-- Registers a source spans. -/
def rdCount (r : Rd) : Nat :=
  match r with
  | .no => 0
  | .msk => 0
  | .regs n => n
  | .val ty | .cold ty => if tyWide ty then 2 else 1

/-- Registers of a source that its read touches (R220, R222). -/
def touchCount (r : Rd) : Nat :=
  match r with
  | .cold _ => 0
  | .no | .msk | .regs _ | .val _ => rdCount r

/-- Registers a destination spans. -/
def wrCount (w : Wr) : Nat :=
  match w with
  | .no => 0
  | .msk => 0
  | .val n => n
  | .valK n => n

/-- One source of one lane. -/
def rdBy (x : GM) (r : Rd) (o : Opd) (l : Nat) : Nat :=
  match r with
  | .no => 0
  | .msk => 0
  | .regs n => packElems 32 ((rdRegs x o n l).map BitVec.toNat)
  | .val ty | .cold ty => rdOpd x o ty l

/-- Everything one lane reads. -/
def readIn (x : GM) (f : FormR) (sp : LaneSpec) (l : Nat) : LaneIn :=
  { l := l, w := x.g.width, a := rdBy x sp.a f.a l, b := rdBy x sp.b f.b l, c := rdBy x sp.c f.c l,
    ka := rdMask x.g f.a l, kb := rdMask x.g f.b l, kc := rdMask x.g f.c l, kd := rdMask x.g f.d l }

/-- The operands checked against the frame (R62). -/
def laneOpds (f : FormR) (sp : LaneSpec) : List (Opd × Nat) :=
  [(f.a, rdCount sp.a), (f.b, rdCount sp.b), (f.c, rdCount sp.c), (f.d, wrCount sp.d)]

/-- The source registers touched, in the order of R220. -/
def srcRegs (g : Group) (f : FormR) (sp : LaneSpec) : List Nat :=
  opdRegs g f.a (touchCount sp.a) ++ opdRegs g f.b (touchCount sp.b) ++ opdRegs g f.c (touchCount sp.c)

/-- The registers under a last-use mark (R66). -/
def luRegs (g : Group) (f : FormR) (sp : LaneSpec) : List Nat :=
  (if f.lu.getLsbD 2 then opdRegs g f.a (rdCount sp.a) else []) ++
  (if f.lu.getLsbD 1 then opdRegs g f.b (rdCount sp.b) else []) ++
  (if f.lu.getLsbD 0 then opdRegs g f.c (rdCount sp.c) else [])

/-- Marked registers dropped (R223). -/
def dropLu (x : GM) (f : FormR) (sp : LaneSpec) : GM := (luRegs x.g f sp).foldl dropReg x
/-- Sources touched (R220). -/
def touchSrc (x : GM) (f : FormR) (sp : LaneSpec) : GM := (srcRegs x.g f sp).foldl (fun x r => touchReg x true r) x
/-- The vector destination touched; it is filled unless every lane is effective (R221). -/
def touchDst (x : GM) (f : FormR) (sp : LaneSpec) (eff : Mask) : GM :=
  (opdRegs x.g f.d (wrCount sp.d)).foldl (fun x r => touchReg x (eff != fullMask x.g.width) r) x

/-- Whether a lane keeps its old destination (R187). -/
def faults (g : Group) (o : LaneOut) : Bool := enabledOf g o.fl != 0

/-- The results of one pass scheduled: D or mask D and mask C in the lanes that raised no enabled exception, the exceptions of all (R56, R186, R187). first says whether a scalar D is written here (R29). -/
def laneSched (x : GM) (f : FormR) (sp : LaneSpec) (at' : Nat) (first : Bool) (outs : List (Nat × LaneOut)) : GM :=
  let good := outs.filter (fun o => !faults x.g o.2)
  let vals := (if isScal f.d then (if first then (outs.take 1).filter (fun o => !faults x.g o.2) else []) else good).map (fun o => (o.1, o.2.d))
  let x1 := match sp.d with
    | .no => x
    | .val n => schedDst x at' f.d n f.sn vals
    | .msk => sched x at' (.kreg (maskNo f.d) (good.map (fun o => (o.1, o.2.k))))
    | .valK n => sched (schedDst x at' f.d n f.sn vals) at' (.kreg (maskNo f.c) (good.map (fun o => (o.1, o.2.kc))))
  schedFlags x1 at' (outs.map (fun o => (o.1, o.2.fl)))

/-- The position counter up by n (R55). -/
def bump (x : GM) (n : Nat) : GM := { x with g := { x.g with pos := x.g.pos + n } }

/-- An instruction part-way through its passes: whether one has issued, and the exceptions so far. -/
structure PassSt where
  x : GM
  started : Bool
  fl : List (Nat × Flags)
  deriving DecidableEq, Repr

/-- One pass of an instruction whose passes read at their own positions (R29, R56). -/
def lanePass (f : FormR) (sp : LaneSpec) (body : Group → LaneIn → LaneOut) (st : PassSt) (p : Nat) : PassSt :=
  let x := landAt st.x st.x.g.pos
  let all := effNow x.g f.gd
  let eff := lanesOf (all &&& passMask p)
  if eff.isEmpty then (if x.g.width ≤ 32 then { st with x := bump x 1 } else st)
  else
    let x1 := if st.started then x else touchSrc x f sp
    let outs := eff.map (fun l => (l, body x1.g (readIn x1 f sp l)))
    let x2 := if st.started then x1 else touchDst (if x1.g.width ≤ 32 then dropLu x1 f sp else x1) f sp all
    { x := bump (laneSched x2 f sp (x2.g.pos + sp.lat) (!st.started) outs) 1, started := true,
      fl := st.fl ++ outs.map (fun o => (o.1, o.2.fl)) }

/-- All passes of such an instruction. -/
def lanePasses (x : GM) (f : FormR) (sp : LaneSpec) (body : Group → LaneIn → LaneOut) : PassSt :=
  let st := (List.range (passes x.g.width)).foldl (lanePass f sp body) ⟨landAt x x.g.pos, false, []⟩
  if st.started && decide (32 < x.g.width) then { st with x := dropLu st.x f sp } else st

/-- The state after a lane instruction; an enabled exception leaves the float-exception trap due (R187). -/
def laneDone (s : State) (c : Clause) (gd : Guard) (word : W64) (st : PassSt) : State :=
  let g := st.x.g
  let due := if enabledAll g st.fl = 0 then none
    else some (trapRec g (causeCode .floatExc) (firstFlag (enabledAll g st.fl)) (maskOf (faultingLanes g st.fl)) 0 word (pcOf c) (nextPoint c).1 false false)
  putGM s { st.x with g := { advance g c gd.sw with trapDue := due } }

/-- A lane instruction's answer: its next state. -/
def laneEnd (s : State) (c : Clause) (gd : Guard) (word : W64) (st : PassSt) : Out := .next (laneDone s c gd word st)

/-- A lane instruction that issues pass by pass, with a body that may look at the group. dyn is the illegal-instruction rule that needs the width (R53 check 4). -/
def runLaneG (s : State) (op : Nat) (f : FormR) (dyn : Group → Bool) (sp : Group → LaneSpec) (body : Group → LaneIn → LaneOut) : Out :=
  withIssue s (fun s g c =>
    let word := BitVec.ofNat 64 (encR op f)
    if dyn g then illegalOut s g c f.gd word
    else match frameFail g (laneOpds f (sp g)) with
      | some r => frameOut s g c f.gd word r
      | none => laneEnd s c f.gd word (lanePasses (gmOf s g) f (sp g) body))

/-- A lane instruction that issues pass by pass. -/
def runLane (s : State) (op : Nat) (f : FormR) (dyn : Group → Bool) (sp : Group → LaneSpec) (body : LaneIn → LaneOut) : Out :=
  runLaneG s op f dyn sp (fun _ => body)

/-- No rule beyond the fields (DEDUCED, log 77). -/
def noDyn : Group → Bool := fun _ => false

/-- The passes that issue, each with its effective lanes, when every lane is decided at one position (R487). -/
def issuedPasses (g : Group) (eff : Mask) : List (List Nat) :=
  ((List.range (passes g.width)).map (fun p => lanesOf (eff &&& passMask p))).filter (fun l => !l.isEmpty)

/-- Positions an instruction takes when its passes are known: at widths to 32 always one (R68). -/
def posCount (g : Group) (ps : List (List Nat)) : Nat := if g.width ≤ 32 then 1 else ps.length

/-- What the effective lanes of an instruction that reads everything at its first issued pass read. -/
def wholeIns (x : GM) (f : FormR) (sp : LaneSpec) (eff : Mask) : List LaneIn := (lanesOf eff).map (readIn (touchSrc x f sp) f sp)

/-- Such an instruction performed: its results scheduled pass by pass (R56, R487); with no effective lane it takes its positions only. -/
def wholePasses (x : GM) (f : FormR) (sp : LaneSpec) (eff : Mask) (body : LaneIn → LaneOut) : PassSt :=
  if eff = 0 then ⟨bump x (posCount x.g []), false, []⟩
  else
    let x1 := touchSrc x f sp
    let x2 := touchDst (dropLu x1 f sp) f sp eff
    let ps := issuedPasses x.g eff
    let x3 := (ps.zipIdx).foldl (fun y p =>
      laneSched y f sp (x.g.pos + p.2 + sp.lat) (p.2 == 0) (p.1.map (fun l => (l, body (readIn x1 f sp l))))) x2
    ⟨bump x3 (posCount x.g ps), true, (lanesOf eff).map (fun l => (l, (body (readIn x1 f sp l)).fl))⟩

/-- A lane instruction that reads everything at its first issued pass and may trap as a whole (R487): bad gives the cause, the recorded lanes and the fault address. -/
def runWhole (s : State) (op : Nat) (f : FormR) (sp : LaneSpec) (bad : List LaneIn → Option (Cause × List Nat × W64)) (body : LaneIn → LaneOut) : Out :=
  withIssue s (fun s g c =>
    let word := BitVec.ofNat 64 (encR op f)
    match frameFail g (laneOpds f sp) with
    | some r => frameOut s g c f.gd word r
    | none =>
      let x := landAt (gmOf s g) g.pos
      let eff := effNow x.g f.gd
      let x1 := touchSrc x f sp
      match (if eff = 0 then none else bad (wholeIns x f sp eff)) with
      | some (cause, ls, a) => trapOut (putGM s x1) x1.g c word cause 0 (maskOf ls) a
      | none => laneEnd s c f.gd word (wholePasses x f sp eff body))

/-- The passes of a cross-lane instruction: the effective lanes of all, and the position of the last (R172). -/
structure CrossSt where
  x : GM
  eff : Mask
  last : Nat
  deriving DecidableEq, Repr

/-- One pass of a cross-lane instruction. -/
def crossPass (f : FormR) (sp : LaneSpec) (st : CrossSt) (p : Nat) : CrossSt :=
  let x := landAt st.x st.x.g.pos
  let e := effNow x.g f.gd &&& passMask p
  if e = 0 then (if x.g.width ≤ 32 then { st with x := bump x 1 } else st)
  else { x := bump (if st.eff = 0 then touchSrc x f sp else x) 1, eff := st.eff ||| e, last := x.g.pos }

/-- The passes of a cross-lane instruction walked (R172). -/
def crossWalk (x : GM) (f : FormR) (sp : LaneSpec) : CrossSt := (List.range (passes x.g.width)).foldl (crossPass f sp) ⟨landAt x x.g.pos, 0, x.g.pos⟩

/-- A cross-lane instruction performed: all results land together (R172). -/
def crossPasses (x : GM) (f : FormR) (sp : LaneSpec) (body : Nat → (Nat → LaneIn) → List Nat → List (Nat × LaneOut)) : PassSt :=
  let st := crossWalk x f sp
  if st.eff = 0 then ⟨st.x, false, []⟩
  else
    let outs := body x.g.width (readIn st.x f sp) (lanesOf st.eff)
    let x2 := touchDst (dropLu st.x f sp) f sp st.eff
    ⟨laneSched x2 f sp (st.last + sp.lat) true outs, true, outs.map (fun o => (o.1, o.2.fl))⟩

/-- A cross-lane instruction (R172): the sources of all lanes are read at the last issued pass and all results land together. body gets a reader of any lane and the effective lanes. -/
def runCross (s : State) (op : Nat) (f : FormR) (dyn : Group → Bool) (sp : Group → LaneSpec)
    (body : Nat → (Nat → LaneIn) → List Nat → List (Nat × LaneOut)) : Out :=
  withIssue s (fun s g c =>
    let word := BitVec.ofNat 64 (encR op f)
    if dyn g then illegalOut s g c f.gd word
    else match frameFail g (laneOpds f (sp g)) with
      | some r => frameOut s g c f.gd word r
      | none => laneEnd s c f.gd word (crossPasses (gmOf s g) f (sp g) body))

/-! ## Instructions that act once for the group -/

/-- A format-R instruction that acts once: registers checked, writes due landed. lanes says which lanes are effective; k gets the group and those lanes, which are not empty (R68). -/
def onceBy (lanes : GM → Guard → Mask) (s : State) (op : Nat) (f : FormR) (sp : LaneSpec) (k : State → GM → Clause → W64 → Mask → Out) : Out :=
  withIssue s (fun s g c =>
    let word := BitVec.ofNat 64 (encR op f)
    match frameFail g (laneOpds f sp) with
    | some r => frameOut s g c f.gd word r
    | none =>
      let x := landAt (gmOf s g) g.pos
      let eff := lanes x f.gd
      if eff = 0 then .next (finish1 s (bump x (posCount g [])) c f.gd.sw)
      else k s x c word eff)

/-- A format-R instruction that acts once, its guard read pass by pass (R29, R56). -/
def onceR (s : State) (op : Nat) (f : FormR) (sp : LaneSpec) (k : State → GM → Clause → W64 → Mask → Out) : Out := onceBy effPasses s op f sp k

/-- One that reads everything at its first issued pass (R487). -/
def onceFirst (s : State) (op : Nat) (f : FormR) (sp : LaneSpec) (k : State → GM → Clause → W64 → Mask → Out) : Out :=
  onceBy (fun x gd => effNow x.g gd) s op f sp k

/-- The group after it: marks dropped, positions taken. -/
def onceBump (x : GM) (f : FormR) (sp : LaneSpec) (eff : Mask) : GM :=
  let x := dropLu x f sp
  bump x (posCount x.g (issuedPasses x.g eff))

/-- The group after it, at the next instruction. -/
def onceDone (x : GM) (c : Clause) (f : FormR) (sp : LaneSpec) (eff : Mask) : GM :=
  let x := onceBump x f sp eff
  { x with g := advance x.g c f.gd.sw }

/-- A value of n registers for every effective lane, landing lat positions after each pass issues; a scalar from the first (R29, R56). -/
def schedAll (x : GM) (pos lat : Nat) (f : FormR) (n : Nat) (eff : Mask) (v : Nat) : GM :=
  (issuedPasses x.g eff).zipIdx.foldl (fun x p => if isScal f.d && p.2 != 0 then x else schedDst x (pos + p.2 + lat) f.d n f.sn (p.1.map (fun l => (l, v)))) x

/-- A mask bit for every effective lane, in the same way. -/
def schedMask (x : GM) (pos lat : Nat) (k : Opd) (eff : Mask) (b : Nat → Bool) : GM :=
  (issuedPasses x.g eff).zipIdx.foldl (fun x p => sched x (pos + p.2 + lat) (.kreg (maskNo k) (p.1.map (fun l => (l, b l))))) x

end Sys2Proof.Machine
end

