-- ==== Sys2Proof/Machine/Run.lean ====
section
/-! DEFINITION. Sys2Proof/Machine/Run.lean: what the machine does next: the agenda first, then the current group's next instruction with the checks of R53, then the part's own steps in a default order; and placing an instruction where the next step fetches it. -/

namespace Sys2Proof.Machine

/-- The slices that hold groups, once each. -/
def heldSlices (s : State) : List (Nat × Nat) := ((s.groups.filterMap Group.slot).map (fun a => (a.core, a.slice))).eraseDups

/-- The errors whose time has come strike their lines (R441) (DESIGN CHOICE, log 43). -/
def strike (s : State) : State :=
  if s.upsets.isEmpty then s
  else { s with poison := s.poison ++ (s.upsets.filter (fun u => decide (u.1 ≤ s.tick))).map (·.2), upsets := s.upsets.filter (fun u => decide (s.tick < u.1)) }

/-- Time passes: the reference clock by a free amount, and the cycle count of every slice that holds a group by a free amount (R275; DESIGN CHOICE, log 2) (DESIGN CHOICE, log 36). -/
def timePasses (s : State) : State :=
  let s1 := strike { s with tick := s.tick + Config.elapsedTicks s.fresh, fresh := s.fresh + 1 }
  (heldSlices s).foldl (fun t a => modSlice t a.1 a.2 (fun sl => { sl with cycles := sl.cycles + Config.sliceCycles s.fresh a.1 a.2 })) s1

/-- What a step does: run an instruction or a step of the part, become a state, or leave the choice to the part's own order. -/
inductive Act where
  | run (s : State) (i : Instr)
  | become (s : State)
  | idle (s : State)

/-- The word at an instruction's offset (R42): from the grid's fetched lines. -/
def fetchAt (s : State) (g : Group) (off : Nat) : W64 :=
  match gridOf s g with
  | none => 0
  | some gr => codeWord s gr (objTable s gr.part (codeObj gr)) off

/-- A firmware agent's slot: slot 15 of slice 0 (R16, R50). -/
def inAgentSlot (g : Group) : Bool :=
  match g.slot with
  | some a => a.slice == 0 && a.slot == 15
  | none => false

/-- R53 checks 2 and 3 of a word's opcode in a clause: the cause of the first that fails. -/
def classCheck (g : Group) (c : Clause) (op : Nat) : Option Cause :=
  let last := c.idx + 1 == c.cnt
  if classOfOp op != c.cls && !(last && classOfOp op == 2) then some .illegalClause
  else if clauseEnding op && !last then some .illegalClause
  else if (privileged op || classOfOp op == 5) && !inAgentSlot g then some .privilegedInstr
  else none

/-- A decode trap of a word: the effective lanes are those of its guard bits (R52, R279). -/
def decodeTrap (s : State) (g : Group) (c : Clause) (w : W64) (cause : Cause) : State :=
  takeTrap s g.id (causeCode cause) 0 (effAt s g (guardOf w.toNat)) 0 w (pcOf c) (pcOf c) (some c)

/-- The next instruction of a group inside a clause: fetched and checked in the order of R53. -/
def issueNext (s : State) (g : Group) (c : Clause) : Act :=
  let w := fetchAt s g (pcOf c)
  let op := opField w.toNat
  if fld w.toNat 58 6 = 63 ∨ (formatOf op).isNone then .become (decodeTrap s g c w .illegalInstr)
  else match classCheck g c op with
    | some cause => .become (decodeTrap s g c w cause)
    | none => match decode w with
      | .error _ => .become (decodeTrap s g c w .illegalInstr)
      | .ok i => .run s i

/-- Whether a park is a stall of R57, whose instruction is tried again. -/
def retries (p : Park) : Bool :=
  match p with
  | .stall | .entryWait _ _ => true
  | .none | .sw | .objMiss _ | .regionMiss _ | .fence _ _ | .alloc | .growWait _ | .shrinkWait | .bwait _ _ _ _ _ _
  | .awaitPhase _ _ _ _ _ _ _ | .awaitCell _ | .pause _ _ _ | .tbar _ | .sbar _ | .gbar _ | .absent _ | .agentIdle _ => false

/-- Whether a group issues its next instruction now: inside a clause, in a slot, running, with nothing due, and not parked (a stalled instruction is tried again, R57). -/
def canIssue (s : State) (g : Group) : Bool :=
  (g.park == .none || retries g.park) && g.trapDue.isNone && g.slot.isSome && !g.ended && !g.halted &&
    (match g.phase with
      | .inClause _ => true
      | .boundary _ _ | .header | .asleep => false) &&
    (match gridOf s g with
      | some gr => !gr.killDue && !gr.killed
      | none => false)

/-- Whether a row is one of the part's own steps, which have no word. -/
def isEvent (i : Instr) : Bool := (encodeNat i).isNone

/-- What a group does when it is its turn: its next instruction, where it can issue (R53). -/
def groupTurn (s : State) (g : Group) : Act :=
  match canIssue s g, g.phase with
  | true, .inClause c => issueNext s g c
  | _, _ => .idle s

/-- What happens next (DESIGN CHOICE, log 1): the agenda's first step; else the next instruction of the first group of the slice cycle's issue (R28), where it has not stalled or stopped since; else the part's own steps. -/
def choose (s : State) : Act :=
  match s.agenda with
  | e :: rest => if isEvent e then .run { s with agenda := rest } e else .become { s with agenda := rest }
  | [] =>
    match s.turn with
    | [] => .idle s
    | i :: rest =>
      let t := { s with turn := rest, cur := some i }
      match getG s i with
      | none => .become t
      | some g => match groupTurn t g with
        | .run u j => .run u j
        | .become u => .become u
        | .idle u => .become u

end Sys2Proof.Machine
end

