-- ==== Sys2Proof/Machine/Place.lean ====
section
/-! DEFINITION. Sys2Proof/Machine/Place.lean: a group standing inside a clause whose next word is given: the load that State.withFetchWord stands for (DESIGN CHOICE, log 10). -/

namespace Sys2Proof.Machine

/-- A launch record with one role of one group of width 32 and 64 registers, its code in object 0. -/
def bootLaunch : Launch :=
  { stamp := Config.deviceStamp, savep := 0, l1w := 0, scratch := 4096, nstacks := 0, pair := false, teams := 1, argp := 0,
    data := 0, code := BitVec.ofNat 64 (2 ^ 60),
    roles := [{ entry := 0, frame := 64, groups := 1, width := 32, depth := 4, feed := false }] }

/-- The object-table entry of a readable, executable object of 4 KiB at unified address 4096. -/
def bootEntry : Nat := 5 + 2 ^ 6 + 4096 * 2 ^ 64 + 4096 * 2 ^ 128

/-- The clause class a word's opcode needs. -/
def classOfWord (w : Nat) : Nat := classOfOp (opField w)

/-- Whether a word needs the agent's slot (R50). -/
def needsAgent (w : Nat) : Bool := privileged (opField w) || classOfOp (opField w) == 5

/-- The code line of a clause of one instruction: its header and the word. -/
def bootLine (w : Nat) : List Byte :=
  leBytes 8 (63 * 2 ^ 58 + classOfWord w * 2 ^ 55) ++ leBytes 8 w ++ List.replicate 48 0

/-- Partition 0 with one stack, an object table of one object and one resident page for it (R417, R428, R429). -/
def bootPart (p : Part) : Part :=
  { p with enable := true, stackBits := 1, ulim := 2 ^ 20, otbase := 0, otcnt := 1,
           grans := [0, 1].map (fun n => { num := n, state := .hbm 0, moving := none, pinned := false, psize := 0, advice := 0, missA := 0, missB := 0, hostAcc := 0 }) }

/-- A machine in which group 0 stands inside a clause of one instruction whose word is w. -/
def bootWith (s : State) (w : Nat) : State :=
  let slot : SlotAt := if needsAgent w then ⟨0, 0, 15⟩ else ⟨0, 0, 0⟩
  let g := { freshGroup 0 0 0 0 0 32 64 4 false (needsAgent w) (some slot) 0 with
    phase := .inClause ⟨0, classOfWord w, 1, 0, false⟩, oc := some ocEmpty }
  let s := modP s 0 bootPart
  let s := uniWr s 0 0 (leBytes 32 bootEntry)
  let s := uniWr s 0 4096 (bootLine w)
  { s with
    cur := some 0, turn := [0], nextId := s.nextId + 1, groups := [g], ctxs := [freshCtx 0 0 0 0 0 0 0 0 4096 0 8 0],
    teams := [freshTeam 0 0 0 0 0 false],
    grids := [{ freshGrid 0 0 0 0 0 bootLaunch [0] with ticket := 1, bound := 1, icache := [(0, bootLine w)] }] }

/-- The word put where the current group's next instruction is fetched, its clause made one that the word may end. -/
def patchWord (s : State) (g : Group) (c : Clause) (w : Nat) : State :=
  match gridOf s g with
  | none => s
  | some gr =>
    let e := objTable s gr.part (codeObj gr)
    let s := uniWr s gr.part (e.ubase + pcOf c) (leBytes 8 w)
    let s := modG s g.id (fun g => { g with phase := .inClause { c with cls := classOfWord w, cnt := c.idx + 1 } })
    modGrid s gr.id (fun gr => { gr with icache := gr.icache.filter (fun l => l.1 != pcOf c / 64) })

/-- The instruction w stored where the next step fetches: in the current clause where its group issues, else in a machine set up to run it. -/
def placeWord (s : State) (w : Nat) : State :=
  let s := { s with agenda := [] }
  match s.cur.bind (getG s) with
  | none => bootWith s w
  | some g =>
    match g.phase with
    | .inClause c => if g.park == .none && canIssue s g && (!needsAgent w || inAgentSlot g) then { patchWord s g c w with turn := [g.id] } else bootWith s w
    | .boundary _ _ | .header | .asleep => bootWith s w

end Sys2Proof.Machine
end

