-- ==== Sys2Proof/Machine/IntAlu.lean ====
section
/-! DEFINITION. Sys2Proof/Machine/IntAlu.lean: the lane ALU's integer, address and mask-combining instructions (R153-R171, R177). -/

namespace Sys2Proof.Machine

/-- Registers of a result of a type (R63). -/
def tyN (ty : Ty) : Nat := if tyWide ty then 2 else 1
/-- D from A under one type. -/
def spA (ty : Ty) (lat : Nat) : LaneSpec := ⟨.val ty, .no, .no, .val (tyN ty), lat⟩
/-- D from A and B under one type. -/
def spAB (ty : Ty) (lat : Nat) : LaneSpec := ⟨.val ty, .val ty, .no, .val (tyN ty), lat⟩
/-- D from A, B and C under one type. -/
def spABC (ty : Ty) (lat : Nat) : LaneSpec := ⟨.val ty, .val ty, .val ty, .val (tyN ty), lat⟩
/-- The latency of the multiplies (R155). -/
def mulLat (ty : Ty) : Nat := if tyWide ty then 9 else 5
/-- The latency of the divider (R155). -/
def divLat (ty : Ty) : Nat := if tyWide ty then 66 else 34
/-- `.sat`, `.trap`: MOD bit 12 (R153). -/
def variant (f : FormR) : Bool := f.mod.getLsbD 0
/-- EXT as a number. -/
def extN (f : FormR) : Nat := f.ext.toNat

/-- R158: takes one issue position, at widths 64 and 128 too (DEDUCED, log 82). -/
def execNop (f : FormR) (s : State) : Out :=
  withIssue s (fun s g c => .next (finish1 s (bump (landAt (gmOf s g) g.pos) 1) c f.gd.sw))

/-- R158: A to D; F16 and BF16 keep bits 15:0 (R64). -/
def execMov (f : FormR) (s : State) : Out :=
  runLane s 0x01 f noDyn (fun _ => spA f.ty 4) (fun i => outV (let (w, n) := tyElems f.ty; i.a % 2 ^ (w * n)))

/-- R158: A where kC is 1, else B. -/
def execSel (f : FormR) (s : State) : Out :=
  runLane s 0x04 f noDyn (fun _ => ⟨.val f.ty, .val f.ty, .msk, .val (tyN f.ty), 4⟩) (fun i => outV (let (w, n) := tyElems f.ty; (if i.kc then i.a else i.b) % 2 ^ (w * n)))

/-- R159: element by element, wrapping or saturating. -/
def execIadd (f : FormR) (s : State) : Out :=
  runLane s 0x05 f noDyn (fun _ => spAB f.ty 4) (fun i => outV (iaddVal f.ty (variant f) i.a i.b))

/-- R159: element by element, wrapping or saturating. -/
def execIsub (f : FormR) (s : State) : Out :=
  runLane s 0x06 f noDyn (fun _ => spAB f.ty 4) (fun i => outV (isubVal f.ty (variant f) i.a i.b))

/-- R160: with carry in and out of kC. -/
def execIaddc (f : FormR) (s : State) : Out :=
  runLane s 0x07 f noDyn (fun _ => ⟨.val f.ty, .val f.ty, .msk, .valK (tyN f.ty), 4⟩) (fun i => let r := addCarry (tyElems f.ty).1 i.a i.b (!f.ext.getLsbD 0 && i.kc); ⟨r.1, false, r.2, 0⟩)

/-- R160: with carry in and out of kC. -/
def execIsubb (f : FormR) (s : State) : Out :=
  runLane s 0x08 f noDyn (fun _ => ⟨.val f.ty, .val f.ty, .msk, .valK (tyN f.ty), 4⟩) (fun i => let r := subBorrow (tyElems f.ty).1 i.a i.b (!f.ext.getLsbD 0 && i.kc); ⟨r.1, false, r.2, 0⟩)

/-- R159: element by element, wrapping or saturating. -/
def execIneg (f : FormR) (s : State) : Out :=
  runLane s 0x09 f noDyn (fun _ => spA f.ty 4) (fun i => outV (inegVal f.ty (variant f) i.a))

/-- R159: element by element, wrapping or saturating. -/
def execIabs (f : FormR) (s : State) : Out :=
  runLane s 0x0A f noDyn (fun _ => spA f.ty 4) (fun i => outV (iabsVal f.ty (variant f) i.a))

/-- R159: element by element. -/
def execImin (f : FormR) (s : State) : Out :=
  runLane s 0x0B f noDyn (fun _ => spAB f.ty 4) (fun i => outV (iminVal f.ty i.a i.b))

/-- R159: element by element. -/
def execImax (f : FormR) (s : State) : Out :=
  runLane s 0x0C f noDyn (fun _ => spAB f.ty 4) (fun i => outV (imaxVal f.ty i.a i.b))

/-- R161: the low half of the product. -/
def execImul (f : FormR) (s : State) : Out :=
  runLane s 0x0D f noDyn (fun _ => spAB f.ty (mulLat f.ty)) (fun i => outV (imulVal f.ty i.a i.b))

/-- R161: the high half of the product. -/
def execImulh (f : FormR) (s : State) : Out :=
  runLane s 0x0E f noDyn (fun _ => spAB f.ty (mulLat f.ty)) (fun i => outV (imulhVal f.ty i.a i.b))

/-- R161: product plus C modulo the width. -/
def execImad (f : FormR) (s : State) : Out :=
  runLane s 0x0F f noDyn (fun _ => spABC f.ty (mulLat f.ty)) (fun i => outV (imadVal f.ty i.a i.b i.c))

/-- R161: 32 by 32 product plus the pair C. -/
def execImadw (f : FormR) (s : State) : Out :=
  runLane s 0x10 f noDyn (fun _ => ⟨.val f.ty, .val f.ty, .val .z64, .val 2, 5⟩) (fun i => outV (imadwVal f.ty i.a i.b i.c))

/-- R162: the quotient; with `.trap` a zero divisor traps the whole instruction (R487). -/
def execIdiv (f : FormR) (s : State) : Out :=
  if variant f then
    runWhole s 0x11 f (spAB f.ty (divLat f.ty))
      (fun is => let z := (is.filter (fun i => i.b % 2 ^ (tyElems f.ty).1 == 0)).map LaneIn.l
        if z.isEmpty then none else some (.intDivide, z, 0))
      (fun i => outV (idivremVal f.ty i.a i.b).1)
  else runLane s 0x11 f noDyn (fun _ => spAB f.ty (divLat f.ty)) (fun i => outV (idivremVal f.ty i.a i.b).1)

/-- R162: the remainder; with `.trap` a zero divisor traps the whole instruction (R487). -/
def execIrem (f : FormR) (s : State) : Out :=
  if variant f then
    runWhole s 0x12 f (spAB f.ty (divLat f.ty))
      (fun is => let z := (is.filter (fun i => i.b % 2 ^ (tyElems f.ty).1 == 0)).map LaneIn.l
        if z.isEmpty then none else some (.intDivide, z, 0))
      (fun i => outV (idivremVal f.ty i.a i.b).2)
  else runLane s 0x12 f noDyn (fun _ => spAB f.ty (divLat f.ty)) (fun i => outV (idivremVal f.ty i.a i.b).2)

/-- R163: a comparison into kD. -/
def execIcmp (f : FormR) (s : State) : Out :=
  runLane s 0x13 f noDyn (fun _ => ⟨.val f.ty, .val f.ty, .no, .msk, 4⟩) (fun i => outK (combine (extN f / 8) (icmpVal f.ty (extN f % 8) i.a i.b) i.kd))

/-- R164: bit by bit. -/
def execAnd (f : FormR) (s : State) : Out :=
  runLane s 0x14 f noDyn (fun _ => spAB f.ty 4) (fun i => outV (i.a &&& i.b))

/-- R164: bit by bit. -/
def execOr (f : FormR) (s : State) : Out :=
  runLane s 0x15 f noDyn (fun _ => spAB f.ty 4) (fun i => outV (i.a ||| i.b))

/-- R164: bit by bit. -/
def execXor (f : FormR) (s : State) : Out :=
  runLane s 0x16 f noDyn (fun _ => spAB f.ty 4) (fun i => outV (i.a ^^^ i.b))

/-- R164: bit by bit. -/
def execAndn (f : FormR) (s : State) : Out :=
  runLane s 0x18 f noDyn (fun _ => spAB f.ty 4) (fun i => outV (i.a &&& notVal f.ty i.b))

/-- R164: complement. -/
def execNot (f : FormR) (s : State) : Out :=
  runLane s 0x17 f noDyn (fun _ => spA f.ty 4) (fun i => outV (notVal f.ty i.a))

/-- R165: each element by its count. -/
def execShl (f : FormR) (s : State) : Out :=
  runLane s 0x19 f noDyn (fun _ => ⟨.val f.ty, .val .z32, .no, .val (tyN f.ty), 4⟩) (fun i => outV (shiftVal shlBits f.ty i.a i.b))

/-- R165: each element by its count. -/
def execShr (f : FormR) (s : State) : Out :=
  runLane s 0x1A f noDyn (fun _ => ⟨.val f.ty, .val .z32, .no, .val (tyN f.ty), 4⟩) (fun i => outV (shiftVal shrBits f.ty i.a i.b))

/-- R165: each element by its count. -/
def execSar (f : FormR) (s : State) : Out :=
  runLane s 0x1B f noDyn (fun _ => ⟨.val f.ty, .val .z32, .no, .val (tyN f.ty), 4⟩) (fun i => outV (shiftVal sarBits f.ty i.a i.b))

/-- R165: each element by its count. -/
def execRot (f : FormR) (s : State) : Out :=
  runLane s 0x1C f noDyn (fun _ => ⟨.val f.ty, .val .z32, .no, .val (tyN f.ty), 4⟩) (fun i => outV (shiftVal rotBits f.ty i.a i.b))

/-- R165: the funnel shift of A and B by C. -/
def execFunnel (f : FormR) (s : State) : Out :=
  runLane s 0x1D f noDyn (fun _ => spABC .b32 4) (fun i => outV (funnelVal (f.ext.getLsbD 0) i.a i.b i.c))

/-- R166: bit-field extract. -/
def execBfe (f : FormR) (s : State) : Out :=
  runLane s 0x1E f noDyn (fun _ => ⟨.val f.ty, .val .z32, .val .z32, .val (tyN f.ty), 4⟩) (fun i => outV (bfeVal f.ty i.a i.b i.c))

/-- R166: bit-field insert. -/
def execBfi (f : FormR) (s : State) : Out :=
  runLane s 0x1F f noDyn (fun _ => ⟨.val f.ty, .val f.ty, .val .z32, .val (tyN f.ty), 4⟩) (fun i => outV (bfiVal f.ty i.a i.b i.c))

/-- R167: a count into one register. -/
def execPopc (f : FormR) (s : State) : Out :=
  runLane s 0x20 f noDyn (fun _ => ⟨.val f.ty, .no, .no, .val 1, 4⟩) (fun i => outV (popcBits (tyElems f.ty).1 i.a))

/-- R167: a count into one register. -/
def execClz (f : FormR) (s : State) : Out :=
  runLane s 0x21 f noDyn (fun _ => ⟨.val f.ty, .no, .no, .val 1, 4⟩) (fun i => outV (clzBits (tyElems f.ty).1 i.a))

/-- R167: a count into one register. -/
def execCtz (f : FormR) (s : State) : Out :=
  runLane s 0x22 f noDyn (fun _ => ⟨.val f.ty, .no, .no, .val 1, 4⟩) (fun i => outV (ctzBits (tyElems f.ty).1 i.a))

/-- R167: bit reversal. -/
def execBrev (f : FormR) (s : State) : Out :=
  runLane s 0x23 f noDyn (fun _ => spA f.ty 4) (fun i => outV (brevBits (tyElems f.ty).1 i.a))

/-- R167: byte permute. -/
def execBperm (f : FormR) (s : State) : Out :=
  runLane s 0x24 f noDyn (fun _ => spABC .b32 4) (fun i => outV (bpermVal i.a i.b i.c))

/-- R168: A plus scaled B. -/
def execLea (f : FormR) (s : State) : Out :=
  runLane s 0x25 f noDyn (fun _ => ⟨.val .b64, .val .z32, .no, .val 2, 4⟩) (fun i => outV (leaVal f.ty i.a i.b (extN f)))

/-- R169: builds a pointer; a lane out of bounds takes the capability fault with its B as fault address. -/
def execPtrmk (f : FormR) (s : State) : Out :=
  runWhole s 0x26 f ⟨if f.ext = 8 then .no else .val .z32, .val .z64, .no, .val 2, 4⟩
    (fun is => match is.find? (fun i => (ptrmkVal (extN f) i.a i.b).isNone) with
      | some i => some (.capability, is.map LaneIn.l, BitVec.ofNat 64 i.b)
      | none => none)
    (fun i => outV ((ptrmkVal (extN f) i.a i.b).getD 0))

/-- R170: adds to the offset field; a lane out of its field takes the capability fault with its A as fault address. -/
def execPtradd (f : FormR) (s : State) : Out :=
  runWhole s 0x27 f ⟨.val .b64, .val f.ty, .no, .val 2, 4⟩
    (fun is => match is.find? (fun i => (ptrAdd i.a (elemInt f.ty (tyElems f.ty).1 i.b)).isNone) with
      | some i => some (.capability, is.map LaneIn.l, BitVec.ofNat 64 i.a)
      | none => none)
    (fun i => outV ((ptrAdd i.a (elemInt f.ty (tyElems f.ty).1 i.b)).getD 0))

/-- R171: one field of a pointer. -/
def execPtrget (f : FormR) (s : State) : Out :=
  runLane s 0x28 f noDyn (fun _ => ⟨.val .b64, .no, .no, .val 2, 4⟩) (fun i => outV (ptrgetVal (extN f) i.a))

/-- R177: kA and kB through the truth table of EXT[3:0]. -/
def execKop (f : FormR) (s : State) : Out :=
  runLane s 0x2E f noDyn (fun _ => ⟨.msk, .msk, .no, .msk, 4⟩) (fun i => outK (f.ext.getLsbD (2 * b2n i.ka + b2n i.kb)))

/-- The register fields of a format I word, with A to C unused (R70). -/
def regsOfI (f : FormI) : FormR :=
  { gd := f.gd, d := f.d, a := .v 0, b := .v 0, c := .v 0, ty := f.ty, mod := 0, lu := 0, sn := f.sn, ext := 0 }

/-- What MOVI writes (R158). -/
def moviVal (ty : Ty) (imm : W32) : Nat :=
  match ty with
  | .s64 => wrap (sext imm.toNat 32) 64
  | .z64 | .b64 | .b32 | .s32 | .z32 | .f32 | .f16 | .bf16 | .f16x2 | .bf16x2 | .s16x2 | .z16x2 | .s8x4 | .z8x4 => imm.toNat

/-- A lane instruction whose word is not a format R word: as runLane, with the word and the operands of the frame check given. -/
def runLaneW (s : State) (word : W64) (opds : List (Opd × Nat)) (f : FormR) (sp : LaneSpec) (body : LaneIn → LaneOut) : Out :=
  withIssue s (fun s g c =>
    match frameFail g opds with
    | some r => frameOut s g c f.gd word r
    | none => laneEnd s c f.gd word (lanePasses (gmOf s g) f sp (fun _ => body)))

/-- R158: the immediate, extended by type. -/
def execMovi (f : FormI) (s : State) : Out :=
  runLaneW s (BitVec.ofNat 64 (encI 0x02 f)) [(f.d, tyN f.ty)] (regsOfI f) ⟨.no, .no, .no, .val (tyN f.ty), 4⟩ (fun _ => outV (moviVal f.ty f.imm))

/-- The odd register of a pair operand. -/
def oddOf (o : Opd) : Opd :=
  match o with
  | .v n => .v (n + 1)
  | .s n => .s (n + 1)
  | .k _ | .zero | .one | .half | .two | .negOne | .lane | .ones => o

/-- R158: the immediate into the odd register of the pair D; the even one stays. -/
def execMovh (f : FormI) (s : State) : Out :=
  runLaneW s (BitVec.ofNat 64 (encI 0x03 f)) [(f.d, 2)] { regsOfI f with d := oddOf f.d } ⟨.no, .no, .no, .val 1, 4⟩ (fun _ => outV f.imm.toNat)

end Sys2Proof.Machine
end

