-- ==== Sys2Proof/Machine/CrossLane.lean ====
section
/-! DEFINITION. Sys2Proof/Machine/CrossLane.lean: the cross-lane instructions and KMOV (R172-R176, R178). -/

namespace Sys2Proof.Machine

/-- The extra latency of wide groups (R155). -/
def wideLat (w : Nat) : Nat := if w ≤ 32 then 0 else if w ≤ 64 then 2 else 4

/-- The segment of an EXT field (R172). -/
def segOf (f : FormR) : Nat := 8 * 2 ^ (extN f / 16)

/-- R172: a segment larger than the group (DEDUCED, log 77). -/
def segTooWide (f : FormR) (g : Group) : Bool := decide (g.width < segOf f)

/-- R173: the lane of a segment that LSHUF reads; none where it lies outside. -/
def shufSrc (mode seg i b : Nat) : Option Nat :=
  let j : Int := match mode with
    | 0 => b
    | 1 => (i : Int) - b
    | 2 => (i : Int) + b
    | _ => (i ^^^ b : Nat)
  if 0 ≤ j ∧ j < seg then some j.toNat else none

/-- A value moved under a type: a 16-bit one leaves zeros above it (R64). -/
def moved (t : Ty) (x : Nat) : Nat := let (w, n) := tyElems t; x % 2 ^ (w * n)

/-- R173: LSHUF. -/
def execLshuf (f : FormR) (s : State) : Out :=
  runCross s 0x29 f (segTooWide f) (fun g => ⟨.val f.ty, .val .z32, .no, .val (tyN f.ty), 6 + wideLat g.width⟩)
    (fun _ rd eff => eff.map (fun l =>
      let seg := segOf f
      (l, outV (moved f.ty (match shufSrc (extN f % 4) seg (l % seg) (rd l).b with
        | some j => (rd (l - l % seg + j)).a
        | none => if f.ext.getLsbD 2 then 0 else (rd l).a)))))

/-- R174: LBCAST. -/
def execLbcast (f : FormR) (s : State) : Out :=
  runCross s 0x2A f noDyn (fun g => ⟨.val f.ty, if f.ext = 1 then .no else .val .z32, .no, .val (tyN f.ty), 4 + wideLat g.width⟩)
    (fun w rd eff =>
      let l0 := eff.headD 0
      let j := if f.ext = 1 then l0 else (rd l0).b % w
      eff.map (fun l => (l, outV (moved f.ty (rd j).a))))

/-- The number of a register operand. -/
def regNo (o : Opd) : Nat :=
  match o with
  | .v n => n.val
  | .s n => n.val
  | .k n => n.val
  | .zero | .one | .half | .two | .negOne | .lane | .ones => 0

/-- R175: D or A that must be a multiple of the words of a mask (DEDUCED, log 77). -/
def wordsMis (g : Group) (o : Opd) : Bool := regNo o % maskWords g.width != 0

/-- R175: LVOTE. -/
def execLvote (f : FormR) (s : State) : Out :=
  let mode := extN f
  runCross s 0x2B f (fun g => mode == 3 && wordsMis g f.d)
    (fun g => ⟨if mode = 2 then .val f.ty else .msk, .no, .no, if mode = 3 then .val (maskWords g.width) else .msk, 4 + wideLat g.width⟩)
    (fun _ rd eff =>
      let t := match mode with
        | 0 => eff.all (fun l => (rd l).ka)
        | 1 => eff.any (fun l => (rd l).ka)
        | _ => eff.all (fun l => (rd l).a == (rd (eff.headD 0)).a)
      let bal := (maskOf (eff.filter (fun l => (rd l).ka))).toNat
      eff.map (fun l => (l, ⟨bal, t, false, 0⟩)))

/-- R176: one step of a scan on integers and bits. -/
def scanInt (op : Nat) (ty : Ty) (acc a : Nat) : Nat :=
  match op with
  | 0 => iaddVal ty false acc a
  | 1 => iminVal ty acc a
  | 2 => imaxVal ty acc a
  | 3 => acc &&& a
  | 4 => acc ||| a
  | _ => acc ^^^ a

/-- R176: one step of a scan on F32. -/
def scanF32 (op : Nat) (md : RMode) (ftz : Bool) (acc a : Nat) : Nat × Flags :=
  match op with
  | 0 => faddVal .f32 md ftz acc a
  | 1 => fminmaxVal .f32 ftz false acc a
  | _ => fminmaxVal .f32 ftz true acc a

/-- R176: the first value of a scan. -/
def scanFirst (ty : Ty) (ftz : Bool) (a : Nat) : Nat × Flags :=
  match ty with
  | .f32 => if isNaN (fdec .f32 a) then (ffNaN .f32, snanFlag (fdec .f32 a)) else (fsrc .f32 ftz a, 0)
  | .b32 | .s32 | .z32 | .f16 | .bf16 | .s64 | .z64 | .b64 | .f16x2 | .bf16x2 | .s16x2 | .z16x2 | .s8x4 | .z8x4 => (a, 0)

/-- R176: the exclusive result of the first lane. -/
def scanIdent (op : Nat) (ty : Ty) : Nat :=
  let (w, _) := tyElems ty
  let (lo, hi) := elemRange ty w
  match op with
  | 0 => 0
  | 1 => if ty = .f32 then ffInf .f32 false else wrap hi w
  | 2 => if ty = .f32 then ffInf .f32 true else wrap lo w
  | 3 => 2 ^ w - 1
  | _ => 0

/-- R176: the combining step of a type. -/
def scanStep (f : FormR) (acc : Nat × Flags) (a : Nat) : Nat × Flags :=
  if f.ty = .f32 then
    let r := scanF32 (extN f % 8) (rmodeOf f.mod.toNat) (f.mod.getLsbD 2) acc.1 a
    (r.1, acc.2 ||| r.2)
  else (scanInt (extN f % 8) f.ty acc.1 a, acc.2)

/-- R176: the running results after each effective lane of a segment, first lane first. -/
def scanRun (f : FormR) : Option (Nat × Flags) → List Nat → List (Nat × Flags)
  | _, [] => []
  | none, a :: as =>
    let r := scanFirst f.ty (f.mod.getLsbD 2) a
    r :: scanRun f (some r) as
  | some acc, a :: as =>
    let r := scanStep f acc a
    r :: scanRun f (some r) as

/-- The segments of a group, each with its effective lanes (R172). -/
def segLanes (seg w : Nat) (eff : List Nat) : List (List Nat) :=
  ((List.range (w / seg)).map (fun k => eff.filter (fun l => l / seg == k))).filter (fun ls => !ls.isEmpty)

/-- The latency of LSCAN and LREDUCE (R155). -/
def scanLat (ty : Ty) (w : Nat) : Nat := (if ty = .f32 then 12 else 8) + wideLat w

/-- R176: LSCAN; a lane raises what the operations raise that its own result needs, none of an exclusive scan's later elements (DEDUCED, log 93). -/
def execLscan (f : FormR) (s : State) : Out :=
  runCross s 0x2C f (segTooWide f) (fun g => ⟨.val f.ty, .no, .no, .val (tyN f.ty), scanLat f.ty g.width⟩)
    (fun w rd eff => (segLanes (segOf f) w eff).flatMap (fun ls =>
      let rs := scanRun f none (ls.map (fun l => (rd l).a))
      ls.zip (if f.ext.getLsbD 3 then outV (scanIdent (extN f % 8) f.ty) :: rs.map outF else rs.map outF)))

/-- R176: LREDUCE; every effective lane raises what its whole segment's operations raise (DEDUCED, log 93). -/
def execLreduce (f : FormR) (s : State) : Out :=
  runCross s 0x2D f (segTooWide f) (fun g => ⟨.val f.ty, .no, .no, .val (tyN f.ty), scanLat f.ty g.width⟩)
    (fun w rd eff => (segLanes (segOf f) w eff).flatMap (fun ls =>
      let r := (scanRun f none (ls.map (fun l => (rd l).a))).getLastD (0, 0)
      ls.map (fun l => (l, outF r))))

/-- R178: KMOV. -/
def execKmov (f : FormR) (s : State) : Out :=
  match extN f with
  | 0 => runLane s 0x2F f noDyn (fun _ => ⟨.msk, .no, .no, .msk, 4⟩) (fun i => outK i.ka)
  | 1 => runCross s 0x2F f (fun g => wordsMis g f.a) (fun g => ⟨.regs (maskWords g.width), .no, .no, .msk, 4 + wideLat g.width⟩)
      (fun _ rd eff => eff.map (fun l => (l, outK (bit (rd l).a l))))
  | 2 => runCross s 0x2F f (fun g => wordsMis g f.d) (fun g => ⟨.msk, .no, .no, .val (maskWords g.width), 4 + wideLat g.width⟩)
      (fun w rd eff =>
        let v := (maskOf ((List.range w).filter (fun l => (rd l).ka))).toNat
        eff.map (fun l => (l, outV v)))
  | 3 => runLane s 0x2F f noDyn (fun _ => ⟨.val .b32, .no, .no, .msk, 4⟩) (fun i => outK (i.a != 0))
  | _ => runLane s 0x2F f noDyn (fun _ => ⟨.msk, .no, .no, .val 1, 4⟩) (fun i => outV (if i.ka then 2 ^ 32 - 1 else 0))

end Sys2Proof.Machine
end

