-- ==== Sys2Proof/Machine/Race.lean ====
section
/-! DEFINITION. Sys2Proof/Machine/Race.lean: scopes (R124, R125), what happens before what (R126-R129), and the values that a racing read may return (R131-R133, R137) (DESIGN CHOICE, log 19). -/

namespace Sys2Proof.Machine

/-! ## Scopes (R124, R125) -/

/-- The aligned 8-byte words of a place; a unified word keeps its name whatever backs it. -/
def strongWords (l : Loc) (n : Nat) : List Nat :=
  let f := fun (k : Nat) => (List.range ((k + n - 1) / 8 - k / 8 + 1)).map (· + k / 8)
  match l with
  | .pool k => f k
  | .uni p ua => f (uniKey p ua)
  | .lat _ _ _ | .peer _ _ _ | .mcast _ _ _ => []

/-- Numbers of parties that share only fabric or system scope with a partition are its own plus multiples of this. -/
def outsideBase : Nat := 2 ^ 20

/-- From this multiple on a party lies in system scope only: the host and its agents (R124). -/
def hostBase : Nat := 2 ^ 64

/-- Whether a party lies in system scope only (R124). -/
def isHostSide (a : StrongRec) : Bool := decide (outsideBase * hostBase ≤ a.part)

/-- Whether a party lies in the scope instance of another's access (R124). -/
def inScope (sc : Scope) (a b : StrongRec) : Bool :=
  match sc with
  | .grp => a.group == b.group
  | .team => a.team == b.team
  | .stk => a.part == b.part && a.stack == b.stack
  | .dev => a.part == b.part
  | .fab => a.part % outsideBase == b.part % outsideBase && !isHostSide a && !isHostSide b
  | .sys => a.part % outsideBase == b.part % outsideBase

/-- The narrowest scope that contains an engine: team for a core's streamer and matrix engine, device for bulk streamers, fabric for fabric engines (R124). -/
inductive EngLevel where
  | team | dev | fab
  deriving DecidableEq, Repr

/-- Whether a scope contains an engine (R124). -/
def EngLevel.within (l : EngLevel) (sc : Scope) : Bool :=
  match l, sc with
  | _, .grp => false
  | .team, _ => true
  | .dev, .team | .dev, .stk => false
  | .dev, _ => true
  | .fab, .fab | .fab, .sys => true
  | .fab, _ => false

/-- R125. -/
def mutuallyScoped (a b : StrongRec) : Bool := inScope a.scope a b && inScope b.scope a b

/-! ## What a party knows (R129) -/

/-- What happens before an access: for each party the stamp up to which its writes do. -/
abbrev View := List (Nat × Nat)

/-- The party of a lane. -/
def laneParty (g l : Nat) : Nat := 256 * g + l + 1
/-- The party of an engine's request or command. -/
def engineNo (id : Nat) : Nat := 256 * id + 255

/-- How far a view reaches into a party's writes; party 0 stands for all. -/
def viewAt (v : View) (p : Nat) : Nat := ((v.find? (fun x => x.1 == p)).map (·.2)).getD 0

/-- A view that reaches at least to a stamp for a party. -/
def viewPut (v : View) (p n : Nat) : View :=
  if n = 0 then v
  else if v.any (fun x => x.1 == p) then v.map (fun x => if x.1 = p then (p, max x.2 n) else x) else (p, n) :: v

/-- All that two views know. -/
def viewJoin (a b : View) : View := b.foldl (fun a x => viewPut a x.1 x.2) a

/-- What a party knows; a lane that has recorded nothing knows what was written before its group started. -/
def knowOf (s : State) (p : Nat) : Know :=
  (s.knows.find? (fun k => k.party == p)).getD
    { party := p, view := [(0, ((getG s ((p - 1) / 256)).map Group.born).getD 0)], fences := [], outs := [], seen := [] }

/-- What a party knows, changed. -/
def modKnow (s : State) (p : Nat) (f : Know → Know) : State := { s with knows := f (knowOf s p) :: s.knows.filter (fun k => k.party != p) }

/-- Everything that happens before a party's next access, its own writes among it. -/
def fullView (s : State) (p : Nat) : View := viewPut (knowOf s p).view p s.stamp

/-- What happens before the next accesses of some lanes of a group. -/
def lanesView (s : State) (g : Nat) (ls : List Nat) : View := ls.foldl (fun v l => viewJoin v (fullView s (laneParty g l))) []

/-- A party that learns a view. -/
def learn (s : State) (p : Nat) (v : View) : State := if v.isEmpty then s else modKnow s p (fun k => { k with view := viewJoin k.view v })

/-- Lanes of a group that learn a view. -/
def learnLanes (s : State) (g : Nat) (ls : List Nat) (v : View) : State :=
  if v.isEmpty then s else ls.foldl (fun s l => learn s (laneParty g l) v) s

/-! ## Racing accesses (R131-R133, R137) -/

/-- An access for the rules of races: who makes it, by which operation, from where in the scopes, whether it is strong and a read-modify-write. -/
structure Acc where
  party : Nat
  op : Nat
  me : StrongRec
  strong : Bool
  rmw : Bool
  deriving DecidableEq, Repr

/-- The number under which a view keeps that a party's accesses of one byte happen before, and not its others (R145). -/
def pointNo (p k : Nat) : Nat := 2 ^ 128 * (k + 1) + p

/-- Whether an access of a byte that a party made at a stamp lies in a view. -/
def viewHas (v : View) (p k stamp : Nat) : Bool :=
  decide (stamp ≤ viewAt v p) || decide (stamp ≤ viewAt v 0) || decide (stamp ≤ viewAt v (pointNo p k))

/-- Whether a write happens before a party's next access: its own, or one it knows. -/
def happensBefore (s : State) (p : Nat) (e : PastByte) : Bool := e.party == p || viewHas (knowOf s p).view e.party e.key e.stamp

/-- Whether two accesses cannot race: both strong and mutually scoped, or atomics under DROP (R133, R137). -/
def ordered (s : State) (a : Acc) (src : StrongRec) (strong rmw : Bool) : Bool :=
  a.strong && strong && (mutuallyScoped a.me src || ((partAt s (a.me.part % outsideBase)).scopemis && a.rmw && rmw))

/-- R133: whether an access races with a write of the history. -/
def racesWith (s : State) (a : Acc) (e : PastByte) : Bool := !happensBefore s a.party e && !ordered s a e.src e.strong e.rmw

/-- R133: whether a write of a byte races with a read of the history. -/
def racesRead (s : State) (a : Acc) (k : Nat) (r : PastRead) : Bool :=
  decide (r.key ≤ k) && decide (k < r.key + r.len) && r.party != a.party && !viewHas (knowOf s a.party).view r.party k r.stamp &&
    !ordered s a r.src r.strong r.rmw

/-- The writes of a byte in its coherence order, newest first (R131). -/
def writesOf (s : State) (k : Nat) : List PastByte := s.past.filter (fun e => e.key == k)

/-- R133: whether a read of a byte may return any write of it: it races with one, or follows a race, and no write that happens before it follows every write of the race. -/
def freeRead (s : State) (a : Acc) (es : List PastByte) : Bool :=
  let new := es.takeWhile (fun e => !happensBefore s a.party e)
  new.any (fun e => e.raced || racesWith s a e) || ((es.drop new.length).head?.map PastByte.raced).getD false

/-- Whether a party is an engine's request or command. -/
def isEngineNo (p : Nat) : Bool := p % 256 == 255

/-- The writes from the newest to the newest of an engine, and whether there is one: a landed byte hides what was there before (R144). -/
def sinceLanding : List PastByte → List PastByte × Bool
  | [] => ([], false)
  | e :: es => if isEngineNo e.party then ([e], true) else ((e :: (sinceLanding es).1), (sinceLanding es).2)

/-- The value that a read of one byte returns, with the write that it reads where there is one: what its path gives, or any that R133 allows; landed says that a landed byte hides what was there before (R144). -/
def raceByte (s : State) (a : Acc) (landed : Bool) (k : Nat) (b : Byte) : Byte × Option PastByte :=
  let es := writesOf s k
  if freeRead s a es then
    let c := if landed then sinceLanding es else (es, false)
    let old := if c.2 then [] else (es.getLast?.map (fun e => (e.old, (none : Option PastByte)))).toList
    let cs := (b, es.head?) :: c.1.map (fun e => (e.new, some e)) ++ old
    nth cs (Config.raceChoice s.fresh k % cs.length) (b, es.head?)
  else (b, es.head?)

/-- The key by which the history names a place; none for places outside memory. -/
def raceKey (l : Loc) : Option Nat :=
  match l with
  | .pool k => some k
  | .uni p ua => some (uniKey p ua)
  | .lat _ _ _ | .peer _ _ _ | .mcast _ _ _ => none

/-- The writes of some bytes with which an access races marked as writes of a race (R133, R137). -/
def markRaces (s : State) (a : Acc) (k n : Nat) : State :=
  { s with past := s.past.map (fun e => if decide (k ≤ e.key) && decide (e.key < k + n) && racesWith s a e then { e with raced := true } else e) }

/-- A read of some bytes remembered, and the races that it makes. -/
def noteRead (s : State) (a : Acc) (k n : Nat) : State :=
  let s1 := markRaces s a k n
  { s1 with fresh := s1.fresh + 1, stamp := s1.stamp + 1,
            reads := { key := k, len := n, party := a.party, op := a.op, stamp := s1.stamp + 1, src := a.me, strong := a.strong, rmw := a.rmw } :: s1.reads }

/-- The bytes that a read returns with the writes that they come from, the choice made for each byte (R133, R8). -/
def raceRead (s : State) (a : Acc) (landed : Bool) (l : Loc) (bs : List Byte) : State × List (Byte × Option PastByte) :=
  match raceKey l with
  | none => (s, bs.map (fun b => (b, none)))
  | some k => (noteRead s a k bs.length, bs.zipIdx.map (fun b => raceByte s a landed (k + b.2) b.1))

/-- The writes that a unit of n bytes may show or hide: those of its bytes that a read may look behind. -/
def unitWrites (s : State) (a : Acc) (landed : Bool) (k n : Nat) : List PastByte :=
  (List.range n).flatMap (fun i =>
    let es := writesOf s (k + i)
    if freeRead s a es then (if landed then (sinceLanding es).1 else es) else [])

/-- A byte as it stood at a stamp: the newest write up to then, or what was there before. -/
def byteAt (es : List PastByte) (t : Nat) (b : Byte) : Byte :=
  match es.find? (fun e => decide (e.stamp ≤ t)) with
  | some e => e.new
  | none => (es.getLast?.map PastByte.old).getD b

/-- A unit of n bytes read as it stands, or as it stood at one moment that R133 allows: no mixture of its old and new bytes (R147, R333, R411). -/
def unitRead (s : State) (a : Acc) (landed : Bool) (k : Nat) (bs : List Byte) : List Byte :=
  let ws := unitWrites s a landed k bs.length
  let ts := ws.map PastByte.stamp ++ ws.map (fun e => e.stamp - 1)
  match ts[Config.raceChoice s.fresh k % (ts.length + 1)]? with
  | none => bs
  | some t => bs.zipIdx.map (fun b =>
      let es := writesOf s (k + b.2)
      if freeRead s a es then byteAt (if landed && t < ((sinceLanding es).1.getLast?.map PastByte.stamp).getD 0 && (sinceLanding es).2 then [] else es) t b.1 else b.1)

/-- The bytes that an engine reads in units of n bytes, each unit old or new as a whole (R147, R333, R411). -/
def raceUnits (s : State) (a : Acc) (landed : Bool) (n : Nat) (l : Loc) (bs : List Byte) : State × List Byte :=
  match raceKey l with
  | none => (s, bs)
  | some k => (noteRead s a k bs.length, (List.range ((bs.length + n - 1) / n)).flatMap (fun i => unitRead s a landed (k + n * i) ((bs.drop (n * i)).take n)))

/-- What a strong write of a byte inherits: the release sequences that no plain write has ended (R127). -/
def seqsAt (s : State) (a : Acc) (k : Nat) : List StrongRec :=
  if a.strong && !isEngineNo a.party then ((writesOf s k).head?.map PastByte.seqs).getD [] else []

/-- The entry of one byte written, with the releases it belongs to: its own, and for a read-modify-write those whose sequence it goes on (R127). -/
def pastByte (s : State) (a : Acc) (own : List StrongRec) (k : Nat) (old new : Byte) : PastByte :=
  let seqs := seqsAt s a k
  { key := k, old := old, new := new, party := a.party, op := a.op, stamp := s.stamp + 1, src := a.me, strong := a.strong, rmw := a.rmw,
    raced := (writesOf s k).any (racesWith s a) || s.reads.any (racesRead s a k),
    rels := own ++ (if a.rmw then seqs else []), seqs := own ++ seqs }

/-- A write of some bytes remembered, with the releases that it carries itself (R127) and the races that it makes. -/
def raceWrite (s : State) (a : Acc) (own : List StrongRec) (l : Loc) (old new : List Byte) : State :=
  match raceKey l with
  | none => s
  | some k =>
    let es := (old.zip new).zipIdx.map (fun b => pastByte s a own (k + b.2) b.1.1 b.1.2)
    let s1 := markRaces s a k new.length
    { s1 with stamp := s1.stamp + 1, past := es ++ s1.past }

/-- A write put just behind the newest one of its byte in coherence order. -/
def putUnder (e : PastByte) : List PastByte → List PastByte
  | [] => [e]
  | b :: bs => if b.key = e.key then { b with old := e.new } :: { e with old := b.old } :: bs else b :: putUnder e bs

/-- A write remembered that the newest write of its byte hides (R144). -/
def raceUnder (s : State) (a : Acc) (k : Nat) (new : Byte) : State :=
  let e := pastByte s a [] k 0 new
  let s1 := markRaces s a k 1
  { s1 with stamp := s1.stamp + 1, past := putUnder e s1.past }

/-! ## Scope mismatch (R138) -/

/-- The last strong writes of a place's words. -/
def strongAt (s : State) (l : Loc) (n : Nat) : List StrongRec :=
  let ws := strongWords l n
  s.strong.filter (fun r => ws.contains r.word)

/-- A strong write recorded at its words (R138). -/
def recordStrong (s : State) (l : Loc) (n : Nat) (me : StrongRec) : State :=
  let ws := strongWords l n
  { s with strong := ws.map (fun w => { me with word := w, view := [] }) ++ s.strong.filter (fun r => !ws.contains r.word) }

/-- R138: whether an access that counts meets a last strong write that is not mutually scoped with it, under DROP. -/
def mismatch (s : State) (me : StrongRec) (strong counts : Bool) (l : Loc) (n : Nat) : Bool :=
  strong && counts && (partAt s (me.part % outsideBase)).scopemis && (strongAt s l n).any (fun r => !mutuallyScoped r me)

/-! ## Releases and acquires (R127, R128) -/

/-- The recorded releases that an acquire at a scope synchronises with (R128). -/
def syncWith (me : StrongRec) (rs : List StrongRec) : List StrongRec :=
  rs.filter (fun r => !r.view.isEmpty && mutuallyScoped me r && inScope r.vscope r me)

/-- The releases whose sequence a read write belongs to, where the two accesses are mutually scoped and the release's scope reaches the reader (R127, R128). -/
def relsRead (me : StrongRec) (strong : Bool) (e : PastByte) : List StrongRec :=
  if strong && e.strong && mutuallyScoped e.src me then e.rels.filter (fun r => inScope r.vscope r me) else []

/-- The releases of several read bytes. -/
def relsOf (me : StrongRec) (strong : Bool) (es : List (Option PastByte)) : List StrongRec := (es.flatMap (fun e => (e.map (relsRead me strong)).getD [])).eraseDups

/-- What an acquire learns of releases: those that its own scope reaches (R128). -/
def acquired (me : StrongRec) (sc : Scope) (rs : List StrongRec) : View := (rs.filter (inScope sc me)).foldl (fun v r => viewJoin v r.view) []

/-- A release of a party at a scope: everything that happens before it (R127). -/
def relNow (s : State) (p : Nat) (me : StrongRec) (sc : Scope) : StrongRec := { me with view := fullView s p, vscope := sc }

/-- The releases that a party's write carries: itself where it releases, and the party's release fences (R127). -/
def ownRels (s : State) (a : Acc) (rel : Bool) : List StrongRec :=
  (if rel then [relNow s a.party a.me a.me.scope] else []) ++ (knowOf s a.party).fences

/-- One release per scope kept, the newest. -/
def putRel (r : StrongRec) (rs : List StrongRec) : List StrongRec := r :: rs.filter (fun q => q.vscope != r.vscope)

/-- R145: the engines' work that a lane of a group issued after an operation, of engines that a scope contains. -/
def laterEngines (s : State) (g lane op : Nat) (sc : Scope) : List Nat :=
  (s.reqs.filter (fun r => r.g == g && r.lane == lane && decide (op < r.id) && (if r.bulk then EngLevel.dev else .team).within sc)).map Req.id ++
  (s.mcmds.filter (fun c => c.g == g && c.lane == lane && decide (op < c.id) && EngLevel.team.within sc)).map MCmd.id ++
  (s.colls.filter (fun c => c.g == g && c.lane == lane && decide (op < c.id) && EngLevel.fab.within sc)).map Coll.id

/-- R145: a release of a lane performed: its later commands to engines within its scope come after what it releases. -/
def noteOut (s : State) (g lane op : Nat) (r : StrongRec) : State :=
  let s1 := modKnow s (laneParty g lane) (fun k => { k with outs := putRel r k.outs })
  (laterEngines s1 g lane op r.vscope).foldl (fun s i => learn s (engineNo i) r.view) s1

/-- R145: what happens before every access of a command: what was written before its group started, and what its lane's releases at scopes with the engine carry. -/
def cmdView (s : State) (g lane : Nat) (lvl : EngLevel) : View :=
  ((knowOf s (laneParty g lane)).outs.filter (fun r => lvl.within r.vscope)).foldl (fun v r => viewJoin v r.view) [(0, ((getG s g).map Group.born).getD 0)]

end Sys2Proof.Machine
end

