-- ==== Sys2Proof/Machine/Ring.lean ====
section
/-! DEFINITION. Sys2Proof/Machine/Ring.lean: the ring: sending, admitting and delivering packets (R18-R21, R39), and incarnations (R22, R23). -/

namespace Sys2Proof.Machine

/-- The ring stop of a compute stack (R18). -/
def stackStop (k : Nat) : Nat := k + 1
/-- The ring stop of a die (R18). -/
def dieStop (d : Nat) : Nat := if d = 0 then 0 else if d = 1 then 9 else stackStop ((d - 2) / 2)
/-- The base die beneath a stack (R12). -/
def baseDie (k : Nat) : Nat := halfOfStack k
/-- A die's record. -/
def dieAt (s : State) (d : Nat) : Die := nth s.dies d Die.reset

/-- Hops in ascending order from stop a to stop b. -/
def hopsUp (a b : Nat) : Nat := (b + Config.numStops - a) % Config.numStops
/-- R19: ascending unless the other way has fewer hops. -/
def goesUp (a b : Nat) : Bool := decide (hopsUp a b ≤ hopsUp b a)
/-- R19: the flits of a packet with n bytes of payload. -/
def flitsOf (n : Nat) : Nat := ceilDiv (32 + n) 512

/-- A packet presented at a stop (R19, R22) (DESIGN CHOICE, log 37). -/
def sendPkt (s : State) (src dst srcStop dstStop part : Nat) (req : Option (BitVec 16)) (bytes : Nat) (msg : RingMsg) : State :=
  let p : Pkt :=
    { id := s.nextId, src := src, dst := dst, srcStop := srcStop, part := part,
      dstStop := dstStop, fl := [], incarn := (dieAt s src).incarn, reqIncarn := req, flits := flitsOf bytes, up := goesUp srcStop dstStop,
      flying := false, delivered := false, msg := msg }
  { s with nextId := s.nextId + 1, pkts := s.pkts ++ [p] }

/-- A packet by its number. -/
def getPkt (s : State) (i : Nat) : Option Pkt := s.pkts.find? (fun p => p.id == i)
/-- A packet removed. -/
def delPkt (s : State) (i : Nat) : State := { s with pkts := s.pkts.filter (fun p => p.id != i) }

/-- A stop's direction. -/
def stopDir (s : State) (j : Nat) (up : Bool) : StopDir :=
  let st := nth s.stops j Stop.reset
  if up then st.asc else st.desc

/-- A stop's direction changed. -/
def modStop (s : State) (j : Nat) (up : Bool) (f : StopDir → StopDir) : State :=
  { s with stops := s.stops.modify j (fun st => if up then { st with asc := f st.asc } else { st with desc := f st.desc }) }

/-- The stop that a direction enters next, whose signal of starvation reaches this one (R20). -/
def nextStop (j : Nat) (up : Bool) : Nat := if up then (j + 1) % Config.numStops else (j + Config.numStops - 1) % Config.numStops

/-- R39: how far a partition is from its turn at a stop. -/
def turnOf (d : StopDir) (part : Nat) : Nat := (part + 2 * Config.numParts - d.turn - 1) % Config.numParts

/-- Whether a waiting packet has the turn: none of the same stop and direction belongs to a partition nearer to its turn, or stands before it (R39). -/
def hasTurn (s : State) (p : Pkt) : Bool :=
  let d := stopDir s p.srcStop p.up
  s.pkts.all (fun q => q.flying || q.delivered || q.srcStop != p.srcStop || q.up != p.up || q.id == p.id ||
    decide (turnOf d p.part < turnOf d q.part) || (q.part == p.part && decide (p.id < q.id)))

/-- Whether flits already on the ring wait to enter a stop's buffer: they take precedence over a packet that waits there (R20). -/
def throughFlits (s : State) (j : Nat) (up : Bool) : Bool :=
  s.pkts.any (fun p => p.flying && p.up == up && p.fl.any (fun k => k != p.dstStop && nextStop k up == j))

/-- R20: RING_PACKET_ADMIT: the packet enters when no flit on the ring waits for the buffer, two slots stay free and the next stop has not signalled; otherwise a cycle of refusal is counted. -/
def execRingPacketAdmit (pkt : Nat) (s : State) : Out :=
  match getPkt s pkt with
  | none => .next s
  | some p =>
    let d := stopDir s p.srcStop p.up
    if p.flying || p.delivered || !(dieAt s p.src).loaded || (dieAt s p.src).announcing || !hasTurn s p then .next s
    else if d.used + p.flits + 2 ≤ 16 && !throughFlits s p.srcStop p.up && !(stopDir s (nextStop p.srcStop p.up) p.up).starved then
      .next (modStop (modPkt s pkt (fun p => { p with flying := true, fl := List.replicate p.flits p.srcStop })) p.srcStop p.up
        (fun d => { d with used := d.used + p.flits, refused := 0, starved := false, turn := p.part }))
    else .next (modStop s p.srcStop p.up (fun d => { d with refused := d.refused + 1 }))

/-- R20: RING_ADMISSION_STARVED. -/
def execRingAdmissionStarved (stop : Nat) (up : Bool) (s : State) : Out :=
  .next (modStop s stop up (fun d => if 256 ≤ d.refused then { d with starved := true } else d))

/-- R23: whether a receiver drops a packet. -/
def pktStale (s : State) (p : Pkt) : Bool :=
  nth (dieAt s p.dst).table p.src 0 != p.incarn || (p.reqIncarn.isSome && p.reqIncarn != some (dieAt s p.dst).incarn)

/-- One flit moved on to the next stop, where that stop's buffer in its direction has a free slot (R20); it stays at its last stop. -/
def hopFlit (p : Pkt) (st : State × List Nat) (k : Nat) : State × List Nat :=
  let n := nextStop k p.up
  if k = p.dstStop ∨ 16 ≤ (stopDir st.1 n p.up).used then (st.1, st.2 ++ [k])
  else (modStop (modStop st.1 k p.up (fun d => { d with used := d.used - 1 })) n p.up (fun d => { d with used := d.used + 1 }), st.2 ++ [n])

/-- R20, R21, R23: RING_PACKET_DELIVERY: every flit of a packet in flight moves on by a stop where it can, the first first; once all are at their stop, the die there takes the packet, and drops and counts it where it is stale; until its table is loaded it is held at the stop (DESIGN CHOICE, log 37). -/
def execRingPacketDelivery (pkt : Nat) (s : State) : Out :=
  match getPkt s pkt with
  | none => .next s
  | some p =>
    if !p.flying || p.delivered then .next s
    else
      let r := p.fl.foldl (hopFlit p) (s, [])
      if r.2.any (· != p.dstStop) || !(dieAt s p.dst).loaded then .next (modPkt r.1 pkt (fun q => { q with fl := r.2 }))
      else
        let t := modStop r.1 p.dstStop p.up (fun d => { d with used := d.used - p.flits })
        if pktStale t p then .next (modDie (delPkt t pkt) p.dst (fun d => { d with stale := d.stale + 1 }))
        else .next (modPkt t pkt (fun q => { q with flying := false, delivered := true, fl := [] }))

/-- The slots of a packet's flits given back, and its stop's count of refusals ended where no other packet waits there (R20). -/
def freeFlits (s : State) (p : Pkt) (left : List Pkt) : State :=
  let s1 := p.fl.foldl (fun s k => modStop s k p.up (fun d => { d with used := d.used - 1 })) s
  let waits := fun (q : Pkt) => !q.flying && !q.delivered && q.srcStop == p.srcStop && q.up == p.up
  if waits p && !left.any waits then modStop s1 p.srcStop p.up (fun d => { d with refused := 0, starved := false }) else s1

/-- Packets taken off the ring, wherever they stand. -/
def dropPkts (s : State) (bad : Pkt → Bool) : State :=
  let left := s.pkts.filter (fun p => !bad p)
  { (s.pkts.filter bad).foldl (fun s p => freeFlits s p left) s with pkts := left }

/-- The half that an HBM stack stands on (R13). -/
def hbmHalf (k : Nat) : Nat := if k ≤ 5 then 0 else 1

/-! ## The L2, memory and cross-link paths (R22, R23) -/

/-- The die that the requests of a core leave from (R12). -/
def coreDie (core : Nat) : Nat := vsDie (core / Config.coresPerStack)

/-- The die that a request leaves from, and the incarnation that it carries (R22). -/
abbrev Sender := Nat × BitVec 16

/-- A die as the sender of a request made now. -/
def senderNow (s : State) (die : Nat) : Sender := (die, (dieAt s die).incarn)

/-- R23: whether a die may send a packet and another deliver it and answer: both have their tables, and neither announces. -/
def pathOpen (s : State) (src dst : Nat) : Bool :=
  (dieAt s src).loaded && !(dieAt s src).announcing && (dieAt s dst).loaded && !(dieAt s dst).announcing

/-- R23: whether the sender of a request, reset since, drops the reply. -/
def replyStale (s : State) (w : Sender) : Bool := (dieAt s w.1).incarn != w.2

/-- R23: whether a request may be delivered at a die: one made before its sender's last reset is on its way, and needs only that die's table. -/
def mayReach (s : State) (w : Sender) (dst : Nat) : Bool := if replyStale s w then (dieAt s dst).loaded else pathOpen s w.1 dst

/-- R23: whether a receiver drops a request. -/
def reqStale (s : State) (w : Sender) (dst : Nat) : Bool := nth (dieAt s dst).table w.1 0 != w.2

/-- R23: a stale packet dropped and counted at a die. -/
def countStale (s : State) (die : Nat) : State := modDie s die (fun d => { d with stale := d.stale + 1 })

/-- R22: the next incarnation: it skips 0. -/
def nextIncarn (x : BitVec 16) : BitVec 16 := if x = 0xFFFF then 1 else x + 1

end Sys2Proof.Machine
end

