-- ==== Sys2Proof/Machine/L1.lean ====
section
/-! DEFINITION. Sys2Proof/Machine/L1.lean: the L1 ways, their write-backs and drops (R140-R142, R240), presence bits (R143), and accesses to unified memory behind them. -/

namespace Sys2Proof.Machine

/-! ## Lines -/

/-- The first address of the 128-byte line of an address. -/
def lineOf (ua : Nat) : Nat := ua / 128 * 128

/-- The base die that serves a granule: the one of its stack or bank, or of its partition's host port (R12, R13); die 0 where it has no backing. -/
def homeDie (s : State) (part gran : Nat) : Nat :=
  match (granAt (partAt s part) gran).state with
  | .hbm k => hbmHalf k
  | .tier2 h => h
  | .host _ => if (partAt s part).link ≤ 1 then 0 else 1
  | .none => 0

/-- The written bytes of an L1 line put into the memory behind it, as a masked write (R142). -/
def wbPut (s : State) (w : WriteBack) : State := w.bytes.foldl (fun s b => uniSet s w.part b.1 [b.2]) s

/-- R23: a write-back on its way to its home slice: it waits while a die on the path has no table or announces, is dropped and counted where that slice's die finds it stale, and is written otherwise. -/
def wbSend (s : State) (w : WriteBack) : State :=
  match w.bytes with
  | [] => s
  | b :: _ =>
    let home := homeDie s w.part (b.1 / 4096)
    if !mayReach s (w.die, w.inc) home then { s with wbacks := s.wbacks ++ [w] }
    else if reqStale s (w.die, w.inc) home then countStale s home
    else wbPut s w

/-- R23: the write-backs that wait, sent on in their order now that a die's table is loaded or its announcement has ended. -/
def wbFlush (s : State) : State := s.wbacks.foldl wbSend { s with wbacks := [] }

/-- R142: whether written bytes of a core's L1 are on their way, or could not reach their home now: a release waits for them (R129). -/
def wbWaits (s : State) (core : Nat) : Bool :=
  s.wbacks.any (fun w => w.die == coreDie core) ||
  s.ctxs.any (fun c => c.core == core && c.l1.any (fun l => l.written != 0 && !mayReach s (l.die, l.inc) (homeDie s l.part (l.ua / 4096))))

/-- The written bytes of a line as its L1 sends them (R142). -/
def l1WriteBack (s : State) (l : L1Line) : State :=
  wbSend s { die := l.die, inc := l.inc, part := l.part, bytes := (lanesOf l.written).map (fun i => (l.ua + i, nth l.data i 0)) }

/-- Lines of chosen contexts: written back where wb says so, then changed or dropped. -/
def l1Act (s : State) (ctxSel : Ctx → Bool) (lineSel : L1Line → Bool) (wb : Bool) (upd : L1Line → Option L1Line) : State :=
  let s1 := if wb then (s.ctxs.filter ctxSel).foldl (fun s c => (c.l1.filter lineSel).foldl l1WriteBack s) s else s
  { s1 with ctxs := s1.ctxs.map (fun c =>
      if ctxSel c then { c with l1 := c.l1.filterMap (fun l => if lineSel l then upd l else some l) } else c) }

/-- The contexts whose L1 ways stand on a core. -/
def l1On (core : Nat) (c : Ctx) : Bool := c.core == core

/-- R142: a release: every written byte of the core's L1 ways written back, the marks cleared. -/
def l1Release (s : State) (core : Nat) : State := l1Act s (l1On core) (fun _ => true) true (fun l => some { l with written := 0 })

/-- R142: an acquire: every line that is not pinned written back and dropped. -/
def l1Acquire (s : State) (core : Nat) : State := l1Act s (l1On core) (fun l => !l.pinned) true (fun _ => none)

/-- R36: every line of a core written back and dropped, pinned or not (DESIGN CHOICE, log 52). -/
def l1Flush (s : State) (core : Nat) : State := l1Act s (l1On core) (fun _ => true) true (fun _ => none)

/-- Whether a line overlaps n bytes at a unified address (DEDUCED, log 21). -/
def l1Hits (part ua n : Nat) (l : L1Line) : Bool := l.part == part && decide (l.ua < ua + n) && decide (ua < l.ua + 128)

/-- R141: the lines of a strong or bypassing access written back and dropped in the issuing core's L1. -/
def l1Strong (s : State) (core part ua n : Nat) : State := l1Act s (l1On core) (l1Hits part ua n) true (fun _ => none)

/-- A context's line of a unified address (DEDUCED, log 21). -/
def l1Find (c : Ctx) (part ua : Nat) : Option L1Line := c.l1.find? (fun l => l.part == part && l.ua == lineOf ua)

/-- R240: the set of a line. -/
def l1Set (k : LineKey) : Nat :=
  match k with
  | .g obj line => (line % 1024) ^^^ (obj % 1024)
  | .h line => line % 1024

/-- The line key of a G or H pointer (R140). -/
def lineKeyOf (p : Nat) : Option LineKey :=
  match ptrSpace p with
  | 1 => some (.g (ptrF1 p) (ptrOff p / 128))
  | 8 => some (.h (ptrOff p / 128))
  | _ => none

/-- The line key a number of lines further on. -/
def lineKeyAdd (k : LineKey) (i : Nat) : LineKey :=
  match k with
  | .g obj line => .g obj (line + i)
  | .h line => .h (line + i)

/-- The victim of a fill: the least recently used unpinned line of a set (R240). -/
def l1Victim (ls : List L1Line) : Option L1Line :=
  (ls.filter (fun l => !l.pinned)).foldl (fun b l => match b with
    | none => some l
    | some x => if l.stamp < x.stamp then some l else some x) none

/-- R240: a line filled into a team's L1 ways, in place of the victim where its set is full; pinned and filling as asked. -/
def l1Fill (s : State) (ctx part ua : Nat) (k : LineKey) (pinned filling : Bool) : State :=
  match getC s ctx with
  | none => s
  | some c =>
    let set := c.l1.filter (fun l => l1Set l.key == l1Set k)
    let line : L1Line := { die := coreDie c.core, inc := (dieAt s (coreDie c.core)).incarn, key := k, part := part, ua := lineOf ua, data := uniRd s part (lineOf ua) 128, written := 0, pinned := pinned, filling := filling, stamp := s.nextId }
    let s := { s with nextId := s.nextId + 1 }
    if set.length < c.l1w then modC s ctx (fun c => { c with l1 := line :: c.l1 })
    else match l1Victim set with
      | none => s
      | some v =>
        let s := l1WriteBack s v
        modC s ctx (fun c => { c with l1 := { line with data := uniRd s part (lineOf ua) 128 } :: c.l1.filter (fun l => l != v) })

/-- A line's use counted for the replacement order (R240). -/
def l1Use (s : State) (ctx part ua : Nat) : State :=
  match (getC s ctx).bind (fun c => l1Find c part ua) with
  | none => s
  | some _ => { modC s ctx (fun c => { c with l1 := c.l1.map (fun l => if l.part == part && l.ua == lineOf ua then { l with stamp := s.nextId } else l) }) with
      nextId := s.nextId + 1 }

/-- The lines that n bytes at an address touch, as first addresses with their number from the first. -/
def linesOf (ua n : Nat) : List (Nat × Nat) :=
  (List.range ((ua + n - 1) / 128 - ua / 128 + 1)).map (fun i => (i, lineOf ua + 128 * i))

/-- Whether every byte stands in filled lines of the team. -/
def l1Covers (c : Ctx) (part ua n : Nat) : Bool :=
  (linesOf ua n).all (fun x => match l1Find c part x.2 with
    | some l => !l.filling
    | none => false)

/-- Whether a line that n bytes touch is still being filled (R241). -/
def l1Waits (c : Ctx) (part ua n : Nat) : Bool :=
  (linesOf ua n).any (fun x => match l1Find c part x.2 with
    | some l => l.filling
    | none => false)

/-- What the team's L1 or the memory behind it holds at some bytes, nothing changed. -/
def l1Peek (s : State) (ctx part ua n : Nat) : List Byte :=
  (List.range n).map (fun i => match (getC s ctx).bind (fun c => l1Find c part (ua + i)) with
    | some l => nth l.data ((ua + i) % 128) 0
    | none => (uniRd s part (ua + i) 1).headD 0)

/-- R140: a plain load of a team: lines present are used, absent lines are filled where the team has ways. -/
def l1Load (s : State) (ctx part ua n : Nat) (k : Option LineKey) : State × List Byte :=
  let s1 := (linesOf ua n).foldl (fun s x =>
    match getC s ctx with
    | none => s
    | some c =>
      match l1Find c part x.2, k with
      | some _, _ => l1Use s ctx part x.2
      | none, some k => if c.l1w = 0 then s else l1Fill s ctx part x.2 (lineKeyAdd k x.1) false false
      | none, none => s) s
  (s1, l1Peek s1 ctx part ua n)

/-- One byte of a plain store (R140, R233): into the team's line, marked written, or to memory. -/
def l1Store1 (s : State) (ctx part ua : Nat) (b : Byte) : State :=
  match (getC s ctx).bind (fun c => l1Find c part ua) with
  | some _ => modC s ctx (fun c => { c with l1 := c.l1.map (fun l =>
      if l.part == part && l.ua == lineOf ua then { l with data := l.data.set (ua % 128) b, written := l.written ||| oneLane (ua % 128) } else l) })
  | none => uniSet s part ua [b]

/-- The bytes of a plain store, one after another. -/
def l1StoreN (s : State) (ctx part ua : Nat) : List Byte → State
  | [] => s
  | b :: bs => l1StoreN (l1Store1 s ctx part ua b) ctx part (ua + 1) bs

/-- R140, R233, R240: a plain store of a team: the lines it hits are used, its bytes stored. -/
def l1Store (s : State) (ctx part ua : Nat) (bs : List Byte) : State :=
  l1StoreN ((linesOf ua bs.length).foldl (fun s x => l1Use s ctx part x.2) s) ctx part ua bs

/-! ## Presence (R143) -/

/-- The pool line of a key. -/
def poolLine (k : Nat) : Nat := k / 128

/-- The lines whose presence bits engines hold clear, with the bytes still to land. -/
def absentLines (s : State) : List (Nat × Nat) :=
  s.reqs.flatMap Req.absent ++ s.mcmds.flatMap MCmd.absent ++ s.colls.flatMap Coll.absent

/-- Whether every line of n bytes at a place is present; places outside pools are (R143, R239). -/
def locPresent (s : State) (l : Loc) (n : Nat) : Bool :=
  match l with
  | .pool k => (List.range (poolLine (k + n - 1) - poolLine k + 1)).all (fun i => !(absentLines s).any (fun x => x.1 == poolLine k + i))
  | .uni _ _ | .lat _ _ _ | .peer _ _ _ | .mcast _ _ _ => true

/-! ## Granules behind an access (R420, R426, R428, R433, R436) -/

/-- What an access to unified memory meets: it can be made, it is held, its page must be requested, or it goes to the host. -/
inductive Reach where
  | ready
  | held
  | page (gran : Nat)
  | host
  deriving DecidableEq, Repr

/-- The granules that n bytes touch. -/
def gransOf (ua n : Nat) : List Nat := (List.range ((ua + n - 1) / 4096 - ua / 4096 + 1)).map (· + ua / 4096)

/-- A granule with no backing (R428). -/
def granNone (g : Gran) : Bool := g.state == .none && g.moving.isNone

/-- A granule in a host frame (R428). -/
def granHost (g : Gran) : Bool :=
  match g.state with
  | .host _ => true
  | .none | .hbm _ | .tier2 _ => false

/-- R428: what n bytes at a unified address meet. -/
def uniReach (s : State) (part ua n : Nat) : Reach :=
  let gs := (gransOf ua n).map (granAt (partAt s part))
  if gs.any (fun g => g.moving.isSome) then .held
  else match gs.find? granNone with
    | some g => .page g.num
    | none => if gs.any granHost then .host else .ready

/-- What n bytes at a unified address meet for a request: its packets must be sent and delivered (R23). -/
def pathReach (s : State) (w : Sender) (part ua n : Nat) : Reach :=
  if (gransOf ua n).all (fun i => mayReach s w (homeDie s part i)) then uniReach s part ua n else .held

/-- The base die that drops a request for n bytes at a unified address as stale (R23). -/
def staleHome (s : State) (w : Sender) (part ua n : Nat) : Option Nat := ((gransOf ua n).map (homeDie s part)).find? (reqStale s w)

/-- The base die that drops a request for n bytes at a place as stale (R23). -/
def staleAt (s : State) (w : Sender) (l : Loc) (n : Nat) : Option Nat :=
  match l with
  | .uni p ua => staleHome s w p ua n
  | .pool _ | .lat _ _ _ | .peer _ _ _ | .mcast _ _ _ => none

end Sys2Proof.Machine
end

