-- ==== Sys2Proof/Machine/PoolMem.lean ====
section
/-! DEFINITION. Sys2Proof/Machine/PoolMem.lean: issuing loads, stores, atomics and fences, and performing their lanes in the order the memory model allows (R117, R118, R121-R142, R229-R238). -/

namespace Sys2Proof.Machine

/-! ## Issue -/

/-- Words of an access size (R71). -/
def sizeBytes (f : FormM) : Nat := 2 ^ f.size.toNat
/-- Registers that hold a value of n bytes (R232). -/
def regsOf (n : Nat) : Nat := max 1 (n / 4)

/-- Whether a scope is team or wider. -/
def wideScope (sc : Scope) : Bool := sc != .grp
/-- Whether an order acquires. -/
def acqOrder (o : Order) : Bool := o == .acq || o == .ar
/-- Whether an order releases. -/
def relOrder (o : Order) : Bool := o == .rel || o == .ar

/-- The registers of A and B under a last-use mark. -/
def luRegsM (g : Group) (f : FormM) (nB : Nat) : List Nat :=
  (if f.lu.getLsbD 1 then opdRegs g f.a 2 else []) ++ (if f.lu.getLsbD 0 then opdRegs g f.b nB else [])

/-- The vector source registers a format-M instruction touches: only A in the pool class, none in the command class, A and B in the others (R220, R222). -/
def touchedM (g : Group) (op : Nat) (f : FormM) (nA nB : Nat) : List Nat :=
  match classOfOp op with
  | 1 => opdRegs g f.a nA
  | 4 => []
  | _ => opdRegs g f.a nA ++ opdRegs g f.b nB

/-- One lane's address: its pointer with the displacement (R118), or the pointer that has no such sum. -/
def laneAddr (x : GM) (f : FormM) (l : Nat) : Nat × Option Nat :=
  let p := rdOpd x f.a .b64 l
  (p, ptrAdd p (sext f.off.toNat 12 * (sizeBytes f : Int)))

/-- The lanes whose pointers a format-M instruction uses: the lowest effective lane of LDB (R232), no lane of FENCE, else all. -/
def ptrLanes (op : Nat) (eff : Mask) : List Nat :=
  match op with
  | 0x63 => (lanesOf eff).take 1
  | 0x67 => []
  | _ => lanesOf eff

/-- Whether an instruction consults a cache for a pointer of a space: L1 control and ADVISE act on G only (R241, R249), PRES does nothing with X and M pointers (R400). -/
def consults (op sp : Nat) : Bool :=
  match op with
  | 0x6F | 0x70 | 0x71 | 0x72 | 0x76 => sp == 1
  | 0x73 => sp != 9 && sp != 10
  | _ => true

/-- The table entries and region records that a format-M instruction's pointers name, consulted lane by lane (R246, R382). -/
def consultM (s : State) (op : Nat) (x : GM) (f : FormM) (eff : Mask) : State :=
  (ptrLanes op eff).foldl (fun s l => match (laneAddr x f l).2 with
    | some q => if consults op (ptrSpace q) then consult s (coreOf s x.g) (partOf s x.g) q else s
    | none => s) s

/-- A format-M instruction at its first issued pass (R487): registers checked, writes due landed, its registers touched. k gets the group and the effective lanes, which are not empty. -/
def memIssue (s : State) (op : Nat) (f : FormM) (nA nB nD : Nat) (k : State → GM → Clause → W64 → Mask → Out) : Out :=
  withIssue s (fun s g c =>
    let word := BitVec.ofNat 64 (encM op f)
    match frameFail g [(f.a, nA), (f.b, nB), (f.d, nD)] with
    | some r => frameOut s g c f.gd word r
    | none =>
      let x := landAt (gmOf s g) g.pos
      let eff := effNow x.g f.gd
      if eff = 0 then .next (finish1 s (bump x (posCount g [])) c f.gd.sw)
      else k (consultM s op x f eff) ((touchedM g op f nA nB).foldl (fun x r => touchReg x true r) x) c word eff)

/-- The group after a format-M instruction has issued: marks dropped, positions taken, the next instruction. -/
def memDone (x : GM) (c : Clause) (f : FormM) (nB : Nat) (eff : Mask) : GM :=
  let x := (luRegsM x.g f nB).foldl dropReg x
  let x := bump x (posCount x.g (issuedPasses x.g eff))
  { x with g := advance x.g c f.gd.sw }

/-- A lane of an instruction with its checked place. -/
structure LaneAt where
  lane : Nat
  ptr : Nat
  loc : Loc
  deriving DecidableEq, Repr

/-- What the checks over all lanes answer (R117, R236). -/
inductive Chk where
  | go (ls : List LaneAt)
  | wait (p : Park)
  | trap (cause : Cause) (addr : W64)
  deriving DecidableEq, Repr

/-- The table entry or record that a check must wait for. -/
def missOf (r : PtrRes) : Option Park :=
  match r with
  | .missObj k => some (.objMiss k)
  | .missRegion r => some (.regionMiss r)
  | .ok _ | .bad => none

/-- A place a check answered. -/
def locOf (r : PtrRes) : Option Loc :=
  match r with
  | .ok l => some l
  | .bad | .missObj _ | .missRegion _ => none

/-- One lane's check: pointer to record, and the answer. -/
def chkLane (s : State) (x : GM) (f : FormM) (rights : BitVec 4) (l : Nat) : Nat × Nat × PtrRes :=
  match laneAddr x f l with
  | (p, none) => (l, p, .bad)
  | (_, some q) => (l, q, checkPtr s x.g q (sizeBytes f) rights false)

/-- R117: what the lanes' checks come to: first what must be fetched, then the capability fault of the lowest lane. refuse names places that this instruction may not reach. -/
def chkAll (refuse : Loc → Nat → Bool) (rs : List (Nat × Nat × PtrRes)) : Chk :=
  match rs.findSome? (fun r => missOf r.2.2) with
  | some p => .wait p
  | none =>
    match rs.find? (fun r => match locOf r.2.2 with
        | some l => refuse l r.2.1
        | none => true) with
    | some r => .trap .capability (BitVec.ofNat 64 r.2.1)
    | none => .go (rs.filterMap (fun r => (locOf r.2.2).map (fun l => ⟨r.1, r.2.1, l⟩)))

/-- R117: the checks of all lanes. -/
def chkLanes (s : State) (x : GM) (f : FormM) (rights : BitVec 4) (refuse : Loc → Nat → Bool) (ls : List Nat) : Chk :=
  chkAll refuse (ls.map (chkLane s x f rights))

/-- A place at a multicast group (R400). -/
def isMcast (l : Loc) : Bool :=
  match l with
  | .mcast _ _ _ => true
  | .pool _ | .uni _ _ | .lat _ _ _ | .peer _ _ _ => false

/-- A lattice place. -/
def isLat (l : Loc) : Bool :=
  match l with
  | .lat _ _ _ => true
  | .pool _ | .uni _ _ | .mcast _ _ _ | .peer _ _ _ => false

/-- A lane's access about to be made. -/
def laneOp (x : LaneAt) (data : List W32) : LaneOp :=
  { lane := x.lane, ptr := BitVec.ofNat 64 x.ptr, loc := x.loc, key := lineKeyOf x.ptr, data := data, val := [], st := .sent, got := [] }

/-- The die that a group's requests leave from (R12). -/
def groupDie (s : State) (g : Nat) : Nat := coreDie (((getG s g).map (coreOf s)).getD 0)

/-- An operation put in flight under its die's incarnation, its counter raised (R22, R54). -/
def addOp (s : State) (o : Op) : State :=
  { modG s o.g (fun g => cntInc g o.ctr) with ops := s.ops ++ [{ o with inc := (dieAt s (groupDie s o.g)).incarn }] }

/-- The sender of an operation's requests (R22). -/
def opSrc (s : State) (o : Op) : Sender := (groupDie s o.g, o.inc)

/-- Whether a kind of access waits for absent lines (R144). -/
def parksAbsent (k : OpKind) : Bool :=
  match k with
  | .ld _ _ np => !np
  | .ldb _ _ | .atom _ | .acas | .red _ => true
  | _ => false

/-- Whether every line that an operation's lanes touch is present (DESIGN CHOICE, log 20). -/
def opPresent (s : State) (o : Op) : Bool := o.lanes.all (fun x => locPresent s x.loc o.size)

/-- Whether a wait-table entry of the core is free (R326). -/
def entryFree (s : State) (g : Group) : Bool :=
  decide ((s.groups.filter (fun h => h.waitEntry && coreOf s h == coreOf s g)).length < 64)

/-- A group parked in a wait, with a table entry where one is free (R326). -/
def parkWait (s : State) (gid : Nat) (p : Park) (sw : Bool) : State :=
  modG s gid (fun g => { parkAt g p sw with waitEntry := entryFree s g })

/-- The group parked where its operation touches an absent line (R144, R326) (DESIGN CHOICE, log 20). -/
def parkAbsent (s : State) (o : Op) (sw : Bool) : State :=
  if parksAbsent o.kind && !opPresent s o then parkWait s o.g (.absent o.id) sw else s

/-- An operation issued: the group goes on, the operation is in flight, and the group parks on absent lines. -/
def launch (s : State) (x : GM) (o : Op) (sw : Bool) : State :=
  parkAbsent (addOp { putGM s x with nextId := s.nextId + 1 } { o with absent := parksAbsent o.kind && !opPresent s o }) o sw

/-- An access of a format-M instruction with its checked lanes. -/
def opOfM (x : GM) (f : FormM) (id ctr : Nat) (kind : OpKind) (lanes : List LaneOp) (eff : Mask) (word : W64) : Op :=
  { id := id, g := x.g.id, kind := kind, ctr := ctr, lanes := lanes, dst := dstOf x.g f.d f.sn, eff := eff,
    size := sizeBytes f, hold := false, order := f.order, scope := f.scope, word := word, mate := none, inc := 0, absent := false }

/-- The lanes that a load reads: the lowest effective lane of LDB, else all (R232). -/
def loadLanes (bc : Bool) (eff : Mask) : List Nat := if bc then (lanesOf eff).take 1 else lanesOf eff

/-- The lanes whose place is not in a lattice (DEDUCED, log 18). -/
def offLattice (ats : List LaneAt) : List LaneAt := ats.filter (fun a => !isLat a.loc)
/-- The lanes whose place is in a lattice (DEDUCED, log 18). -/
def onLattice (ats : List LaneAt) : List LaneAt := ats.filter (fun a => isLat a.loc)

/-- Whether a counter that a load would raise is full (R54). -/
def loadFull (g : Group) (ats : List LaneAt) : Bool :=
  (!(offLattice ats).isEmpty && cntOf g 0 == 63) || (!(onLattice ats).isEmpty && cntOf g 5 == 63)

/-- A load issued: d0 counts it for its lanes outside space L, d5 for those in it, each until the whole load is complete (R54, R232) (DEDUCED, log 18). -/
def loadLaunch (np bc : Bool) (s : State) (x : GM) (c : Clause) (f : FormM) (eff : Mask) (word : W64) (ats : List LaneAt) : State :=
  let sg := f.sub.getLsbD 0
  let byp := f.sub.getLsbD 1
  let lat := onLattice ats
  let rest := offLattice ats
  let both := !lat.isEmpty && !rest.isEmpty
  let y := memDone x c f 0 eff
  let s1 := if rest.isEmpty then putGM s y
    else launch s y { opOfM x f s.nextId 0 (if bc then .ldb sg byp else .ld sg byp np) (rest.map (fun a => laneOp a [])) eff word with
      mate := if both then some (s.nextId + 1) else none } f.gd.sw
  if lat.isEmpty then s1
  else { addOp s1 { opOfM x f s1.nextId 5 (.ldL sg bc) (lat.map (fun a => laneOp a [])) eff word with mate := if both then some s.nextId else none } with
    nextId := s1.nextId + 1 }

/-- R232: LD, LDNP and LDB; those of L may read raw slots (R389), and no alignment to a cell is asked of them (R375; DESIGN CHOICE, log 103). -/
def loadIssue (op : Nat) (f : FormM) (np bc : Bool) (s : State) : Out :=
  memIssue s op f 2 0 (regsOf (sizeBytes f)) (fun s x c word eff =>
    match chkLanes s x f 1 (fun l _ => isMcast l) (loadLanes bc eff) with
    | .wait p => stallOut s x.g p
    | .trap cause a => trapOut (putGM s x) x.g c word cause 0 eff a
    | .go ats => if loadFull x.g ats then stallOut s x.g .stall else .next (loadLaunch np bc s x c f eff word ats))

/-- R232: LD. -/
def execLd (f : FormM) (s : State) : Out := loadIssue 0x60 f false false s
/-- R232: LDNP. -/
def execLdnp (f : FormM) (s : State) : Out := loadIssue 0x62 f true false s
/-- R232: LDB. -/
def execLdb (f : FormM) (s : State) : Out := loadIssue 0x63 f false true s

/-- A store, atomic or reduction issued: in flight with its data read. -/
def writeLaunch (kind : OpKind) (ctr nB : Nat) (s : State) (x : GM) (c : Clause) (f : FormM) (eff : Mask) (word : W64) (ats : List LaneAt) : State :=
  launch s (memDone x c f nB eff) (opOfM x f s.nextId ctr kind (ats.map (fun a => laneOp a (rdRegs x f.b nB a.lane))) eff word) f.gd.sw

/-- A store, atomic or reduction after its checks: non-monotone before misaligned (R236). -/
def writeIssue (op : Nat) (f : FormM) (nB nD ctr : Nat) (rights : BitVec 4) (kind : OpKind) (atomic : Bool) (refuse : Loc → Nat → Bool) (s : State) : Out :=
  memIssue s op f 2 nB nD (fun s x c word eff =>
    match chkLanes s x f rights refuse (lanesOf eff) with
    | .wait p => stallOut s x.g p
    | .trap cause a => trapOut (putGM s x) x.g c word cause 0 eff a
    | .go ats =>
      match ats.find? (fun a => isLat a.loc), ats.find? (fun a => atomic && ptrOff a.ptr % sizeBytes f != 0) with
      | some a, _ => trapOut (putGM s x) x.g c word .nonMonotone 0 eff (BitVec.ofNat 64 a.ptr)
      | none, some a => trapOut (putGM s x) x.g c word .misalignedAtomic 0 eff (BitVec.ofNat 64 a.ptr)
      | none, none => if cntOf x.g ctr == 63 then stallOut s x.g .stall else .next (writeLaunch kind ctr nB s x c f eff word ats))

/-- R236: an atomic may not reach O. -/
def atomRefuse (_ : Loc) (p : Nat) : Bool := ptrSpace p == 6

/-- R233: ST. -/
def execSt (f : FormM) (s : State) : Out := writeIssue 0x61 f (regsOf (sizeBytes f)) 0 1 2 .st false (fun _ _ => false) s
/-- R234: ATOM. -/
def execAtom (f : FormM) (s : State) : Out :=
  writeIssue 0x64 f (regsOf (sizeBytes f)) (regsOf (sizeBytes f)) 2 11 (.atom f.sub) true (fun l p => atomRefuse l p || isMcast l) s
/-- R235: ACAS. -/
def execAcas (f : FormM) (s : State) : Out :=
  writeIssue 0x65 f (2 * regsOf (sizeBytes f)) (regsOf (sizeBytes f)) 2 11 .acas true (fun l p => atomRefuse l p || isMcast l) s
/-- R234: RED. -/
def execRed (f : FormM) (s : State) : Out :=
  writeIssue 0x66 f (regsOf (sizeBytes f)) 0 2 10 (.red f.sub) true atomRefuse s

/-! ## Performing a lane -/

/-- Whether a kind is a read-modify-write (R123). -/
def isRmw (k : OpKind) : Bool :=
  match k with
  | .atom _ | .acas | .red _ => true
  | _ => false

/-- Whether a kind is an ordinary load. -/
def isLoad (k : OpKind) : Bool :=
  match k with
  | .ld _ _ _ | .ldb _ _ => true
  | _ => false

/-- Whether a kind writes memory. -/
def isWrite (k : OpKind) : Bool :=
  match k with
  | .atom _ | .acas | .red _ | .st => true
  | _ => false

/-- Whether a load bypasses L1 (R232). -/
def bypasses (k : OpKind) : Bool :=
  match k with
  | .ld _ b _ | .ldb _ b => b
  | _ => false

/-- R123: whether an operation's accesses are strong. -/
def isStrong (o : Op) : Bool := isRmw o.kind || ((isLoad o.kind || o.kind == .st) && wideScope o.scope)

/-- Whether two ranges of a place overlap; places named differently do not (R120). -/
def locOverlap (a : Loc) (n : Nat) (b : Loc) (m : Nat) : Bool :=
  let near := fun (x y : Nat) => decide (x < y + m) && decide (y < x + n)
  match a, b with
  | .pool x, .pool y => near x y
  | .uni p x, .uni q y => p == q && near x y
  | .lat p r x, .lat q t y => p == q && r == t && near x y
  | .peer p r x, .peer q t y => p == q && r == t && near x y
  | .mcast p r x, .mcast q t y => p == q && r == t && near x y
  | _, _ => false

/-- A lane access that has been performed or has failed. -/
def laneOver (x : LaneOp) : Bool := x.st == .performed || x.st == .failed || x.st == .valued

/-- Whether a kind accesses memory or a lattice (R121, R145). -/
def isAccess (k : OpKind) : Bool :=
  match k with
  | .ld _ _ _ | .ldb _ _ | .atom _ | .acas | .red _ | .st | .ldL _ _ | .jst | .jld | .jldn | .jadd | .bar _ => true
  | _ => false

/-- Whether lane access y of operation p stands for a lane: its own, or any effective lane of an LDB. -/
def standsFor (p : Op) (y : LaneOp) (lane : Nat) : Bool :=
  y.lane == lane || (p.eff.getLsbD lane && (match p.kind with
    | .ldb _ _ => true
    | .ldL _ b => b
    | _ => false))

/-- Whether an earlier operation of the group stops lane x of operation o from being performed: the same location, an acquire not yet returned, a release, or an access that a release fence orders before later writes (R127, R129, R136). -/
def blockedBy (o : Op) (x : LaneOp) (p : Op) : Bool :=
  isAccess p.kind && p.lanes.any (fun y => !laneOver y && standsFor p y x.lane &&
    (locOverlap x.loc o.size y.loc p.size || acqOrder p.order || relOrder o.order || (p.hold && isWrite o.kind)))

/-- Whether writes of the group that left the module or went to the host, or written L1 bytes that cannot reach their home yet, hold back a release at a scope (R23, R142, R237, R401, R426) (DEDUCED, log 22). -/
def writesHold (s : State) (g id : Nat) (sc : Scope) : Bool :=
  ((sc == .fab || sc == .sys) && s.pwrites.any (fun w => w.g == g && decide (w.op < id))) ||
  (sc == .sys && s.hwrites.any (fun w => w.g == g)) || (wideScope sc && (getG s g).any (fun h => wbWaits s (coreOf s h)))

/-- Whether a lane may be performed now as far as order goes. -/
def orderFree (s : State) (o : Op) (x : LaneOp) : Bool :=
  x.st == .sent &&
  !(s.ops.any (fun p => p.g == o.g && decide (p.id < o.id) && blockedBy o x p)) &&
  !(o.kind == .st && o.lanes.any (fun y => decide (y.lane < x.lane) && !laneOver y && locOverlap x.loc o.size y.loc o.size)) &&
  !(relOrder o.order && writesHold s o.g o.id o.scope)

/-- Whether an earlier access of some lanes of a group is not yet performed (R136). -/
def lanesBehind (s : State) (g id : Nat) (ls : List Nat) : Bool :=
  s.ops.any (fun p => p.g == g && decide (p.id < id) && isAccess p.kind && p.lanes.any (fun y => !laneOver y && ls.any (fun i => standsFor p y i)))

/-- What a lane meets where it goes: absent pool lines hold it, and a plain access may be served by the team's L1 (DESIGN CHOICE, log 20). -/
def laneReach (s : State) (o : Op) (x : LaneOp) : Reach :=
  match x.loc with
  | .pool _ => if parksAbsent o.kind && !locPresent s x.loc o.size then .held else .ready
  | .uni p ua =>
    if o.kind == .pres then .ready
    else match (getG s o.g).bind (ctxOf s) with
      | none => .held
      | some c =>
        if isStrong o || bypasses o.kind then pathReach s (opSrc s o) p ua o.size
        else if l1Waits c p ua o.size then .held
        else if l1Covers c p ua o.size then .ready
        else pathReach s (opSrc s o) p ua o.size
  | .lat _ _ _ | .peer _ _ _ | .mcast _ _ _ => if o.kind == .pres then .ready else .held

/-- The words a load writes from its bytes (R232). -/
def loadWords (signed : Bool) (bs : List Byte) : List W32 :=
  let n := bs.length
  let v := leValue bs
  if n < 4 then [BitVec.ofNat 32 (if signed then wrap (sext v (8 * n)) 32 else v)]
  else (List.range (n / 4)).map (wordOf v)

/-- The value of data words. -/
def wordsValue (ws : List W32) : Nat := packElems 32 (ws.map BitVec.toNat)

/-- R234: the new value of a read-modify-write of n bytes. -/
def atomNew (op n old b : Nat) : Nat :=
  let w := 8 * n
  let sm := fun (p : Int → Int → Bool) => if p (sext b w) (sext old w) then b else old
  match op with
  | 0 => (old + b) % 2 ^ w
  | 1 => sm (fun x y => decide (x < y))
  | 2 => sm (fun x y => decide (y < x))
  | 3 => min old b
  | 4 => max old b
  | 5 => old &&& b
  | 6 => old ||| b
  | 7 => old ^^^ b
  | 8 => b
  | 9 => (faddVal .f32 .rne false old b).1
  | 10 => (fminmaxnumVal .f32 false false old b).1
  | _ => (fminmaxnumVal .f32 false true old b).1

/-- The bytes a lane writes where the old bytes are known; none where it writes nothing (R233-R235) (DESIGN CHOICE, log 19). -/
def laneWrites (o : Op) (x : LaneOp) (old : Nat) : Option (List Byte) :=
  let n := o.size
  match o.kind with
  | .st => some (leBytes n (wordsValue x.data))
  | .atom op | .red op => some (leBytes n (atomNew op.toNat n old (wordsValue x.data)))
  | .acas => if old == wordsValue (x.data.take (n / 4)) then some (leBytes n (wordsValue (x.data.drop (n / 4)))) else none
  | _ => none

/-- The words a lane returns from the bytes it read. -/
def laneReturns (o : Op) (bs : List Byte) : List W32 :=
  match o.kind with
  | .ld sg _ _ | .ldb sg _ | .ldL sg _ => loadWords sg bs
  | .atom _ | .acas => loadWords false bs
  | _ => []

/-- The parts in which an access is single-copy atomic (R122), as first byte and length: the whole up to 8 aligned bytes, aligned 8-byte parts above, single bytes where it is not aligned. -/
def unitsOf (o : Op) (x : LaneOp) : List (Nat × Nat) :=
  if ptrOff x.ptr.toNat % o.size != 0 then (List.range o.size).map (fun i => (i, 1))
  else if o.size ≤ 8 then [(0, o.size)]
  else (List.range (o.size / 8)).map (fun i => (8 * i, 8))

/-- The parts of a lane's access that some of its bytes name and that are not yet performed. -/
def unitsDue (o : Op) (x : LaneOp) (bytes : W32) : List (Nat × Nat) :=
  (unitsOf o x).filter (fun u => !(x.got.any (fun b => b.1 == u.1)) && (List.range u.2).any (fun i => bytes.getLsbD (u.1 + i)))

/-- One part of a lane's access, as an access of its own. -/
def unitLane (o : Op) (x : LaneOp) (u : Nat × Nat) : LaneOp :=
  if u.2 = o.size then x
  else { x with loc := locUp x.loc u.1, key := lineKeyOf (x.ptr.toNat + u.1), data := (List.range 2).map (wordOf (wordsValue x.data >>> (8 * u.1))) }

/-- Who a group's access comes from, for R125 and R138; a firmware agent is of no team (R124). -/
def partyOf (s : State) (g : Group) (sc : Scope) : StrongRec :=
  { word := 0, group := g.id, team := if g.agent then 2 ^ 42 + g.id else g.team, stack := stackOf s g, part := partOf s g, scope := sc, view := [], vscope := sc }

/-- The bytes that a lane's access finds on its path: in L1 for a plain access, else past it (R140, R141). -/
def pathRead (s : State) (core ctx : Nat) (o : Op) (x : LaneOp) : State × List Byte :=
  match x.loc with
  | .pool k => (s, memRdN s.mem k o.size)
  | .uni p ua =>
    if isStrong o || bypasses o.kind then
      let s := l1Strong s core p ua o.size
      (s, uniRd s p ua o.size)
    else if isLoad o.kind then l1Load s ctx p ua o.size x.key
    else (s, l1Peek s ctx p ua o.size)
  | .lat _ _ _ | .peer _ _ _ | .mcast _ _ _ => (s, [])

/-- The bytes that a lane's access writes put on its path (R140, R141, R233). -/
def pathWrite (s : State) (ctx : Nat) (o : Op) (x : LaneOp) (nb : List Byte) : State :=
  match x.loc with
  | .pool k => poolSet s k nb
  | .uni p ua => if isStrong o || bypasses o.kind then uniSet s p ua nb else l1Store s ctx p ua nb
  | .lat _ _ _ | .peer _ _ _ | .mcast _ _ _ => s

/-- A lane's access for the rules of races. -/
def accOf (s : State) (g : Group) (o : Op) (lane : Nat) : Acc :=
  { party := laneParty g.id lane, op := o.id, me := partyOf s g o.scope, strong := isStrong o, rmw := isRmw o.kind }

/-! ## Scope mismatch and synchronisation (R125, R127, R128, R137, R138) -/

/-- R138: a strong access at its point of performance: a mismatch with the last strong write sets %SCOPEFLAG under DROP. -/
def scopeFlag (s : State) (g : Group) (o : Op) (x : LaneOp) (me : StrongRec) : State :=
  if mismatch s me (isStrong o) (isRmw o.kind || acqOrder o.order) x.loc o.size then modG s g.id (fun g => { g with scopeflag := true }) else s

/-- R127, R128: what a read synchronises with: an acquire learns the releases that it reads, a relaxed strong read keeps them for a later fence; an acquire at group scope learns what the lanes of its group know (DESIGN CHOICE, log 19). -/
def syncRead (s : State) (g : Group) (o : Op) (a : Acc) (es : List (Option PastByte)) : State :=
  if !a.strong then (if acqOrder o.order then learn s a.party (lanesView s g.id (List.range g.width)) else s)
  else
    let rs := relsOf a.me true es
    if acqOrder o.order then learn s a.party (acquired a.me a.me.scope rs)
    else if rs.isEmpty then s else modKnow s a.party (fun k => { k with seen := rs ++ k.seen })

/-- R127, R138, R145: a performed write remembered: its releases, the last strong write of its words, and what later commands of its lane come after. -/
def syncWrite (s : State) (g : Group) (o : Op) (x : LaneOp) (a : Acc) (old new : List Byte) : State :=
  let rel := relOrder o.order
  let s1 := raceWrite s a (ownRels s a rel) x.loc old new
  let s2 := if a.strong then recordStrong s1 x.loc o.size a.me else s1
  if rel then noteOut s2 g.id x.lane o.id (relNow s2 a.party a.me a.me.scope) else s2

/-- The bytes that a lane's access reads where it races (R133), nothing for a store: its path's bytes stand for the old ones. -/
def laneRead (s : State) (a : Acc) (o : Op) (x : LaneOp) (bs : List Byte) : State × List (Byte × Option PastByte) :=
  if o.kind = .st then (s, bs.map (fun b => (b, none))) else raceRead s a o.absent x.loc bs

/-- A part of a lane's access performed at one moment: its path read, the scope check, the value chosen where it races, what it synchronises with, its bytes written and remembered (R122, R127, R132, R133, R138, R233, R234). -/
def access (s : State) (g : Group) (o : Op) (x : LaneOp) : State × List Byte :=
  let a := accOf s g o x.lane
  let r := pathRead s (coreOf s g) g.ctx o x
  let s0 := scopeFlag r.1 g o x a.me
  let q := laneRead s0 a o x r.2
  let bs := q.2.map (·.1)
  let s1 := if o.kind = .st then q.1 else syncRead q.1 g o a (q.2.map (·.2))
  match laneWrites o x (leValue bs) with
  | none => (s1, bs)
  | some nb => (pathWrite (syncWrite s1 g o x a r.2 nb) g.ctx o x nb, if o.kind = .st then nb else bs)

/-! ## Acquire and release actions (R142, R224) -/

/-- R142, R224: what a release of a group at team scope or wider does first. -/
def releaseAct (s : State) (g : Group) : State := modGM (l1Release s (coreOf s g)) g.id ocWriteBackAll

/-- R142, R224: what an acquire of a group at team scope or wider does. -/
def acquireAct (s : State) (g : Group) : State := modG (l1Acquire s (coreOf s g)) g.id ocAcquire

/-- A returned value written for a lane: to its own lane, to every effective lane of an LDB, and to a scalar from the lowest effective lane only (R29, R222, R232). -/
def returnValue (s : State) (o : Op) (lane : Nat) (ws : List W32) : State :=
  let bc := match o.kind with
    | .ldb _ _ => true
    | .bar b | .ldL _ b => b
    | _ => false
  let ls := if bc then lanesOf o.eff else [lane]
  let ls := match o.dst with
    | .scal _ => if some lane == lowLane o.eff || bc then ls else []
    | .vec _ _ | .none => ls
  if ws.isEmpty then s else modGM s o.g (fun x => putDst x o.dst (ls.map (fun l => (l, ws))))

/-- A lane's state changed. -/
def setLane (s : State) (id lane : Nat) (f : LaneOp → LaneOp) : State :=
  modOp s id (fun o => { o with lanes := o.lanes.map (fun x => if x.lane = lane then f x else x) })

/-- A lane access whose value, if any, is written. -/
def laneWritten (x : LaneOp) : Bool := x.st == .performed || x.st == .failed

/-- An operation that leaves, its counter falling (R54). -/
def opLeave (s : State) (o : Op) : State := modG (delOp s o.id) o.g (fun g => cntDec g o.ctr)

/-- R54: an operation all of whose lanes are over and whose values are written leaves, and its counter falls; the two halves of one load leave together. -/
def opEnd (s : State) (id : Nat) : State :=
  match getOp s id with
  | none => s
  | some o =>
    if o.lanes.all laneWritten then
      match o.mate.bind (getOp s) with
      | none => opLeave s o
      | some m => if m.lanes.all laneWritten then opLeave (opLeave s m) o else s
    else s

/-- A lane whose access is not made; its group takes a trap at its next switch point, with the pointer of the lowest failed lane (R238, R24, R279, R427). -/
def failLane (s : State) (o : Op) (lane cause sub : Nat) : State :=
  match o.lanes.find? (fun x => x.lane == lane) with
  | none => s
  | some x =>
    let s := setLane s o.id lane (fun x => { x with st := .failed })
    let p : PendTrap := { kept := false, cause := cause, sub := sub, lanes := oneLane lane, addr := x.ptr, word := o.word }
    let same := fun q : PendTrap => q.cause == cause && q.sub == sub && q.word == o.word && !q.kept
    let put := fun qs : List PendTrap =>
      if qs.any same then qs.map (fun q => if same q then
        { q with lanes := q.lanes ||| oneLane lane, addr := if (lanesOf q.lanes).all (fun l => decide (lane < l)) then x.ptr else q.addr } else q)
      else qs ++ [p]
    let s := modG s o.g (fun g => { g with pendTraps := put g.pendTraps })
    opEnd s o.id

/-- Whether a kind is OBJQ, whose values are known when it issues (R247). -/
def isQuery (k : OpKind) : Bool :=
  match k with
  | .objq _ => true
  | _ => false

/-- Whether a place is reached by packets that leave the core's die within the module (R22). -/
def offCore (l : Loc) : Bool :=
  match l with
  | .uni _ _ | .lat _ _ _ => true
  | .pool _ | .peer _ _ _ | .mcast _ _ _ => false

/-- A lane that is over without a value: a base die or its own die dropped its packet and counted it (R23). -/
def dropLane (s : State) (o : Op) (lane die : Nat) : State :=
  opEnd (setLane (countStale s die) o.id lane (fun x => { x with st := .performed })) o.id

/-- A lane whose access is wholly performed (R136): the acquire action, the value written; a reply that finds its die reset since is dropped (R23). -/
def performEnd (s : State) (g : Group) (o : Op) (x : LaneOp) (bs : List Byte) : State :=
  if offCore x.loc && replyStale s (opSrc s o) then dropLane s o x.lane (opSrc s o).1 else
  let s := if acqOrder o.order && wideScope o.scope then acquireAct s g else s
  let ws := laneReturns o bs
  let s := returnValue s o x.lane ws
  opEnd (setLane s o.id x.lane (fun x => { x with st := .performed, val := ws })) o.id

/-- The release action of a lane's access, before it is performed (R142, R224). -/
def performStart (s : State) (g : Group) (o : Op) : State := if relOrder o.order && wideScope o.scope then releaseAct s g else s

/-- PERFORMING ONE LANE (R136): the release action, the access by f, the acquire action, the value written. -/
def performWith (s : State) (g : Group) (o : Op) (x : LaneOp) (f : State → State × List Byte) : State :=
  let r := f (performStart s g o)
  performEnd r.1 g o x r.2

/-- One part of a lane's access performed, with the bytes so far. -/
def unitStep (g : Group) (o : Op) (x : LaneOp) (st : State × List (Nat × Byte)) (u : Nat × Nat) : State × List (Nat × Byte) :=
  let r := access st.1 g { o with size := u.2 } (unitLane o x u)
  (r.1, st.2 ++ r.2.zipIdx.map (fun b => (u.1 + b.2, b.1)))

/-- Some parts of a lane's access performed; the lane is over with the last (R122). -/
def performUnits (s : State) (g : Group) (o : Op) (x : LaneOp) (us : List (Nat × Nat)) : State :=
  let r := us.foldl (unitStep g o x) (performStart s g o, x.got)
  if r.2.length = o.size then performEnd r.1 g o x ((List.range o.size).map (fun i => ((r.2.find? (fun b => b.1 == i)).map (·.2)).getD 0))
  else setLane r.1 o.id x.lane (fun x => { x with got := r.2 })

/-- Whether a lane's access is served by its team's L1 (R140). -/
def l1Served (s : State) (g : Group) (o : Op) (x : LaneOp) : Bool :=
  match x.loc with
  | .uni p ua => !(isStrong o || bypasses o.kind) && (ctxOf s g).any (fun c => l1Covers c p ua o.size)
  | .pool _ | .lat _ _ _ | .peer _ _ _ | .mcast _ _ _ => false

/-- Whether a lane's access reads a line with an uncorrectable error: a load, atomic or reduction past L1 (R279, R441) (DESIGN CHOICE, log 43). -/
def laneBad (s : State) (g : Group) (o : Op) (x : LaneOp) : Bool := (isLoad o.kind || isRmw o.kind) && badLine s x.loc o.size && !l1Served s g o x

/-- One lane performed, or those of its parts that some bytes name, where order and its place allow it (R122, R136). -/
def performLane (s : State) (id lane : Nat) (bytes : W32) : State :=
  match getOp s id with
  | none => s
  | some o =>
    match getG s o.g, o.lanes.find? (fun x => x.lane == lane) with
    | some g, some x =>
      if o.kind == .pres && x.st == .sent then
        let ws := [if locPresent s x.loc o.size then 1 else 0]
        opEnd (setLane (returnValue s o lane ws) id lane (fun x => { x with st := .performed, val := ws })) id
      else if isQuery o.kind && x.st == .sent then
        opEnd (setLane (returnValue s o lane x.val) id lane (fun x => { x with st := .performed })) id
      else if orderFree s o x && laneReach s o x == .ready then
        match if l1Served s g o x then none else staleAt s (opSrc s o) x.loc o.size with
        | some d => dropLane s o lane d
        | none => if laneBad s g o x then failLane s o lane 0x10 1 else performUnits s g o x (unitsDue o x bytes)
      else s
    | _, _ => s

/-- Lanes of an operation performed in ascending order, where the kind is right. -/
def performLanes (ok : OpKind → Bool) (id : Nat) (lanes : Mask) (bytes : W32) (s : State) : State :=
  match getOp s id with
  | none => s
  | some o => if ok o.kind then (lanesOf lanes).foldl (fun s l => performLane s id l bytes) s else s

/-- R229, R230: STORE_PERFORMED. -/
def execStorePerformed (op : Nat) (acc : LaneBytes) (s : State) : Out := .next (performLanes (· == .st) op acc.lanes acc.bytes s)

/-- R144: PARKED_LOAD_WAKE. -/
def execParkedLoadWake (op : Nat) (s : State) : Out :=
  match getOp s op with
  | none => .next s
  | some o =>
    .next (if opPresent s o then modG s o.g (fun g => if g.park = .absent op then { unpark g with waitEntry := false } else g) else s)

/-! ## Fences (R130, R237) -/

/-- Whether every store, atomic and reduction that a group has issued is performed at a scope. -/
def fenceDrained (s : State) (g : Group) (sc : Scope) : Bool :=
  !(s.ops.any (fun o => o.g == g.id && isWrite o.kind && o.lanes.any (fun x => !laneOver x))) && !writesHold s g.id s.nextId sc

/-- Earlier strong loads and atomics in flight become acquires (R127). -/
def markAcquire (s : State) (g : Nat) (sc : Scope) : State :=
  { s with ops := s.ops.map (fun o =>
      if o.g == g && isStrong o && (isLoad o.kind || isRmw o.kind) then
        { o with order := (match o.order with
            | .rlx | .acq => .acq
            | .rel | .ar => .ar), scope := if wideScope o.scope then o.scope else sc }
      else o) }

/-- Every access in flight that a release fence orders before later writes (R129, R136) (DEDUCED, log 22). -/
def markHold (s : State) (g : Nat) : State := { s with ops := s.ops.map (fun o => if o.g == g then { o with hold := true } else o) }

/-- R127, R145: a release fence of one lane: its later writes, and its later commands to engines, carry what happens before it. -/
def fenceRel (s : State) (g : Group) (sc : Scope) (lane : Nat) : State :=
  let p := laneParty g.id lane
  let r := relNow s p (partyOf s g sc) sc
  if r.view.isEmpty then s else noteOut (modKnow s p (fun k => { k with fences := putRel r k.fences })) g.id lane s.nextId r

/-- R127: an acquire fence: each lane learns the releases that its earlier strong reads returned, as far as the scopes go (DESIGN CHOICE, log 19). -/
def fenceKnow (s : State) (g : Group) (o : Order) (sc : Scope) (eff : Mask) : State :=
  if !acqOrder o then s
  else (lanesOf eff).foldl (fun s l =>
    let p := laneParty g.id l
    let me := partyOf s g sc
    if wideScope sc then learn s p (acquired me sc (knowOf s p).seen)
    else learn s p (lanesView s g.id (List.range g.width))) s

/-- R130, R142: a fence that waits for nothing: a release first makes earlier writes of the group visible, then an acquire drops what later reads may not see. -/
def fenceGo (s : State) (x : GM) (c : Clause) (f : FormM) (eff : Mask) : State :=
  let s0 := putGM s (memDone x c f 0 eff)
  let s1 := fenceKnow (if relOrder f.order then (lanesOf eff).foldl (fun s l => fenceRel s x.g f.scope l) s0 else s0) x.g f.order f.scope eff
  let s2 := if relOrder f.order then markHold (if wideScope f.scope then releaseAct s1 x.g else s1) x.g.id else s1
  if acqOrder f.order then (if wideScope f.scope then acquireAct (markAcquire s2 x.g.id f.scope) x.g else markAcquire s2 x.g.id f.scope) else s2

/-- R130: FENCE. -/
def execFence (f : FormM) (s : State) : Out :=
  memIssue s 0x67 f 0 0 0 (fun s x c _ eff =>
    if relOrder f.order && !fenceDrained s x.g f.scope then stallOut s x.g (.fence f.order f.scope)
    else .next (fenceGo s x c f eff))

/-- R237: FENCE_DRAIN_DONE: the stall ends and the fence issues again. -/
def execFenceDrainDone (gid : Nat) (s : State) : Out :=
  match getG s gid with
  | none => .next s
  | some g =>
    match g.park with
    | .fence _ sc => .next (if fenceDrained s g sc then modG s gid (fun g => { g with park := .none }) else s)
    | _ => .next s

end Sys2Proof.Machine
end

