-- ==== Sys2Proof/Machine/Pending.lean ====
section
/-! DEFINITION. Sys2Proof/Machine/Pending.lean: the matrix engine's classes and the places that a command or a copy reads and writes (R332, R333, R348-R351, R362), and what a shrink waits for (R244, R344, R371). -/

namespace Sys2Proof.Machine

/-! ## Classes (R348) -/

/-- R348: an operand descriptor's class (for Qm, 16 plus m), k per step and row bytes per step. -/
def mClass (d : Nat) : Option (Nat × Nat × Nat) :=
  if !descLegal d then none
  else match descFmt d with
    | 1 | 2 => some (0, 64, 128)
    | 3 | 4 | 8 => some (1, 128, 128)
    | 5 | 6 => some (2, 256, 192)
    | 7 | 9 => some (2, 256, 128)
    | c => if 0x10 ≤ c then some (c + 2, 512, 64 * (c - 14)) else none

/-- k per step (R348). -/
def mK (d : Nat) : Nat := ((mClass d).map (fun x => x.2.1)).getD 0
/-- Row bytes per step (R348). -/
def mRB (d : Nat) : Nat := ((mClass d).map (fun x => x.2.2)).getD 0
/-- Scale bytes of n elements of a row; 0 for an unscaled descriptor (R351, R363). -/
def scaleBytes (d n : Nat) : Nat := if descBlk d = 0 then 0 else n / blkLen (descBlk d)

/-- R362: a drain descriptor. -/
def drainDesc (d : Nat) : Bool := descLegal d && descFmt d != 5 && descFmt d != 6
/-- R362: bytes of a drained row. -/
def drainBytes (d : Nat) : Nat := 8 * ((fmOf (descFmt d)).map fmBits).getD 0

/-! ## Places -/

/-- R350, R351: the operand and scale bytes of steps a to b - 1 of an MMA. -/
def stepPlaces (c : MCmd) (a b : Nat) : List (Loc × Nat) :=
  let side := fun (x : Loc) (sc : Option Loc) (d : Nat) =>
    (locUp x (64 * mRB d * a), 64 * mRB d * (b - a)) :: (match sc with
      | some y => [(locUp y (64 * scaleBytes d (mK d) * a), 64 * scaleBytes d (mK d) * (b - a))]
      | none => [])
  side c.asrc c.ascl c.adesc ++ side c.bsrc c.bscl c.bdesc

/-- The rows of a drain: 64 direct, and 64 transposed where XDST is given (R363). -/
def drainRows (c : MCmd) : Nat := if c.xdst.isSome then 128 else 64

/-- R363: the element bytes and the scale bytes of a drain's row. -/
def rowPlaces (c : MCmd) (r : Nat) : List (Loc × Nat) :=
  let side := fun (x : Loc) (sc : Option Loc) (d pitch i : Nat) =>
    (locUp x (i * pitch), drainBytes d) :: (match sc with
      | some y => [(locUp y (i * scaleBytes d 64), scaleBytes d 64)]
      | none => [])
  if r < 64 then side c.dst c.dsc c.ddesc c.dpitch r
  else match c.xdst with
    | some x => side x c.xsc c.xdesc c.xpitch (r - 64)
    | none => []

/-- The places that a pending matrix command reads or drains to. -/
def cmdPlaces (c : MCmd) : List (Loc × Nat) :=
  match c.kind with
  | .mma => stepPlaces c 0 c.steps
  | .adrain => (List.range (drainRows c)).flatMap (rowPlaces c)
  | .azero | .amov | .ains => []

/-- Bytes of an element of a collective's type (R408). -/
def collBytes (ty : Nat) : Nat :=
  match ty with
  | 4 | 5 => 2
  | 6 | 7 | 8 => 8
  | _ => 4

/-- SEND's bytes (R409). -/
def sendLen (kind n count ty : Nat) : Nat := if kind = 4 then 0 else collBytes ty * count * (if kind = 1 then n else 1)
/-- RECV's bytes (R409). -/
def recvLen (kind n count ty : Nat) : Nat := if kind = 4 then 0 else collBytes ty * count * (if kind = 2 then n else 1)

/-- The places of a pending collective's buffers. -/
def collPlaces (c : Coll) : List (Loc × Nat) :=
  (c.send.toList.map (fun l => (l, sendLen c.kind c.n c.count c.ty))) ++ (c.recv.toList.map (fun l => (l, recvLen c.kind c.n c.count c.ty)))

/-- Whether n bytes at a place touch pool keys from lo to hi. -/
def touches (x : Loc × Nat) (lo hi : Nat) : Bool :=
  match x.1 with
  | .pool k => decide (k < hi) && decide (lo < k + x.2)
  | .uni _ _ | .lat _ _ _ | .peer _ _ _ | .mcast _ _ _ => false

/-! ## Units of a copy (R332, R333) -/

/-- The offset of unit i from the pointer of one side: its place in the row, and rows by the strides; e replaces the first row index where it is an entry. -/
def unitOff (u n0 n1 n2 : Nat) (ss : List Int) (i : Nat) (e : Option Nat) : Int :=
  let r := i / n0
  ((i % n0 * u : Nat) : Int) + ((e.getD (r % n1) : Nat) : Int) * nth ss 0 0 + ((r / n1 % n2 : Nat) : Int) * nth ss 1 0 + ((r / n1 / n2 : Nat) : Int) * nth ss 2 0

/-- R333: whether a row of n bytes at an offset from a pointer's offset stays within its limit. -/
def rowIn (off lim n : Nat) (d : Int) : Bool := decide (0 ≤ (off : Int) + d) && decide ((off : Int) + d + n ≤ lim)

/-- The units of a request. -/
def reqUnits (r : Req) : Nat := r.n0 * r.n1 * r.n2 * r.n3
/-- The bytes of a row. -/
def rowBytes (r : Req) : Nat := r.n0 * r.unit
/-- The total bytes (R332). -/
def reqBytes (r : Req) : Nat := reqUnits r * r.unit

/-- The row of a unit. -/
def rowOf (r : Req) (i : Nat) : Nat := i / r.n0
/-- The entry of a unit's row: none while it has not been read. -/
def entryOf (r : Req) (i : Nat) : Option Nat := nth r.idx (rowOf r i) none

/-- The source place of a unit. -/
def unitSrc (r : Req) (i : Nat) : Loc :=
  locShift r.src (unitOff r.unit r.n0 r.n1 r.n2 r.ss i (if r.form = .gath then entryOf r i else none))
/-- The destination place of a unit. -/
def unitDst (r : Req) (i : Nat) : Loc :=
  locShift r.dst (unitOff r.unit r.n0 r.n1 r.n2 r.ds i (if r.form = .scat then entryOf r i else none))

/-- What a unit of a request asks for (R332, R333). -/
inductive UnitDo where
  | unread
  | skip
  | zero
  | drop
  | move
  | fill
  deriving DecidableEq, Repr

/-- R333: an entry that skips its row. -/
def skipEntry : Nat := 0xFFFFFFFF

/-- Whether the row of an entry is in range. -/
def entryIn (r : Req) (e : Nat) : Bool :=
  if r.form = .gath then rowIn r.soff r.lim (rowBytes r) ((e : Int) * nth r.ss 0 0) else rowIn r.doff r.lim (rowBytes r) ((e : Int) * nth r.ds 0 0)

/-- R332, R333: what a unit asks for. -/
def unitDo (r : Req) (i : Nat) : UnitDo :=
  match r.form with
  | .cpy => .move
  | .cfill => .fill
  | .gath | .scat =>
    match entryOf r i with
    | none => .unread
    | some e => if e = skipEntry then .skip else if entryIn r e then .move else if r.form = .gath then .zero else .drop

/-- Whether a request that is not complete may still write pool keys from lo to hi: a destination of a unit, or, for an index entry not yet read, any row that its pointer reaches (R332, R344). -/
def reqTouches (r : Req) (lo hi : Nat) : Bool :=
  (List.range (reqUnits r)).any (fun i =>
    match unitDo r i with
    | .unread => if r.form = .scat then touches (locShift r.dst (-(r.doff : Int)), r.lim) lo hi else touches (unitDst r i, r.unit) lo hi
    | .drop => false
    | .skip => r.form = .gath && touches (unitDst r i, r.unit) lo hi
    | .zero | .move | .fill => touches (unitDst r i, r.unit) lo hi)

/-- The registers that an AMOV or AINS moves, as places in its group's frame (R361, R371). -/
def cmdRegs (s : State) (c : MCmd) : List (Loc × Nat) :=
  match c.kind, getG s c.g with
  | .amov, some g | .ains, some g => (List.range (64 * c.n / g.width)).map (fun j => (.pool (frameKey g.id (regOff g.width (c.reg + j) 0)), 4 * g.width))
  | _, _ => []

/-- Whether pool keys from lo to hi are a destination of a copy that is not complete, an object that a pending request credits, or a place of a pending matrix command or collective (R244, R344, R371, R413). -/
def copiesIn (s : State) (lo hi : Nat) : Bool :=
  (absentLines s).any (fun x => decide (lo ≤ 128 * x.1 + 127) && decide (128 * x.1 < hi)) ||
  s.reqs.any (fun r => reqTouches r lo hi || (match r.bar with
    | some k => decide (lo ≤ k) && decide (k < hi)
    | none => false)) ||
  s.mcmds.any (fun c => (cmdPlaces c ++ cmdRegs s c).any (fun x => touches x lo hi)) || s.colls.any (fun c => (collPlaces c).any (fun x => touches x lo hi))

end Sys2Proof.Machine
end

