-- ==== Sys2Proof/Machine/PoolCtl.lean ====
section
/-! DEFINITION. Sys2Proof/Machine/PoolCtl.lean: operand-cache control, L1 control, presence and object queries, ADVISE, growing and shrinking (R225-R227, R239-R249). -/

namespace Sys2Proof.Machine

/-- An operation with the fields that most queries share. -/
def plainOp (id g : Nat) (kind : OpKind) (ctr : Nat) (lanes : List LaneOp) (dst : Dst) (eff : Mask) (word : W64) : Op :=
  { id := id, g := g, kind := kind, ctr := ctr, lanes := lanes, dst := dst, eff := eff, size := 0, hold := false, order := .rlx, scope := .grp, word := word, mate := none, inc := 0, absent := false }

/-- A lane that accesses nothing and returns given words. -/
def valLane (lane : Nat) (ws : List W32) : LaneOp :=
  { lane := lane, ptr := 0, loc := .pool 0, key := none, data := [], val := ws, st := .sent, got := [] }

/-- An operation that waits for nothing but its time. -/
def launchPlain (s : State) (x : GM) (kind : OpKind) (ctr : Nat) (lanes : List LaneOp) (dst : Dst) (eff : Mask) (word : W64) : State :=
  addOp { putGM s x with nextId := s.nextId + 1 } (plainOp s.nextId x.g.id kind ctr lanes dst eff word)

/-! ## Operand-cache control (R225-R227) -/

/-- The registers of an OCFILL or OCDROP. -/
def ocRegs (g : Group) (f : FormR) : List Nat := opdRegs g f.a (f.ext.toNat % 8 + 1)

/-- How OCFILL and OCDROP read A. -/
def ocSpec (f : FormR) : LaneSpec := ⟨.regs (f.ext.toNat % 8 + 1), .no, .no, .no, 0⟩

/-- R225: a background touch: a missing register gets an entry whose fill runs. -/
def touchBg (x : GM) (r : Nat) : GM :=
  if (ocEntOf x.g r).isSome then touchReg x false r
  else
    let x := touchReg x false r
    { x with g := { x.g with oc := x.g.oc.map (fun o => { o with ents := o.ents.map (fun e => e.map (fun e => if e.reg = r then { e with filling := true } else e)) }) } }

/-- R225: OCFILL's touches one after another, with the registers that each touch found missing. -/
def touchAll (x : GM) (rs : List Nat) : GM × List Nat :=
  rs.foldl (fun st r => (touchBg st.1 r, if (ocEntOf st.1.g r).isNone then st.2 ++ [r] else st.2)) (x, [])

/-- R225: OCFILL. -/
def execOcfill (f : FormR) (s : State) : Out :=
  onceR s 0x6C f (ocSpec f) (fun s x c word eff =>
    if cntOf x.g 7 == 63 then stallOut s x.g .stall
    else
      let t := touchAll x (ocRegs x.g f)
      let rs := t.2
      let y := onceDone t.1 c f (ocSpec f) eff
      let s1 := launchPlain s y .ocfill 7 (rs.map (fun r => valLane r [])) .none eff word
      .next (if rs.isEmpty then opEnd s1 s.nextId else s1))

/-- R225: OPERAND_CACHE_FILL_DONE: the next fill of a group's oldest OCFILL completes. -/
def execOperandCacheFillDone (gid : Nat) (s : State) : Out :=
  match s.ops.find? (fun o => o.g == gid && o.kind == .ocfill) with
  | none => .next s
  | some o =>
    match o.lanes.find? (fun y => !laneOver y) with
    | none => .next (opEnd s o.id)
    | some y =>
      let s := modGM s gid (fun x => { x with g := { x.g with oc := x.g.oc.map (fun oc => { oc with ents := oc.ents.map (fun e => e.map (fun e => if e.reg = y.lane then entFill x.m x.g e else e)) }) } })
      .next (opEnd (setLane s o.id y.lane (fun y => { y with st := .performed })) o.id)

/-- R226: one register's entry written back and made invalid. -/
def ocDrop1 (dead : Bool) (x : GM) (r : Nat) : GM :=
  match ocEntOf x.g r with
  | none => x
  | some e => dropReg (if dead then x else { x with m := entWriteBack x.m x.g e }) r

/-- R226: OCDROP. -/
def execOcdrop (f : FormR) (s : State) : Out :=
  onceR s 0x6D f (ocSpec f) (fun s x c word eff =>
    if cntOf x.g 7 == 63 then stallOut s x.g .stall
    else .next (launchPlain s (onceDone ((ocRegs x.g f).foldl (ocDrop1 (f.ext.getLsbD 3)) x) c f (ocSpec f) eff) .ocdrop 7 [] .none eff word))

/-- No operand. -/
def noSpec : LaneSpec := ⟨.no, .no, .no, .no, 0⟩

/-- R227: OCSYNC. -/
def execOcsync (f : FormR) (s : State) : Out :=
  onceR s 0x6E f noSpec (fun s x c word eff =>
    if cntOf x.g 7 == 63 then stallOut s x.g .stall
    else .next (launchPlain s (onceDone (ocWriteBackAll x) c f noSpec eff) .ocsync 7 [] .none eff word))

/-- An operation of one kind ended by its own event. -/
def endKind (s : State) (id : Nat) (k : OpKind) : State :=
  match getOp s id with
  | none => s
  | some o => if o.kind = k then opEnd s id else s

/-- R226: OCDROP_COMPLETE. -/
def execOcdropComplete (op : Nat) (s : State) : Out := .next (endKind s op .ocdrop)
/-- R227: OCSYNC_COMPLETE. -/
def execOcsyncComplete (op : Nat) (s : State) : Out := .next (endKind s op .ocsync)

/-! ## L1 control (R241, R242) -/

/-- A lane's G or H bytes that L1 control acts on: the unified address and the line key; nothing for other spaces and for pointers that fail a check. -/
def l1Lane (s : State) (x : GM) (f : FormM) (rights : BitVec 4) (l : Nat) : Option (Nat × LineKey) :=
  match laneAddr x f l with
  | (_, none) => none
  | (_, some q) =>
    match lineKeyOf q, checkPtr s x.g q (sizeBytes f) rights false with
    | some k, .ok (.uni _ ua) => some (ua, k)
    | _, _ => none

/-- The table entry that a lane must wait for (R246). -/
def l1Miss (s : State) (x : GM) (f : FormM) (l : Nat) : Option Park :=
  match laneAddr x f l with
  | (_, none) => none
  | (_, some q) => if ptrSpace q == 1 then missOf (checkPtr s x.g q (sizeBytes f) 0 false) else none

/-- Whether an earlier access of the group to these bytes is still in flight (R126) (DEDUCED, log 21). -/
def groupBusy (s : State) (g part ua n : Nat) : Bool :=
  s.ops.any (fun o => o.g == g && o.lanes.any (fun y => !laneOver y && locOverlap (.uni part ua) n y.loc o.size))

/-- L1 control over the effective lanes, once no lane waits for a table entry or an earlier access. -/
def l1Issue (op : Nat) (f : FormM) (rights : BitVec 4) (s : State) (k : State → GM → Clause → Mask → Nat → List (Nat × Option (Nat × LineKey)) → Out) : Out :=
  memIssue s op f 2 0 0 (fun s x c _ eff =>
    let ls := lanesOf eff
    match ls.findSome? (l1Miss s x f) with
    | some p => stallOut s x.g p
    | none =>
      let at' := ls.map (fun l => (l, l1Lane s x f rights l))
      let part := partOf s x.g
      if at'.any (fun a => match a.2 with
          | some b => groupBusy s x.g.id part (lineOf b.1) ((linesOf b.1 (sizeBytes f)).length * 128)
          | none => false) then stallOut s x.g .stall
      else k s x c eff part at')

/-- R242: whether one more line of a set may be pinned. -/
def mayPin (c : Ctx) (k : LineKey) : Bool :=
  decide ((c.l1.filter (fun l => l.pinned && l1Set l.key == l1Set k)).length + 1 < c.l1w) &&
  decide ((c.l1.filter L1Line.pinned).length < 512 * c.l1w)

/-- R241: one line pinned, its fill begun where it is absent; false where it could not be. -/
def pinLine (s : State) (ctx part ua : Nat) (k : LineKey) : State × Bool :=
  match getC s ctx with
  | none => (s, false)
  | some c =>
    if granNone (granAt (partAt s part) (ua / 4096)) then (s, false)
    else match l1Find c part ua with
      | some l =>
        let s := l1Use s ctx part ua
        if l.pinned then (s, true)
        else if mayPin c k then (modC s ctx (fun c => { c with l1 := c.l1.map (fun m => if m.part == part && m.ua == lineOf ua then { m with pinned := true } else m) }), true)
        else (s, false)
      | none => if mayPin c k then (l1Fill s ctx part ua k true true, true) else (s, false)

/-- R241: the lines of one lane pinned. -/
def pinLane (ctx part n : Nat) (st : State × List (Nat × Bool)) (a : Nat × Option (Nat × LineKey)) : State × List (Nat × Bool) :=
  match a.2 with
  | none => (st.1, st.2 ++ [(a.1, false)])
  | some (ua, k) =>
    let r := (linesOf ua n).foldl (fun (r : State × Bool) x =>
      let q := pinLine r.1 ctx part x.2 (lineKeyAdd k x.1)
      (q.1, r.2 && q.2)) (st.1, true)
    (r.1, st.2 ++ [(a.1, r.2)])

/-- R241: LPIN. -/
def execLpin (f : FormM) (s : State) : Out :=
  l1Issue 0x6F f 1 s (fun s x c eff part at' =>
    let r := at'.foldl (pinLane x.g.ctx part (sizeBytes f)) (putGM s x, [])
    .next (modGM r.1 x.g.id (fun y => memDone (schedMask y y.g.pos 8 f.d eff (fun l => r.2.any (fun b => b.1 == l && b.2))) c f 0 eff)))

/-- The lines of the lanes changed in the team's ways. -/
def l1Lines (s : State) (ctx part n : Nat) (at' : List (Nat × Option (Nat × LineKey))) (wb : Bool) (upd : L1Line → Option L1Line) : State :=
  at'.foldl (fun s a => match a.2 with
    | none => s
    | some (ua, _) => l1Act s (fun c => c.id == ctx) (l1Hits part ua n) wb upd) s

/-- R241: LUNPIN, LINV and LWB: a change of the lanes' lines. -/
def l1Change (op : Nat) (f : FormM) (wb : Bool) (upd : L1Line → Option L1Line) (s : State) : Out :=
  l1Issue op f 0 s (fun s x c eff part at' =>
    .next (l1Lines (putGM s (memDone x c f 0 eff)) x.g.ctx part (sizeBytes f) at' wb upd))

/-- R241: LUNPIN. -/
def execLunpin (f : FormM) (s : State) : Out := l1Change 0x70 f false (fun l => some { l with pinned := false }) s
/-- R241: LINV. -/
def execLinv (f : FormM) (s : State) : Out := l1Change 0x71 f false (fun _ => none) s
/-- R241: LWB. -/
def execLwb (f : FormM) (s : State) : Out := l1Change 0x72 f true (fun l => some { l with written := 0 }) s

/-- R241: LPIN_FILL_DONE. -/
def execLpinFillDone (ctx : Nat) (line : LineKey) (s : State) : Out :=
  .next (modC s ctx (fun c => { c with l1 := c.l1.map (fun l =>
    if l.key == line && l.filling then { l with filling := false, data := uniRd s l.part l.ua 128 } else l) }))

/-! ## Queries (R239, R247, R248) and advice (R249) -/

/-- One lane's check for PRES: an X or M pointer is not looked at (R400), the others pass R117 and need no right (R246). -/
def presLane (s : State) (x : GM) (f : FormM) (l : Nat) : Nat × Nat × PtrRes :=
  let p := (laneAddr x f l).1
  if ptrSpace p == 9 || ptrSpace p == 10 then (l, p, .ok (.peer 0 0 0)) else chkLane s x f 0 l

/-- R239: PRES. -/
def execPres (f : FormM) (s : State) : Out :=
  memIssue s 0x73 f 2 0 1 (fun s x c word eff =>
    match chkAll (fun _ _ => false) ((lanesOf eff).map (presLane s x f)) with
    | .wait p => stallOut s x.g p
    | .trap cause a => trapOut (putGM s x) x.g c word cause 0 eff a
    | .go ats =>
      if cntOf x.g 0 == 63 then stallOut s x.g .stall
      else .next (launch s (memDone x c f 0 eff)
        { opOfM x f s.nextId 0 .pres (ats.map (fun a => laneOp a [])) eff word with order := .rlx, scope := .grp } f.gd.sw))

/-- R247: the home word of an object's first page. -/
def homeWord (g : Gran) : Nat :=
  match g.state with
  | .none => 0xFFFFFFFF
  | .hbm k => k + 16 * hbmHalf k
  | .tier2 h => 0x2F + 16 * h
  | .host _ => 0x4F

/-- The granules of the page that holds granule n, for a page size code (R428). -/
def pageOf (psize n : Nat) : List Nat :=
  let k := pageBytes psize / 4096
  (List.range k).map (· + n / k * k)

/-- R247: the granule whose record tells the backing of a granule's page: one that still moves, if there is one, as the page was before the move. -/
def pageRec (p : Part) (n : Nat) : Gran :=
  let g := granAt p n
  (((pageOf g.psize n).map (granAt p)).find? (fun h => h.moving.isSome)).getD g

/-- R247: a field of an object's entry. -/
def objqVal (s : State) (part field : Nat) (e : ObjEnt) : List W32 :=
  let z := if e.valid then (match field with
    | 0 => e.len
    | 1 => e.rights.toNat
    | _ => homeWord (pageRec (partAt s part) (e.ubase / 4096))) else 0
  (List.range (if field = 0 then 2 else 1)).map (wordOf z)

/-- R247: OBJQ's words for a lane's pointer, or the entry to wait for. -/
def objqLane (s : State) (g : Group) (field p : Nat) : Option ObjKey × List W32 :=
  let k := ObjKey.g (ptrF1 p)
  if ptrSpace p != 1 then (none, (List.range (if field = 0 then 2 else 1)).map (fun _ => 0))
  else match objCached s (coreOf s g) k with
    | none => (some k, [])
    | some e => (none, objqVal s (partOf s g) field e)

/-- R247: OBJQ. -/
def execObjq (f : FormR) (s : State) : Out :=
  let sp : LaneSpec := ⟨.val .b64, .no, .no, .val (if f.ext = 0 then 2 else 1), 0⟩
  onceR s 0x74 f sp (fun s x0 c word eff =>
    let x := touchSrc x0 f sp
    let ps := (lanesOf eff).map (fun l => (l, rdOpd (atPass x f.gd l) f.a .b64 l))
    let s := consultAll s x.g ((ps.map (·.2)).filter (fun p => ptrSpace p == 1))
    let ls := ps.map (fun p => (p.1, objqLane s x.g (f.ext.toNat % 4) p.2))
    match ls.findSome? (fun l => l.2.1) with
    | some k => stallOut s x.g (.objMiss k)
    | none =>
      if cntOf x.g 0 == 63 then stallOut s x.g .stall
      else .next (launchPlain s (onceDone x c f sp eff) (.objq f.ext.toNat) 0 (ls.map (fun l => valLane l.1 l.2.2)) (dstOf x.g f.d f.sn) eff word))

/-- Whether an access of n bytes would pass every check, no atomic reaching O (R236), with the table read where no cache holds the entry (R248) (DEDUCED, log 23). -/
def ptrPasses (s : State) (g : Group) (p n : Nat) (rights : BitVec 4) : Bool :=
  match checkPtr s g p n rights false with
  | .ok _ => !(ptrSpace p == 6 && rights.getLsbD 3)
  | .bad => false
  | .missObj k => entGrants (entFetch s (partOf s g) k) (ptrOff p) n rights
  | .missRegion r => match regionAt s (partOf s g) r with
    | some x => decide (ptrOff p + n ≤ x.cells * cellBytes x.ty)
    | none => false

/-- R248: PTRCHK; a lane's missing entry stalls the group first (DEDUCED, log 23). -/
def execPtrchk (f : FormR) (s : State) : Out :=
  let sp : LaneSpec := ⟨.val .b64, .cold .z32, .no, .msk, 6⟩
  withIssue s (fun s g _ =>
    let x := landAt (gmOf s g) g.pos
    let eff := effNow x.g f.gd
    let s := consultAll s g ((lanesOf eff).map (rdOpd x f.a .b64))
    let miss := if (frameFail g (laneOpds f sp)).isSome then none
      else (lanesOf eff).findSome? (fun l => match checkPtr s g (rdOpd x f.a .b64 l) (max 1 (rdOpd x f.b .z32 l)) 0 false with
        | .missObj k => some k
        | .ok _ | .bad | .missRegion _ => none)
    match miss with
    | some k => stallOut s g (.objMiss k)
    | none => runLane s 0x75 f noDyn (fun _ => sp) (fun i => outK (ptrPasses s (getG s g.id |>.getD g) i.a (max 1 i.b) (f.ext.extractLsb' 0 4))))

/-- R249: the granules that ADVISE marks for a lane (DEDUCED, log 24). -/
def adviseLane (s : State) (x : GM) (f : FormM) (l : Nat) : Option (Nat × Nat) :=
  let n := rdOpd x f.b .z32 l
  match laneAddr x f l with
  | (_, none) => none
  | (_, some q) =>
    if n = 0 then none
    else match lineKeyOf q, checkPtr s x.g q n 0 false with
      | some _, .ok (.uni _ ua) => some (ua / 4096, (ua + n - 1) / 4096)
      | _, _ => none

/-- R249: ADVISE (DEDUCED, log 24). -/
def execAdvise (f : FormM) (s : State) : Out :=
  memIssue s 0x76 f 2 1 0 (fun s x c _ eff =>
    match (lanesOf eff).findSome? (l1Miss s x f) with
    | some p => stallOut s x.g p
    | none =>
      let rs := (lanesOf eff).filterMap (adviseLane s x f)
      let s1 := putGM s (memDone x c f 1 eff)
      .next (modP s1 (partOf s x.g) (fun p => { p with grans := p.grans.map (fun g =>
        if rs.any (fun r => decide (r.1 ≤ g.num) && decide (g.num ≤ r.2)) then { g with advice := f.sub.toNat + 1 } else g) })))

/-- Whether a fetch of a table entry is held: its path is closed, or its page moves (R23, R433). -/
def fillHeld (s : State) (core part : Nat) (k : ObjKey) : Bool :=
  match k with
  | .g obj => pathReach s (senderNow s (coreDie core)) part ((partAt s part).otbase.toNat + 32 * obj) 32 == .held
  | .x _ _ | .m _ _ => false

/-- R246: OBJECT_CACHE_FILL: a miss answered; the instructions that waited for it issue again (DEDUCED, log 35). -/
def execObjectCacheFill (core : Nat) (obj : ObjKey) (s : State) : Out :=
  match s.groups.find? (fun g => g.park == .objMiss obj && coreOf s g == core) with
  | none => .next s
  | some g =>
    let part := partOf s g
    let s1 := objCachePut s core (entFetch s part obj)
    if fillHeld s core part obj then .next s else .next { s1 with groups := s1.groups.map (fun h => if h.park == .objMiss obj && coreOf s h == core && partOf s h == part then { h with park := .none } else h) }

/-! ## Growing and shrinking (R243-R245) -/

/-- Whether a request is for the frame. -/
def AllocReq.frame (r : AllocReq) : Bool := r.op == 0x6A || r.op == 0x6B
/-- Whether a request grows. -/
def AllocReq.grow (r : AllocReq) : Bool := r.op == 0x68 || r.op == 0x6A
/-- The mode of a request (R218). -/
def AllocReq.mode (r : AllocReq) : Nat := r.f.ext.toNat % 4

/-- How the four instructions read A and write D. -/
def allocSpec : LaneSpec := ⟨.val .z32, .no, .no, .val 1, 4⟩

/-- R243: the request of a grow or shrink instruction. -/
def allocIssue (op : Nat) (f : FormR) (s : State) : Out :=
  onceR s op f allocSpec (fun s x _ _ eff =>
    let r : AllocReq := { g := x.g.id, op := op, f := f, amount := rdOpd x f.a .z32 ((lowLane eff).getD 0), eff := eff, since := 0 }
    .next (modCore (modG (putGM s x) x.g.id (fun g => { g with park := .alloc })) (coreOf s x.g) (fun c => { c with alloc := c.alloc ++ [r] })))

/-- R244: PGROW. -/
def execPgrow (f : FormR) (s : State) : Out := allocIssue 0x68 f s
/-- R244: PSHRINK. -/
def execPshrink (f : FormR) (s : State) : Out := allocIssue 0x69 f s
/-- R244: FGROW. -/
def execFgrow (f : FormR) (s : State) : Out := allocIssue 0x6A f s
/-- R244: FSHRINK. -/
def execFshrink (f : FormR) (s : State) : Out := allocIssue 0x6B f s

/-- Granules of a register segment (R211). -/
def frameGrans (w regs : Nat) : Nat := ceilDiv (4 * regs * w) 2048

/-- The highest window base among a group's fibres and return-stack entries (R244). -/
def maxWbase (g : Group) : Nat :=
  let fs := (g.cur.toList ++ g.fibres ++ g.trapped.toList).map Fibre.wbase
  let rs := g.rets.flatMap (fun l => l.map RetEnt.wbase)
  (fs ++ rs).foldl max 0

/-- Whether a pool word from a key up to another is named by a parked wait of the team or a continuation that has not fired (R244). -/
def waitsIn (s : State) (team lo hi : Nat) : Bool :=
  s.groups.any (fun g => g.team == team &&
    ((match g.park with
      | .bwait o _ _ _ _ _ => decide (lo ≤ o) && decide (o < hi)
      | .awaitPhase o _ _ _ _ _ _ => decide (lo ≤ o) && decide (o < hi)
      | _ => false) ||
     g.conts.any (fun k => decide (lo ≤ k.obj) && decide (k.obj < hi))))

/-- R244: the size before a request, the size it asks for, the granules it moves, and whether it succeeds (DEDUCED, log 25). -/
def allocPlan (s : State) (r : AllocReq) (g : Group) (c : Ctx) : Nat × Int × Nat × Bool :=
  let free := (coreAt s c.core).free
  if r.op = 0x68 then
    let k := ceilDiv r.amount 2048
    (c.scratch, (c.scratch + 2048 * k : Nat), k, decide (c.scratch + 2048 * k ≤ 2 ^ 22) && decide (k ≤ free))
  else if r.op = 0x69 then
    let k := r.amount / 2048
    (c.scratch, (c.scratch : Int) - (2048 * k : Nat), k,
      decide (r.amount ≤ c.scratch) && !waitsIn s g.team (scrKey c.id (c.scratch - 2048 * k)) (scrKey c.id c.scratch))
  else if r.op = 0x6A then
    let k := frameGrans g.width (g.frame + r.amount) - frameGrans g.width g.frame
    (g.frame, (g.frame + r.amount : Nat), k, decide (g.frame + r.amount ≤ 1024) && decide (k ≤ free))
  else
    (g.frame, (g.frame : Int) - r.amount, frameGrans g.width g.frame - frameGrans g.width (g.frame - r.amount),
      decide ((maxWbase g : Int) < (g.frame : Int) - r.amount))

/-- The pool keys a shrink removes (DEDUCED, log 25). -/
def shrinkRange (r : AllocReq) (g : Group) (c : Ctx) (new : Nat) : Nat × Nat :=
  if r.frame then (frameKey g.id (4 * new * g.width), frameKey g.id (4 * g.frame * g.width)) else (scrKey c.id new, scrKey c.id c.scratch)

/-- New scratchpad bytes, whose content the manual does not state (DESIGN CHOICE, log 2). -/
def freeBytes (stamp key n : Nat) : List Byte := (List.range n).map (fun i => Config.freeByte stamp (key + i))

/-- R244: a granted request takes effect: sizes, granules, new registers reading zero, entries of removed registers given up. -/
def allocApply (s : State) (r : AllocReq) (g : Group) (c : Ctx) (old new k : Nat) : State :=
  let s := modCore s c.core (fun x => if r.grow then { x with free := x.free - k } else giveGrans x k)
  let s := modC s c.id (fun x => { x with gran := if r.grow then x.gran + k else x.gran - k })
  if r.op = 0x68 then
    { modC s c.id (fun x => { x with scratch := new }) with
      mem := memWrN s.mem (scrKey c.id old) (freeBytes s.fresh (scrKey c.id old) (new - old)), fresh := s.fresh + 1 }
  else if r.op = 0x69 then modC s c.id (fun x => { x with scratch := new })
  else if r.op = 0x6A then
    modG { s with mem := memZero s.mem (frameKey g.id (4 * old * g.width)) (4 * (new - old) * g.width) } g.id (fun g => { g with frame := new })
  else modGM s g.id (fun x =>
    let x := (List.range (old - new)).foldl (fun x i => dropReg x (new + i)) x
    { x with g := { x.g with frame := new } })

/-- The answered instruction's source operand touched as it issues, before its request takes effect (R220). -/
def allocTouch (s : State) (r : AllocReq) (gid : Nat) : State := modGM s gid (fun x => touchSrc x r.f allocSpec)

/-- The instruction issues at the answer: D and the mask kC land four positions later (R243, R245). -/
def allocFinish (s : State) (r : AllocReq) (gid : Nat) (ok : Bool) (v : Nat) : State :=
  modGM s gid (fun x =>
    match x.g.phase with
    | .inClause c =>
      let pos := x.g.pos
      let x := dropLu x r.f allocSpec
      let x := if ok then schedAll x pos 4 r.f 1 r.eff v else x
      let x := if r.mode = 2 then schedMask x pos 4 r.f.c r.eff (fun _ => ok) else x
      let x := bump x (posCount x.g (issuedPasses x.g r.eff))
      { x with g := advance x.g c r.f.gd.sw }
    | .boundary _ _ | .header | .asleep => x)

/-- R245: a refused request in .trap mode (DEDUCED, log 25). -/
def allocTrap (s : State) (r : AllocReq) (g : Group) (new : Int) : State :=
  match g.phase with
  | .inClause c =>
    takeTrap s g.id (if r.grow then 0x0D else 0x0E) (if r.frame then 0 else 1) r.eff (BitVec.ofInt 64 new) (BitVec.ofNat 64 (encR r.op r.f))
      (pcOf c) (pcOf c) (some c)
  | .boundary _ _ | .header | .asleep => s

/-- Whether a group waits for the allocator. -/
def waitsAlloc (g : Group) : Bool :=
  match g.park with
  | .alloc | .growWait _ | .shrinkWait => true
  | _ => false

/-- A waiting request put among the others in the order in which they began to wait (R245). -/
def stallInsert (rs : List AllocReq) (r : AllocReq) : List AllocReq := rs.takeWhile (fun q => q.since ≤ r.since) ++ r :: rs.dropWhile (fun q => q.since ≤ r.since)

/-- R245: a request that fails: by its mode, D untouched, the group waiting, or the trap. -/
def allocFail (s : State) (r : AllocReq) (g : Group) (new : Int) : State :=
  if r.mode = 2 then allocFinish (allocTouch s r g.id) r g.id false 0
  else if r.mode = 1 then
    let q := if r.since = 0 then { r with since := s.nextId + 1 } else r
    modCore (modG { s with nextId := s.nextId + 1 } g.id (fun g => { g with park := match g.park with
      | .growWait t => .growWait t
      | _ => .growWait s.tick })) (coreOf s g) (fun x => { x with stalled := stallInsert x.stalled q })
  else allocTrap s r g new

/-- R243-R245: one request answered: tested and taken effect at once, a shrink once no copy into its range is pending (R244) (DEDUCED, log 25). -/
def allocAnswer (s : State) (r : AllocReq) : State :=
  match getG s r.g with
  | none => s
  | some g =>
    match ctxOf s g with
    | none => s
    | some c =>
      let (old, new, k, ok) := allocPlan s r g c
      if !waitsAlloc g then s
      else if !ok then allocFail s r g new
      else
        let rng := shrinkRange r g c new.toNat
        if !r.grow && copiesIn s rng.1 rng.2 then
          modCore (modG s g.id (fun g => { g with park := .shrinkWait })) c.core (fun x => { x with stalled := stallInsert x.stalled r })
        else allocFinish (allocApply (allocTouch s r g.id) r g c old new.toNat k) r g.id true (if r.grow then old else new.toNat)

/-- R243: ALLOCATOR_ANSWER: the oldest request of a core answered. -/
def execAllocatorAnswer (core : Nat) (s : State) : Out :=
  match (coreAt s core).alloc with
  | [] => .next s
  | r :: rest => .next (allocAnswer (modCore s core (fun c => { c with alloc := rest })) r)

/-- Whether a stored request is a grow that waits. -/
def growWaits (s : State) (r : AllocReq) : Bool :=
  match getG s r.g with
  | none => false
  | some g => r.grow && waitsAlloc g

/-- R245: STALL_GROW_RETRY: at a release of granules each waiting grow sends a new request, in the order in which they began to wait. -/
def execStallGrowRetry (core : Nat) (s : State) : Out :=
  .next (modCore s core (fun c =>
    if c.freed then { c with freed := false, alloc := c.alloc ++ c.stalled.filter (growWaits s), stalled := c.stalled.filter (fun r => !growWaits s r) } else c))

/-- A group's requests withdrawn from its core. -/
def allocDrop (s : State) (gid core : Nat) : State :=
  modCore s core (fun c => { c with alloc := c.alloc.filter (fun r => r.g != gid), stalled := c.stalled.filter (fun r => r.g != gid) })

/-- R245: STALL_GROW_TIMEOUT. -/
def execStallGrowTimeout (gid : Nat) (s : State) : Out :=
  match getG s gid with
  | none => .next s
  | some g =>
    match g.park, ctxOf s g with
    | .growWait t, some c =>
      match ((coreAt s c.core).alloc ++ (coreAt s c.core).stalled).find? (fun r => r.g == gid) with
      | none => .next s
      | some r =>
        if t + 65536 ≤ s.tick then .next (allocTrap (allocDrop s gid c.core) r g (allocPlan s r g c).2.1) else .next s
    | _, _ => .next s

/-- R244: SHRINK_AFTER_COPIES: a shrink that waited is answered again once no copy into its range is pending. -/
def execShrinkAfterCopies (gid : Nat) (s : State) : Out :=
  match getG s gid with
  | none => .next s
  | some g =>
    match (coreAt s (coreOf s g)).stalled.find? (fun r => r.g == gid && !r.grow) with
    | none => .next s
    | some r => .next (allocAnswer (allocDrop s gid (coreOf s g)) r)

end Sys2Proof.Machine
end

