-- ==== Sys2Proof/Machine/Throttle.lean ====
section
/-! DEFINITION. Sys2Proof/Machine/Throttle.lean: the ratios and clocks that slices and cores run at, and the throttle-cause register that follows them (R473-R475, R477). -/

namespace Sys2Proof.Machine

/-! ## Operating points (R473) -/

/-- The stacks of a partition, in ascending order (R390). -/
def stacksOf (p : Part) : List Nat := (List.range Config.numStacks).filter (fun k => p.stackBits.getLsbD k)

/-- Whether a group stands in a slice. -/
def sliceHolds (s : State) (core slice : Nat) : Bool :=
  s.groups.any (fun g => match g.slot with
    | some a => a.core == core && a.slice == slice
    | none => false)

/-- R473: a core that halts a context, or stands in a veer's pause, runs at 8/8 and 1.4 GHz. -/
def boosted (s : State) (core : Nat) : Bool := (coreAt s core).paused || s.ctxs.any (fun c => c.core == core && c.state == .halting)

/-- The ratio a slice runs at (R473, R477). -/
def effRatio (s : State) (core slice : Nat) : Nat :=
  let c := coreAt s core
  if boosted s core then 8
  else if !sliceHolds s core slice then 2
  else
    let n := (nth c.slices slice Slice.reset).ratio
    if c.capped then min n 4 else n

/-- The cluster clock of a core: 0 for 1.4 GHz, 1 for 1.05, 2 for 0.70 (R475). -/
def effClock (s : State) (core : Nat) : Nat := if boosted s core then 0 else (coreAt s core).clk

/-- The ratio of an operating point. -/
def pointRatio (i : Nat) : Nat := max 2 (8 - i)
/-- The cluster clock of an operating point. -/
def pointClock (i : Nat) : Nat := i - 6

/-- The cores of a stack. -/
def coresOfStack (k : Nat) : List Nat := (List.range Config.coresPerStack).map (· + Config.coresPerStack * k)

/-- The ratio that the arbiter aims at for a slice (R473, R477). -/
def aimRatio (s : State) (core slice : Nat) : Nat :=
  if !sliceHolds s core slice then 2
  else
    let n := pointRatio (nth s.stackPower (core / Config.coresPerStack) StackPower.reset).target
    if (coreAt s core).capped then min n 4 else n

/-! ## %THROTTLE (R475) -/

/-- The order of causes among equal operating points: 4, 5, 3, 2, 1 (R471). -/
def causeRank (c : Nat) : Nat :=
  match c with
  | 4 => 0
  | 5 => 1
  | 3 => 2
  | 2 => 3
  | 1 => 4
  | _ => 5

/-- The lower of two operating points with their causes. -/
def lowerPoint (a b : Nat × Nat) : Nat × Nat :=
  if a.1 < b.1 then b else if b.1 < a.1 then a else if causeRank b.2 < causeRank a.2 then b else a

/-- A stack's operating point and its cause; a core held at 4/8 by R477 counts as that point with cause 5. -/
def stackPoint (s : State) (k : Nat) : Nat × Nat :=
  let sp := nth s.stackPower k StackPower.reset
  if (coresOfStack k).any (fun c => (coreAt s c).capped) then lowerPoint (sp.point, sp.cause) (4, 5) else (sp.point, sp.cause)

/-- R475: the register as the slices and clocks of a partition now stand. -/
def throttleNow (s : State) (part : Nat) : Throttle :=
  let p := partAt s part
  let old := p.thr
  let cores := (stacksOf p).flatMap coresOfStack
  let ratios := cores.flatMap (fun c => ((List.range Config.numSlices).filter (sliceHolds s c)).map (effRatio s c))
  let ratio := ratios.foldl min 8
  let clock := (cores.map (effClock s)).foldl max 0
  let active := decide (ratio < 8) || decide (0 < clock)
  let worst := ((stacksOf p).map (stackPoint s)).foldl lowerPoint (0, 0)
  { trans := if active == old.active then old.trans else (old.trans + 1) % 65536, ratio := ratio, clock := clock, active := active,
    cause := if active && worst.1 != 0 then worst.2 else old.cause }

/-- The registers of every enabled partition brought up to date: the ratio of some slice, or the clock of some core, has changed. -/
def throttleAll (s : State) : State :=
  (List.range Config.numParts).foldl (fun s p => if (partAt s p).enable then modP s p (fun x => { x with thr := throttleNow s p }) else s) s

/-- R473, R474: slices that held no group, and hold the first now, start from 2/8 (DEDUCED, log 71). -/
def fillSlices (s t : State) (slots : List SlotAt) : State :=
  throttleAll (slots.foldl (fun t a => if sliceHolds s a.core a.slice then t else modSlice t a.core a.slice (fun sl => { sl with ratio := 2, set := 2 })) t)

/-- R473, R474: a core that ran at 8/8 and does so no longer: its slices fall at once to what the arbiter has set (DEDUCED, log 71). -/
def boostOver (s t : State) (core : Nat) : State :=
  throttleAll (if boosted s core && !boosted t core then
      modCore t core (fun c => { c with slices := c.slices.zipIdx.map (fun x => { x.1 with ratio := aimRatio t core x.2, set := aimRatio t core x.2 }) })
    else t)

/-- R483: whether the groups of a core are to stop at their next switch points for a veer, or have stopped. -/
def veerStops (s : State) (core : Nat) : Bool := s.veers.any (fun v => v.any (fun v => v.stage != .deferred && (v.hot ++ v.lee).contains core))

end Sys2Proof.Machine
end

