-- ==== Sys2Proof/Machine/Seq.lean ====
section
/-! DEFINITION. Sys2Proof/Machine/Seq.lean: clause headers and boundaries, fibres, transfers of control, special registers, and a slice's choice of group (R42-R51, R55, R60, R61, R250-R278). -/

namespace Sys2Proof.Machine

/-! ## Fibres split at a transfer (R257) -/

/-- Whether target a comes before target b: the lower offset, then the lower window base. -/
def tgtLt (a b : RetEnt) : Bool := decide (a.pc < b.pc) || (a.pc == b.pc && decide (a.wbase < b.wbase))

/-- A target put into a list in order, once. -/
def tgtInsert : List RetEnt → RetEnt → List RetEnt
  | [], t => [t]
  | u :: us, t => if t = u then u :: us else if tgtLt t u then t :: u :: us else u :: tgtInsert us t

/-- The distinct targets of lanes, lowest first. -/
def targetsOf (ts : List (Nat × RetEnt)) : List RetEnt := ts.foldl (fun us t => tgtInsert us t.2) []

/-- The fibres a fibre becomes when its lanes go to targets: the first is the existing one and keeps its wait count (R257). -/
def splitFibres (f : Fibre) (ts : List (Nat × RetEnt)) : List Fibre :=
  (targetsOf ts).zipIdx.map (fun u =>
    { f with pc := u.1.pc, wbase := u.1.wbase, pred := maskOf ((ts.filter (fun t => t.2 == u.1)).map (·.1)),
             waitc := if u.2 = 0 then f.waitc else 0, wake := none, rem := none })

/-- Where each lane of the issuing fibre goes: effective lanes to their targets, the others on to the fall-through clause (R262). -/
def laneTargets (f : Fibre) (c : Clause) (eff : Mask) (t : Nat → RetEnt) : List (Nat × RetEnt) :=
  (lanesOf f.pred).map (fun l => (l, if eff.getLsbD l then t l else ⟨fallThrough c, f.wbase⟩))

/-- A transfer: the issuing fibre split by target. -/
def transfer (g : Group) (c : Clause) (eff : Mask) (t : Nat → RetEnt) : Group :=
  match g.cur with
  | none => g
  | some f =>
    match splitFibres f (laneTargets f c eff t) with
    | [] => { g with cur := none }
    | h :: rest => { g with cur := some h, fibres := g.fibres ++ rest }

/-- Whether the effective lanes disagree on their target. -/
def disagree (eff : Mask) (t : Nat → RetEnt) : Bool :=
  match lanesOf eff with
  | [] => false
  | l :: ls => ls.any (fun m => t m != t l)

/-- R51, R261: %HINTMISS counts lanes that disagree under U or the group-uniform hint, at the transfer's issue: a SETS %HINTMISS still in flight then lands over the count (DESIGN CHOICE, log 97). -/
def hintMiss (g : Group) (uni : Bool) (eff : Mask) (t : Nat → RetEnt) : Group :=
  if uni && disagree eff t then { g with hintmiss := g.hintmiss + 1 } else g

/-- The group at the boundary after a clause-ending instruction (R61, R255). -/
def endClause (x : GM) (eff : Mask) (sw backward yielded : Bool) : GM :=
  let x := bump x (posCount x.g (issuedPasses x.g eff))
  { x with g := { x.g with phase := .boundary backward yielded, park := if sw then .sw else .none } }

/-- R255: whether a lane goes to a target at or below the header of the ended clause. -/
def tookBack (c : Clause) (eff : Mask) (t : Nat → RetEnt) : Bool := (lanesOf eff).any (fun l => decide ((t l).pc ≤ c.h))

/-! ## Jumps (format J) -/

/-- The target h + 8 × OFF (R72). -/
def jTarget (c : Clause) (f : FormJ) : Int := (c.h : Int) + 8 * sext f.off.toNat 32

/-- A format-J instruction with its effective lanes as lanes gives them, its target checked (R72). Without effective lanes it falls through (R68). -/
def jBy (lanes : GM → Guard → Mask) (op : Nat) (f : FormJ) (s : State) (k : State → GM → Clause → W64 → Mask → Nat → Out) : Out :=
  withIssue s (fun s g c =>
    let word := BitVec.ofNat 64 (encJ op f)
    let x := landAt (gmOf s g) g.pos
    let eff := lanes x f.gd
    if eff = 0 then .next (finish1 s (bump x (posCount g [])) c f.gd.sw)
    else match (gridOf s g).map (fun gr => targetOk s gr (jTarget c f)) with
      | some true => k s x c word eff (jTarget c f).toNat
      | _ => trapOut s g c word .capability 0 eff (BitVec.ofInt 64 (jTarget c f)))

/-- A format-J instruction whose guard is read pass by pass (R29, R56). -/
def jIssue (op : Nat) (f : FormJ) (s : State) (k : State → GM → Clause → W64 → Mask → Nat → Out) : Out := jBy effPasses op f s k

/-- One that reads everything at its first issued pass (R487). -/
def jFirst (op : Nat) (f : FormJ) (s : State) (k : State → GM → Clause → W64 → Mask → Nat → Out) : Out := jBy (fun x gd => effNow x.g gd) op f s k

/-- A branch whose lanes are known (R262). -/
def branchEnd (s : State) (x : GM) (c : Clause) (eff : Mask) (sw uni : Bool) (t : Nat → RetEnt) : Out :=
  let g := hintMiss (transfer x.g c eff t) uni eff t
  .next (putGM s (endClause { x with g := g } eff sw (tookBack c eff t) false))

/-- Whether a jump's hint or its clause is uniform (R51, R72). -/
def jUni (c : Clause) (f : FormJ) : Bool := c.u || f.hint == 2

/-- R262: BRA. -/
def execBra (f : FormJ) (s : State) : Out :=
  jIssue 0x80 f s (fun s x c _ eff t => branchEnd s x c eff f.gd.sw (jUni c f) (fun _ => ⟨t, wbaseOf x.g⟩))

/-- The condition of a lane: its bit of k[CK], inverted by CN (R262). -/
def jCond (g : Group) (f : FormJ) (l : Nat) : Bool := kbit g f.ck.toNat l != f.cn

/-- R262: BRC; each lane's bit is read at its own pass (R56). -/
def execBrc (f : FormJ) (s : State) : Out :=
  jIssue 0x81 f s (fun s x c _ eff t =>
    branchEnd s x c eff f.gd.sw (jUni c f) (fun l => ⟨if jCond (atPass x f.gd l).g f l then t else fallThrough c, wbaseOf x.g⟩))

/-- R263: LOOP. -/
def execLoop (f : FormJ) (s : State) : Out :=
  jIssue 0x86 f s (fun s x c _ eff t =>
    let n := f.opd.toNat - 0xC0
    let v := scal x.g n - 1
    branchEnd s (sched x (x.g.pos + 4) (.sreg n v)) c eff f.gd.sw (jUni c f) (fun _ => ⟨if v = 0 then fallThrough c else t, wbaseOf x.g⟩))

/-- Return entries pushed for lanes (R266). -/
def pushRets (g : Group) (eff : Mask) (e : RetEnt) : Group := { g with rets := (lanesOf eff).foldl (fun rs l => rs.modify l (e :: ·)) g.rets }

/-- R265: a return entry's 16 bytes. -/
def retEntBytes (e : RetEnt) : List Byte := leBytes 16 (e.pc % 2 ^ 64 + e.wbase % 2 ^ 32 * 2 ^ 64)

/-- R265, R266: the entries that left the top four of the lanes pushed, written to the lane stack segment at 16 × (e × width + l). -/
def spillRets (x : GM) (eff : Mask) : GM :=
  { x with m := (lanesOf eff).foldl (fun m l =>
      let st := nth x.g.rets l []
      match st[4]? with
      | some e => memWrN m (stackKey x.g.id (16 * ((st.length - 5) * x.g.width + l))) (retEntBytes e)
      | none => m) x.m }

/-- The lanes whose return stacks are full (R266). -/
def fullLanes (g : Group) (eff : Mask) : Mask := maskOf ((lanesOf eff).filter (fun l => decide (g.depth ≤ (nth g.rets l []).length)))

/-- R264, R266: a call once its targets are checked: the new base, then the depth, then the push and the split. -/
def callEnd (s : State) (x : GM) (c : Clause) (word : W64) (eff : Mask) (shift : Nat) (sw uni : Bool) (t : Nat → Nat) : Out :=
  let wb := wbaseOf x.g
  if x.g.frame ≤ wb + shift then trapOut (putGM s x) x.g c word .frameRange 0 eff (BitVec.ofNat 64 (wb + shift))
  else if fullLanes x.g eff != 0 then trapOut (putGM s x) x.g c word .callDepth 0 (fullLanes x.g eff) 0
  else
    let tg := fun l => (⟨t l, wb + shift⟩ : RetEnt)
    let g := hintMiss (transfer (pushRets x.g eff ⟨fallThrough c, wb⟩) c eff tg) uni eff tg
    .next (putGM s (spillRets (endClause { x with g := g } eff sw false false) eff))

/-- R266: CALL. -/
def execCall (f : FormJ) (s : State) : Out :=
  jFirst 0x83 f s (fun s x c word eff t => callEnd s x c word eff f.opd.toNat f.gd.sw (jUni c f) (fun _ => t))

/-! ## Indirect transfers and RET -/

/-- How BRX, CALLX, SLEEP and the like read A. -/
def a32Spec : LaneSpec := ⟨.val .z32, .no, .no, .no, 0⟩

/-- R260: the lowest lane whose target may not be one. -/
def badTarget (s : State) (g : Group) (ts : List Nat) : Option Nat :=
  match gridOf s g with
  | none => ts.head?
  | some gr => ts.find? (fun t => !targetOk s gr (t : Int))

/-- BRX and CALLX: the targets read and checked (R260, R487). -/
def xIssue (op : Nat) (f : FormR) (s : State) (k : State → GM → Clause → W64 → Mask → (Nat → Nat) → Out) : Out :=
  onceFirst s op f a32Spec (fun s x0 c word eff =>
    let x := touchSrc x0 f a32Spec
    let t := fun l => rdOpd x f.a .z32 l
    match badTarget s x.g ((lanesOf eff).map t) with
    | some a => trapOut (putGM s x) x.g c word .capability 0 eff (BitVec.ofNat 64 a)
    | none => k s (dropLu x f a32Spec) c word eff t)

/-- R262: BRX. -/
def execBrx (f : FormR) (s : State) : Out :=
  xIssue 0x82 f s (fun s x c _ eff t => branchEnd s x c eff f.gd.sw c.u (fun l => ⟨t l, wbaseOf x.g⟩))

/-- R266: CALLX. -/
def execCallx (f : FormR) (s : State) : Out :=
  xIssue 0x84 f s (fun s x c word eff t => callEnd s x c word eff f.ext.toNat f.gd.sw c.u t)

/-- R267: RET. -/
def execRet (f : FormR) (s : State) : Out :=
  onceFirst s 0x85 f noSpec (fun s x c word eff =>
    let empty := maskOf ((lanesOf eff).filter (fun l => (nth x.g.rets l []).isEmpty))
    if empty != 0 then trapOut (putGM s x) x.g c word .returnEmpty 0 empty 0
    else
      let t := fun l => (nth x.g.rets l []).headD ⟨0, 0⟩
      let g := { transfer x.g c eff t with rets := (lanesOf eff).foldl (fun rs l => rs.modify l List.tail) x.g.rets }
      .next (putGM s (endClause { x with g := hintMiss g c.u eff t } eff f.gd.sw false false)))

/-! ## Spawning, ending, waiting (R269-R272) -/

/-- Return stacks of lanes emptied. -/
def clearRets (g : Group) (m : Mask) : Group := { g with rets := (lanesOf m).foldl (fun rs l => rs.set l []) g.rets }

/-- R269: FSPAWN. -/
def execFspawn (f : FormJ) (s : State) : Out :=
  jIssue 0x87 f s (fun s x c _ eff t =>
    let m := maskOf ((lanesOf (x.g.idle &&& fullMask x.g.width)).filter (jCond x.g f))
    let nf : Fibre := { pc := t, pred := m, wbase := wbaseOf x.g, waitc := 0, wake := none, hnd := (x.g.cur.map Fibre.hnd).getD false, rem := none }
    let g := if m = 0 then x.g else { clearRets x.g m with idle := x.g.idle &&& ~~~m, fibres := x.g.fibres ++ [nf] }
    .next (finish1 s (bump { x with g := g } (posCount g (issuedPasses g eff))) c f.gd.sw))

/-- R270: the effective lanes leave their fibre; the rest go on at the fall-through clause. -/
def leaveFibre (g : Group) (c : Clause) (eff : Mask) : Group :=
  let g := clearRets g eff
  { g with cur := g.cur.bind (fun f => if f.pred &&& ~~~eff = 0 then none else some { f with pred := f.pred &&& ~~~eff, pc := fallThrough c }) }

/-- R270: FEND. -/
def execFend (f : FormR) (s : State) : Out :=
  onceR s 0x88 f noSpec (fun s x c _ eff =>
    .next (putGM s (endClause { x with g := { leaveFibre x.g c eff with idle := x.g.idle ||| eff } } eff f.gd.sw false false)))

/-- R270: EXIT. -/
def execExit (f : FormR) (s : State) : Out :=
  onceR s 0x8A f noSpec (fun s x c _ eff =>
    .next (putGM s (endClause { x with g := { leaveFibre x.g c eff with exited := x.g.exited ||| eff } } eff f.gd.sw false false)))

/-- The issuing fibre sent on to the fall-through clause. -/
def fallOn (g : Group) (c : Clause) : Group := { g with cur := g.cur.map (fun f => { f with pc := fallThrough c }) }

/-- R271: FYIELD. -/
def execFyield (f : FormR) (s : State) : Out :=
  onceR s 0x89 f noSpec (fun s x c _ eff => .next (putGM s (endClause { x with g := fallOn x.g c } eff f.gd.sw false true)))

/-- What a read of %TIME returns: at most 2 below the master count, never below an earlier read of the group (R276; DESIGN CHOICE, log 2) (DEDUCED, log 28). -/
def timeRead (s : State) (g : Group) : Nat := max g.lastTime (s.tick - Config.timerLag s.fresh % 3)

/-- R272: a sleeping fibre whose wake time %TIME has reached is ready. -/
def wakeFibre (now : Nat) (h : Fibre) : Fibre :=
  match h.wake with
  | some t => if t ≤ now then { h with wake := none } else h
  | none => h

/-- R272: the fibres whose wake time %TIME has reached are ready, the one that ran SLEEP among them. -/
def wakeFibres (now : Nat) (g : Group) : Group := { g with cur := g.cur.map (wakeFibre now), fibres := g.fibres.map (wakeFibre now) }

/-- Whether a fibre sleeps whose wake time has come (R272). -/
def wakeDue (now : Nat) (g : Group) : Bool := (g.cur.toList ++ g.fibres).any (fun h => h.wake.any (fun t => decide (t ≤ now)))

/-- R272: the due fibres woken at a read of %TIME, which the group's later reads do not go below (R276). -/
def wakeNow (s : State) (g : Group) : Group :=
  let now := timeRead s g
  if wakeDue now g then { wakeFibres now g with lastTime := now } else g

/-- R272: SLEEP. -/
def execSleep (f : FormR) (s : State) : Out :=
  onceR s 0x8B f a32Spec (fun s x0 c _ eff =>
    let x := touchSrc x0 f a32Spec
    let a := rdOpd x f.a .z32 ((lowLane eff).getD 0)
    let now := timeRead s x.g
    let g := fallOn (wakeFibres now x.g) c
    let full := decide (32 ≤ (g.fibres.filter (fun h => h.wake.isSome)).length)
    let g := { g with lastTime := now }
    let g := if full || a = 0 then g else { g with cur := g.cur.map (fun h => { h with wake := some (now + a) }) }
    .next (putGM s (endClause (dropLu { x with g := g } f a32Spec) eff f.gd.sw false full)))

/-- R272: SLEEP_WAKE: the fibres whose wake time has come are ready. -/
def execSleepWake (gid : Nat) (s : State) : Out :=
  .next (modG s gid (fun g =>
    let g := wakeNow s g
    if g.phase = .asleep && g.fibres.any (fun h => h.wake.isNone) then { g with phase := .boundary false false } else g))

/-! ## Special registers (R274, R275, R282) -/

/-- %TRAPREC (R282). -/
def trapRecReg (g : Group) : Nat :=
  g.trapCount.toNat * 65536 + g.trec.sub % 256 * 256 + b2n g.hMode * 128 + b2n (g.hMask != 0) * 64 + g.trec.cause % 64

/-- %THROTTLE (R475). -/
def throttleReg (t : Throttle) : Nat := t.trans % 65536 * 65536 + t.ratio % 16 * 256 + t.clock % 16 * 16 + b2n t.active * 8 + t.cause % 8

/-- Live fibres (R250, R275). -/
def liveFibres (g : Group) : Nat := g.fibres.length + g.cur.toList.length

/-- A special register's value for a lane (R275); time is the value a read of %TIME returns. -/
def specVal (s : State) (g : Group) (time n l : Nat) : Nat :=
  match n with
  | 0x00 => l
  | 0x01 => g.width
  | 0x02 => g.idx
  | 0x03 => g.role
  | 0x04 => ((getT s g.team).map Team.idx).getD 0
  | 0x05 => ((gridOf s g).map (fun gr => gr.lr.teams)).getD 0
  | 0x06 => ((getT s g.team).map (fun t => b2n t.paired)).getD 0
  | 0x07 => ((getT s g.team).map Team.share).getD 0
  | 0x08 => ((gridOf s g).map (fun gr => gr.shares.length)).getD 0
  | 0x09 => ((gridOf s g).map Grid.num).getD 0
  | 0x0A => coreOf s g
  | 0x0B => (g.slot.map SlotAt.slice).getD 0
  | 0x0C => (predOf g).toNat
  | 0x0D => liveFibres g
  | 0x0E => wbaseOf g
  | 0x0F => g.flags.toNat
  | 0x10 => g.trapen.toNat
  | 0x11 => trapRecReg g
  | 0x12 => b2n g.scopeflag
  | 0x13 => g.hintmiss.toNat
  | 0x14 => time
  | 0x15 => (g.slot.map (fun a => (nth (coreAt s a.core).slices a.slice Slice.reset).cycles)).getD 0
  | 0x16 => throttleReg (partAt s (partOf s g)).thr
  | 0x17 => ((getT s g.team).map (fun t => t.veers.toNat)).getD 0
  | 0x18 => partOf s g
  | _ => ((nth s.dies (vsDie (stackOf s g)) Die.reset).incarn).toNat

/-- Registers a special register fills: a pair for 64 bits, a word for each 32 lanes for %ACTIVE. -/
def specWords (g : Group) (n : Nat) : Nat := if n = 0x0C then maskWords g.width else if n = 0x14 ∨ n = 0x15 then 2 else 1

/-- R276: whether the group's core must resynchronise its timer copy before a read of %TIME. -/
def mustResync (s : State) (f : FormR) (g : Group) : Bool := f.ext == 0x14 && (coreAt s (coreOf s g)).resync

/-- R274: GETS. -/
def execGets (f : FormR) (s : State) : Out :=
  match s.cur.bind (getG s) with
  | none => .fault .noIssuingGroup
  | some g0 =>
    if mustResync s f g0 then stallOut (modCore s (coreOf s g0) (fun c => { c with resync := false })) g0 .stall
    else
      let t := timeRead s g0
      let s1 := if f.ext = 0x14 then modG s g0.id (fun g => { g with lastTime := t }) else s
      runLaneG s1 0x8C f (fun g => f.ext == 0x0C && wordsMis g f.d) (fun g => ⟨.no, .no, .no, .val (specWords g f.ext.toNat), 4⟩)
        (fun g i => outV (specVal s1 g t f.ext.toNat i.l))

/-- The write a SETS schedules (R139, R184, R185, R274). -/
def specWrite (n : Nat) (v : W32) : RegWrite :=
  match n with
  | 0x0F => .flagsSet (v.extractLsb' 0 5)
  | 0x10 => .trapenSet (v.extractLsb' 0 5)
  | 0x12 => .scopeflagSet (v.getLsbD 0)
  | _ => .hintmissSet v

/-- R274: SETS. -/
def execSets (f : FormR) (s : State) : Out :=
  onceR s 0x8D f a32Spec (fun s x0 c _ eff =>
    let x := touchSrc x0 f a32Spec
    let v := BitVec.ofNat 32 (rdOpd x f.a .z32 ((lowLane eff).getD 0))
    .next (putGM s (onceDone (sched x (x.g.pos + 4) (specWrite f.ext.toNat v)) c f a32Spec eff)))

/-! ## Clause boundaries (R255, R256, R258) -/

/-- Whether fibre a is preferred to b in the normal order: the larger window base, then the lower program counter (DESIGN CHOICE, log 27). -/
def fibreBefore (a b : Fibre) : Bool := decide (b.wbase < a.wbase) || (a.wbase == b.wbase && decide (a.pc < b.pc))

/-- The first fibre in the normal order (DESIGN CHOICE, log 27). -/
def bestFibre : List Fibre → Option Fibre
  | [] => none
  | f :: fs =>
    match bestFibre fs with
    | none => some f
    | some h => if fibreBefore h f then some h else some f

/-- The fibre with the largest wait count, ties in the normal order (R255 step 1). -/
def longestWait (fs : List Fibre) : Option Fibre := bestFibre (fs.filter (fun f => fs.all (fun h => decide (h.waitc ≤ f.waitc))))

/-- R255: the fibre chosen among the ready ones: cur is the fibre that ran the clause, where it is ready (DESIGN CHOICE, log 27). -/
def chooseFibre (cur : Option Fibre) (others : List Fibre) (backward yielded : Bool) : Option Fibre :=
  let waiting := others.filter (fun f => decide (1 ≤ f.waitc))
  if (backward || yielded) && !waiting.isEmpty then longestWait waiting
  else if yielded && !others.isEmpty then bestFibre others
  else bestFibre (cur.toList ++ others)

/-- Whether a fibre may be chosen now: awake, and of the handler while the group is in handler mode (R253, R284). -/
def eligible (g : Group) (f : Fibre) : Bool := f.wake.isNone && (!g.hMode || f.hnd)

/-- Whether the header at an offset has U set (R51). -/
def headerU (s : State) (g : Group) (pc : Nat) : Bool :=
  match headerOf (fetchAt s g pc).toNat with
  | some h => h.u
  | none => false

/-- R255: the chosen fibre with those that merge into it, and the others with their wait counts. -/
def mergeFibres (u : Bool) (g : Group) (f : Fibre) (rest : List Fibre) : Fibre × List Fibre :=
  let same := fun h : Fibre => !u && eligible g h && h.pc == f.pc && h.wbase == f.wbase
  ({ f with pred := (rest.filter same).foldl (fun m h => m ||| h.pred) f.pred, waitc := 0 },
   (rest.filter (fun h => !same h)).map (fun h => if eligible g h then { h with waitc := min 65535 (h.waitc + 1) } else h))

/-- R255, R270: the next clause's fibre chosen; with none ready the group sleeps, and with none live and none registered it ends. -/
def boundaryGroup (s : State) (g : Group) (backward yielded : Bool) : Group :=
  let g := { g with cur := g.cur.filter (fun f => f.pred != 0) }
  let live := g.cur.toList ++ g.fibres
  match chooseFibre (g.cur.filter (eligible g)) (g.fibres.filter (eligible g)) backward yielded with
  | some f =>
    let r := mergeFibres (headerU s g f.pc) g f (live.erase f)
    { g with cur := some r.1, fibres := r.2, phase := .header }
  | none =>
    if live.isEmpty && g.conts.isEmpty && g.firing.isEmpty && g.trapped.isNone then
      { g with cur := none, phase := .asleep, ended := true, exited := g.exited ||| g.idle, idle := 0 }
    else { g with cur := none, fibres := live, phase := .asleep }

/-- A fibre put into a list behind those that the normal order prefers. -/
def fibreInsert (f : Fibre) : List Fibre → List Fibre
  | [] => [f]
  | h :: hs => if fibreBefore f h then f :: h :: hs else h :: fibreInsert f hs

/-- R252: the live fibres in the order in which the table takes them: the sleeping ones, which never leave it, the chosen one, then the others in the order of R255. -/
def tableOrder (g : Group) : List Fibre :=
  let live := g.cur.toList ++ g.fibres
  live.filter (fun f => f.wake.isSome) ++ g.cur.toList.filter (fun f => f.wake.isNone) ++ (g.fibres.filter (fun f => f.wake.isNone)).foldr fibreInsert []

/-- R252: a fibre's 32-byte record. -/
def fibreRec (w : Nat) (f : Fibre) : List Byte :=
  leBytes 32 (f.pc % 2 ^ 64 + f.wbase % 2 ^ 32 * 2 ^ 64 + f.waitc % 2 ^ 16 * 2 ^ 96 + (f.pred &&& fullMask w).toNat * 2 ^ 128)

/-- R252: the fibres beyond the table's 32 held as records in the fibre segment, numbered anew from 0 at each boundary in the order of R255 (DESIGN CHOICE, log 96). -/
def storeFibres (x : GM) : GM :=
  { x with m := ((tableOrder x.g).drop 32).zipIdx.foldl (fun m r => memWrN m (fibreKey x.g.id (32 * r.2)) (fibreRec x.g.width r.1)) x.m }

/-- R255: CLAUSE_BOUNDARY: due once the clause has ended, its switch marker's wait is over and no trap is due; every write of the ended clause has then landed (R60). -/
def execClauseBoundary (gid : Nat) (s : State) : Out :=
  match getG s gid with
  | none => .next s
  | some g =>
    match g.phase with
    | .boundary b y =>
      if g.park = .none && g.trapDue.isNone && !g.ended && !g.halted then
        let x := landAll (gmOf s g)
        .next (putGM s (storeFibres { x with g := boundaryGroup s (wakeNow s x.g) b y }))
      else .next s
    | .inClause _ | .header | .asleep => .next s

/-! ## Clause headers (R43-R51, R53, R55) -/

/-- R53: the first check that a header fails, in order: cause and fault address. -/
def headerCheck (e : ObjEnt) (g : Group) (pc : Nat) (w : Nat) : Option (Cause × W64) :=
  if !codeOk e pc then some (.capability, BitVec.ofNat 64 pc)
  else match headerOf w with
    | none => some (.illegalClause, 0)
    | some h =>
      if 6 ≤ h.cls then some (.illegalClause, 0)
      else if h.rsv != 0 then some (.illegalInstr, 0)
      else if h.cls = 5 && !inAgentSlot g then some (.privilegedInstr, 0)
      else match (List.range h.cnt).find? (fun i => !codeOk e (pc + 8 * (i + 1))) with
        | some i => some (.capability, BitVec.ofNat 64 (pc + 8 * (i + 1)))
        | none => none

/-- The code lines of a clause fetched: those the grid has not, and those the mask names (R44) (DESIGN CHOICE, log 76). -/
def fetchLines (s : State) (gr : Grid) (e : ObjEnt) (pc n : Nat) (refetch : BitVec 4) : Grid :=
  (List.range ((pc + 8 * n) / 64 - pc / 64 + 1)).foldl (fun gr i =>
    let ln := pc / 64 + i
    if (icLine gr ln).isSome && !refetch.getLsbD i then gr
    else { gr with icache := (ln, uniRd s gr.part (e.ubase + 64 * ln) 64) :: gr.icache.filter (fun x => x.1 != ln) }) gr

/-- Whether n bytes of code stand in memory that a core's fetch can read now (R23, R433, R436). -/
def codeHere (s : State) (core : Nat) (gr : Grid) (e : ObjEnt) (off n : Nat) : Bool :=
  match pathReach s (senderNow s (coreDie core)) gr.part (e.ubase + off) n with
  | .ready | .host => true
  | .held | .page _ => false

/-- A trap of a header (R52): its lanes are the fibre's predicate word. -/
def headerTrap (s : State) (g : Group) (f : Fibre) (w : Nat) (r : Cause × W64) : State :=
  takeTrap s g.id (causeCode r.1) 0 f.pred r.2 (BitVec.ofNat 64 w) f.pc f.pc none

/-- Whether the trap of a failed access is to be taken before the next clause (R280, R285) (DEDUCED, log 26). -/
def pendDue (g : Group) : Option PendTrap := g.pendTraps.find? (fun p => !(g.hMode && p.kept))

/-- Whether a group may start a clause: its header is next, in its slot, with nothing parked, due or stopping it, its last clause checked (R477) and its core not stopped for a veer (R483). -/
def mayStart (s : State) (g : Group) : Bool :=
  g.phase == .header && g.park == .none && g.trapDue.isNone && (pendDue g).isNone && g.slot.isSome && !g.ended && !g.halted &&
    !g.suspect && !veerStops s (coreOf s g) &&
    (match ctxOf s g, gridOf s g with
      | some c, some gr => c.state == .running && !gr.killDue && !gr.killed
      | _, _ => false)

/-- The lowest-numbered of some groups. -/
def lowestGroup (gs : List Group) : Option Group := (gs.map Group.idx).min?.bind (fun i => gs.find? (fun g => g.idx == i))

/-- R480: the group of a team to which a throttle trap would go: the one that it is held for, else the elected group. -/
def throttleGroup (s : State) (team : Nat) : Option Group :=
  let gs := s.groups.filter (fun g => g.team == team && !g.ended)
  (gs.find? (fun g => g.held.isSome)).or (lowestGroup (gs.filter Group.armed))

/-- R480: whether a throttle trap is due for a team in a partition: ACTIVE differs from what the team saw last. -/
def throttleDue (s : State) (team part : Nat) : Bool := (getT s team).any (fun t => (partAt s part).thr.active != t.lastSeen)

/-- Whether a group must meet a throttle trap before its next clause (R285, R480). -/
def throttleWaits (s : State) (g : Group) : Bool :=
  !g.hMode && (g.held.isSome || (throttleDue s g.team (partOf s g) && (throttleGroup s g.team).any (fun h => h.id == g.id)))

/-- The header word a grid's fetch sees, and the grid with the line fetched (R44) (DESIGN CHOICE, log 76). -/
def headerFetch (s : State) (gr : Grid) (e : ObjEnt) (pc : Nat) (refetch : BitVec 4) : Grid × Nat :=
  let gr := if codeOk e pc then fetchLines s gr e pc 0 refetch else gr
  (gr, (codeWord s gr e pc).toNat)

/-- R55: CLAUSE_START: the header is fetched and checked; once its WAIT counters read zero the clause begins at position 0 with every earlier write landed. -/
def execClauseStart (gid : Nat) (refetch : BitVec 4) (s : State) : Out :=
  match getG s gid with
  | none => .next s
  | some g =>
    match g.cur, gridOf s g with
    | some f, some gr =>
      if !mayStart s g || throttleWaits s g then .next s
      else
        let core := coreOf s g
        let e := (codeEnt s core gr).getD (objTable s gr.part (codeObj gr))
        let s := objCachePut s core e
        if codeOk e f.pc && !codeHere s (coreOf s g) gr e f.pc 8 then .next s
        else
          let (gr1, w) := headerFetch s gr e f.pc refetch
          match headerCheck e g f.pc w, headerOf w with
          | some r, _ => .next (headerTrap (modGrid s gr.id (fun _ => gr1)) g f w r)
          | none, none => .next s
          | none, some h =>
            if !codeHere s (coreOf s g) gr e f.pc (8 * (h.cnt + 1)) then .next s
            else if (List.range 8).any (fun d => h.wait.getLsbD d && cntOf g d != 0) then .next s
            else
              let s := modGrid s gr.id (fun _ => fetchLines s gr1 e f.pc h.cnt (refetch &&& 14))
              let x := landAll (gmOf s g)
              let sus := h.cls == 0 && (coreAt s core).squall
              .next (putGM s { x with g := { x.g with pos := 0, phase := .inClause ⟨f.pc, h.cls, h.cnt, 0, h.u⟩, ready := s.fresh, cls := h.cls, suspect := sus, suspects := b2n sus } })
    | _, _ => .next s

/-! ## Landing and switch points (R56, R61) -/

/-- R56: FIXED_LATENCY_LANDING: the earliest write lands, where its position has come: always between clauses and behind a switch marker. -/
def execFixedLatencyLanding (gid : Nat) (s : State) : Out :=
  match getG s gid with
  | none => .next s
  | some g =>
    match g.pend with
    | [] => .next s
    | p :: _ =>
      let between := match g.phase with
        | .inClause _ => g.park == .sw
        | .boundary _ _ | .header | .asleep => true
      if p.at' ≤ g.pos || between then .next (putGM s (landAt (gmOf s g) p.at')) else .next s

/-- The waiting groups of the slice that want blocks (R219). -/
def othersWait (s : State) (g : Group) : Bool :=
  match g.slot with
  | none => false
  | some a => (nth (coreAt s a.core).slices a.slice Slice.reset).waiters.any (· != g.id)

/-- Whether a group stands inside a clause. -/
def inClauseNow (g : Group) : Bool :=
  match g.phase with
  | .inClause _ => true
  | .boundary _ _ | .header | .asleep => false

/-- Whether a group is ready to issue: its next instruction, or its next clause with its WAIT counters at zero (R55, R219). -/
def readyNow (s : State) (g : Group) : Bool :=
  canIssue s g || (mayStart s g && (match g.cur with
    | some f => match headerOf (fetchAt s g f.pc).toNat with
      | some h => !(List.range 8).any (fun d => h.wait.getLsbD d && cntOf g d != 0)
      | none => true
    | none => false))

/-- R61: SWITCH_POINT: a switch marker's wait ends once every counter reads zero and every write has landed, unless the group stops there for a veer (R483); the slice takes the set of a group that is not ready then for one that waits (R219). -/
def execSwitchPoint (gid : Nat) (s : State) : Out :=
  match getG s gid with
  | none => .next s
  | some g =>
    if g.park = .sw && cntZero g && ((pendDue g).isNone || !inClauseNow g) && (g.halted || !inClauseNow g || !veerStops s (coreOf s g)) then
      let x := landAll (gmOf s g)
      let x := { x with g := { x.g with park := .none } }
      .next (putGM s (if othersWait s g && inClauseNow g && !canIssue s x.g then ocRelease x else x))
    else .next s

/-- Whether a group stands in the line for blocks with its next instruction waiting only for its set (R219). -/
def wantsSet (s : State) (g : Group) : Bool :=
  g.oc.isNone && canIssue s g && (match g.slot with
    | some a => (nth (coreAt s a.core).slices a.slice Slice.reset).waiters.contains g.id
    | none => false)

/-- Whether a group's set may be taken from it: it is at a switch point, between clauses, and not ready to issue (R61, R219). -/
def givesSet (s : State) (h : Group) : Bool := h.oc.isSome && !inClauseNow h && !readyNow s h

/-- R219: ENTRY_SET_ACQUIRE: the first group in line takes its set when enough blocks are free; else the set of a group of the slice that is at a switch point and not ready is released for it. -/
def execEntrySetAcquire (gid : Nat) (s : State) : Out :=
  match getG s gid with
  | none => .next s
  | some g =>
    if !wantsSet s g then .next s
    else if canAcquire s g then .next (takeSet s g).1
    else match s.groups.find? (fun h => h.id != g.id && h.slot.map (fun a => (a.core, a.slice)) == g.slot.map (fun a => (a.core, a.slice)) && givesSet s h) with
      | some h => .next (modGM s h.id ocRelease)
      | none => .next s

/-! ## A slice's choice (R28, R277) -/

/-- The slot number of a group. -/
def slotNo (g : Group) : Nat := (g.slot.map SlotAt.slot).getD 0

/-- R277: whether group a goes ahead of b: urgent before not, the earlier urgent, the earlier ready clause, the lower slot. -/
def issuesBefore (a b : Group) : Bool :=
  match a.urgent, b.urgent with
  | some x, some y => decide (x < y) || (x == y && decide (slotNo a < slotNo b))
  | some _, none => true
  | none, some _ => false
  | none, none => decide (a.ready < b.ready) || (a.ready == b.ready && decide (slotNo a < slotNo b))

/-- The group a slice issues. -/
def pickGroup : List Group → Option Group
  | [] => none
  | g :: gs =>
    match pickGroup gs with
    | none => some g
    | some h => if issuesBefore h g then some h else some g

/-- R28: the lane set of a group of width 8 or 16. -/
def laneSet (g : Group) : Nat := if g.width = 8 then slotNo g % 4 else slotNo g % 2

/-- The class of a group's current clause (R46). -/
def clauseCls (g : Group) : Nat :=
  match g.phase with
  | .inClause c => c.cls
  | .boundary _ _ | .header | .asleep => 6

/-- R28: whether a group may be packed with those already chosen: the same narrow width, the same clause class, a lane set of its own. -/
def packs (chosen : List Group) (h : Group) : Bool :=
  h.width < 32 && chosen.all (fun g => g.id != h.id && g.width == h.width && clauseCls g == clauseCls h && laneSet g != laneSet h)

/-- R28, R277: the groups that join the chosen ones, in the order of preference. -/
def packOf : Nat → List Group → List Group → List Group
  | 0, chosen, _ => chosen
  | n + 1, chosen, all =>
    match pickGroup (all.filter (packs chosen)) with
    | none => chosen
    | some h => packOf n (chosen ++ [h]) all

/-- Whether a group's instruction can issue: it is not stalled, or its stall has been found over (R57, R277). -/
def unstalled (g : Group) : Bool := g.park == .none || (retries g.park && g.tried)

/-- The groups of a slice whose instruction can issue. -/
def issuable (s : State) (core slice : Nat) : List Group :=
  s.groups.filter (fun g => (match g.slot with
    | some a => a.core == core && a.slice == slice
    | none => false) && unstalled g && canIssue s g && (canAcquire s g || !wantsSet s g))

/-- R277: a group that could have issued for 32 slice cycles is urgent, since the cycle at which it had waited so long; now counts the cycles of its slice. -/
def markUrgent (now : Nat) (g : Group) : Group := if 32 ≤ g.waited && g.urgent.isNone then { g with urgent := some (now + 32 - g.waited) } else g

/-- The passes of a group that have live lanes: the slice cycles that its instruction takes (R29). -/
def livePasses (g : Group) : Nat := max 1 ((List.range (passes g.width)).filter (fun p => predOf g &&& passMask p != 0)).length

/-- The cycles of a group's slice (R275). -/
def sliceNow (s : State) (g : Group) : Nat := (g.slot.map (fun a => (nth (coreAt s a.core).slices a.slice Slice.reset).cycles)).getD 0

/-- R277: SLICE_ISSUE: the slice chooses its group and the narrow groups packed with it (R28); the others that could issue have waited for the cycles it takes. A stalled group (R57) is among those that can issue once a new try has found its stall over. -/
def execSliceIssue (core slice : Nat) (s : State) : Out :=
  if !s.turn.isEmpty then .next s
  else
    let all := (issuable s core slice).map (fun g => markUrgent (sliceNow s g) g)
    match pickGroup all with
    | none => .next s
    | some g =>
      let chosen := (if g.width < 32 then packOf 3 [g] all else [g]).map Group.id
      .next { modSlice s core slice (fun sl => { sl with cycles := sl.cycles + livePasses g }) with
        cur := some g.id, turn := chosen, groups := s.groups.map (fun h =>
          if chosen.contains h.id then { h with waited := 0, urgent := none, tried := false }
          else if all.any (fun a => a.id == h.id) then markUrgent (sliceNow s h + livePasses g) { h with waited := h.waited + livePasses g } else h) }

/-- R277: GROUP_URGENT: a group that could have issued for 32 slice cycles is urgent. -/
def execGroupUrgent (gid : Nat) (s : State) : Out := .next (modG s gid (fun g => markUrgent (sliceNow s g) g))

end Sys2Proof.Machine
end

