-- ==== Sys2Proof/Machine/Trap.lean ====
section
/-! DEFINITION. Sys2Proof/Machine/Trap.lean: traps delivered, the handler's instructions, halting, saving and loading contexts, and the agents' HALT and PREQ (R279-R306, R490). -/

namespace Sys2Proof.Machine

/-! ## Delivery (R187, R280, R284) -/

/-- The rest of the clause a group stands in (R286). -/
def restOf (g : Group) : Option Clause :=
  match g.phase with
  | .inClause c => some c
  | .boundary _ _ | .header | .asleep => none

/-- R284: TRAP_DELIVERY: a float-exception trap is taken once the writes of its instruction have landed (R187), and its clause, where it is suspect, has been executed cleanly (R477). -/
def execTrapDelivery (gid : Nat) (s : State) : Out :=
  match getG s gid with
  | none => .next s
  | some g =>
    match g.trapDue with
    | none => .next s
    | some r => if g.suspect then .next s else .next (takeTrap s gid r.cause r.sub r.lanes r.addr r.word r.pc r.resume (restOf g))

/-- A pending trap taken away from those that wait. -/
def dropPend (s : State) (gid : Nat) (p : PendTrap) : State := modG s gid (fun g => { g with pendTraps := g.pendTraps.erase p })

/-- R280: SWITCH_POINT_TRAP: a pending translation-fault or memory-error trap is taken at a clause boundary, or behind a switch marker whose wait is over (DEDUCED, log 26). -/
def execSwitchPointTrap (gid : Nat) (s : State) : Out :=
  match getG s gid with
  | none => .next s
  | some g =>
    match pendDue g, g.cur with
    | some p, some f =>
      if g.halted || g.ended || g.trapDue.isSome || g.slot.isNone then .next s
      else match g.phase with
        | .header =>
          if g.park = .none then .next (takeTrap (dropPend s gid p) gid p.cause p.sub p.lanes p.addr (fetchAt s g f.pc) f.pc f.pc none) else .next s
        | .inClause c =>
          if g.park = .sw && cntZero g then
            .next (takeTrap (dropPend s gid p) gid p.cause p.sub p.lanes p.addr (fetchAt s g c.h) c.h (pcOf c) (some c))
          else .next s
        | .boundary _ _ | .asleep => .next s
    | _, _ => .next s

/-! ## TRAP, TRET, TMASK, TINFO, TSUB (R288-R292) -/

/-- R288: TRAP. -/
def execTrap (f : FormR) (s : State) : Out :=
  onceR s 0x90 f noSpec (fun s x c word eff =>
    let s1 := takeTrap (putGM s x) x.g.id (causeCode .userTrap) f.ext.toNat eff 0 word (pcOf c) (fallThrough c) none
    .next (modG s1 x.g.id (fun g => if f.gd.sw then { g with park := .sw } else g)))

/-- R292: a .skip after a trap at a header: the trap goes to system software with DOUBLE set. -/
def skipDouble (s : State) (g : Group) : State :=
  let r := { g.trec with dbl := true, handled := false }
  let s := modG s g.id (fun g => { g with trec := r })
  match ctxOf s g with
  | none => s
  | some c => modGrid s c.grid (fun gr => { gr with killDue := true, rec1 := gr.rec1.or (some r) })

/-- Where TRET resumes: the offset, and the clause it lies in (R286, R292). -/
def resumePoint (f : Fibre) (r : TrapRec) (skip : Bool) : Nat × Option Clause :=
  match f.rem with
  | some c => if skip && r.resume == r.pc then nextPoint c else (r.resume, some c)
  | none => (r.resume, none)

/-- R292: TRET. -/
def execTret (f : FormR) (s : State) : Out :=
  onceR s 0x91 f noSpec (fun s x c word eff =>
    match x.g.hMode, x.g.trapped with
    | true, some t =>
      let skip := f.ext.getLsbD 0
      if skip && x.g.trec.resume == x.g.trec.pc && t.rem.isNone then .next (skipDouble (putGM s (landAll x)) x.g)
      else
        let x := landAll x
        let p := resumePoint t x.g.trec skip
        let g := returnTrap x.g p.1 p.2
        .next (putGM s { x with g := if f.gd.sw then { g with park := .sw } else { g with park := .none } })
    | _, _ => illegalOutAt s x c word eff)
where
  illegalOutAt (s : State) (x : GM) (c : Clause) (word : W64) (eff : Mask) : Out := trapOut (putGM s x) x.g c word .illegalInstr 0 eff 0

/-- How TMASK reads A and B. -/
def tmaskSpec : LaneSpec := ⟨.val .z32, .val .z32, .no, .no, 0⟩

/-- R289: TMASK. -/
def execTmask (f : FormR) (s : State) : Out :=
  onceR s 0x92 f tmaskSpec (fun s x0 c word eff =>
    let x := touchSrc x0 f tmaskSpec
    let l := (lowLane eff).getD 0
    let a := rdOpd x f.a .z32 l
    let b := rdOpd x f.b .z32 l
    match (gridOf s x.g).map (fun gr => targetOk s gr (a : Int)) with
    | some true =>
      let y := onceDone x c f tmaskSpec eff
      .next (putGM s { y with g := { y.g with hEntry := a, hMask := BitVec.ofNat 32 (b &&& 0x000FFFFE), hShift := f.ext.toNat } })
    | _ => trapOut (putGM s x) x.g c word .capability 0 eff (BitVec.ofNat 64 a))

/-- CAUSEW (R281). -/
def causeWord (r : TrapRec) : Nat := r.cause % 64 + r.sub % 256 * 256 + b2n r.dbl * 65536 + b2n r.handled * 131072

/-- R290: a field of the trap record. -/
def tinfoVal (r : TrapRec) (field : Nat) : Nat :=
  match field with
  | 0 => causeWord r
  | 1 => r.pc
  | 2 => r.word.toNat
  | 3 => r.addr.toNat
  | 4 => r.lanes.toNat
  | 5 => r.resume
  | 6 => r.wbase
  | _ => r.active.toNat

/-- R290: the words of a field. -/
def tinfoWords (g : Group) (field : Nat) : Nat :=
  match field with
  | 0 | 6 => 1
  | 4 | 7 => maskWords g.width
  | _ => 2

/-- R290: TINFO. -/
def execTinfo (f : FormR) (s : State) : Out :=
  let n := f.ext.toNat % 16
  runLaneG s 0x93 f (fun g => (n == 4 || n == 7) && wordsMis g f.d) (fun g => ⟨.no, .no, .no, .val (tinfoWords g n), 4⟩)
    (fun g _ => outV (tinfoVal g.trec n))

/-- The registers that an instruction's destination spans; 0 where its format has none (R291). The fields are the word's own (DEDUCED, log 32). -/
def dstSpan (g : Group) (w : Nat) : Nat :=
  let wide := (tyOf (fld w 15 4)).elim 1 (fun t => if tyWide t then 2 else 1)
  let ext := fld w 0 8
  let mem := max 1 (2 ^ fld w 19 3 / 4)
  match opField w with
  | 0x00 | 0x61 | 0x66 | 0x67 | 0x6C | 0x6D | 0x6E | 0x70 | 0x71 | 0x72 | 0x76 | 0x80 | 0x81 | 0x82 | 0x83 | 0x84 | 0x85 | 0x86 | 0x87 => 0
  | 0x88 | 0x89 | 0x8A | 0x8B | 0x8D | 0x90 | 0x91 | 0x92 | 0x94 | 0x97 | 0xA0 | 0xA4 | 0xA6 | 0xA8 | 0xA9 | 0xAA | 0xBC | 0xBE | 0xD9 => 0
  | 0x02 => (tyOf (fld w 39 4)).elim 1 (fun t => if tyWide t then 2 else 1)
  | 0x03 | 0x10 | 0x25 | 0x26 | 0x27 | 0x28 | 0x4D | 0xB8 => 2
  | 0x13 | 0x20 | 0x21 | 0x22 | 0x2E | 0x38 | 0x39 | 0x49 | 0x6F | 0x75 => 1
  | 0x2B => if ext = 3 then maskWords g.width else 1
  | 0x2F => if ext = 2 then maskWords g.width else if ext = 4 then 1 else 1
  | 0x60 | 0x62 | 0x63 | 0x64 | 0x65 | 0xA5 | 0xC8 | 0xC9 | 0xCA | 0xCB => mem
  | 0x74 => if ext % 4 = 0 then 2 else 1
  | 0x8C => specWords g ext
  | 0x93 => tinfoWords g (ext % 16)
  | 0xBD => 64 * (fld w 0 8 % 64 + 1) / g.width
  | 0xCD => if fld w 11 8 = 4 then 2 else 1
  | op => if op < 0x60 then wide else 1

/-- The destination of the trapped instruction and the registers it spans (R291) (DEDUCED, log 32). -/
def trappedDst (g : Group) : Option (Opd × Nat) :=
  let w := g.trec.word.toNat
  if fld w 58 6 = 63 || (formatOf (opField w)).isNone || dstSpan g w = 0 then none
  else match opdOf (fld w 43 8) with
    | some (.v n) => some (.v n, dstSpan g w)
    | some (.s n) => some (.s n, dstSpan g w)
    | some (.k n) => some (.k n, 1)
    | _ => none

/-- How TSUB reads A. -/
def tsubSpec (f : FormR) : LaneSpec := ⟨.val f.ty, .no, .no, .no, 4⟩

/-- R291: TSUB's write for the lanes of one pass: n words at the trapped fibre's window (DEDUCED, log 32). -/
def tsubPass (x : GM) (f : FormR) (d : Opd) (n at' : Nat) (first : Bool) (vs : List (Nat × Nat)) : GM :=
  let i := f.ext.toNat % 8
  match d with
  | .v k => (List.range n).foldl (fun x j => sched x at' (.vreg (x.g.trec.wbase + k.val + i + j) (vs.map (fun v => (v.1, wordOf v.2 j))) false)) x
  | .s k =>
    match vs with
    | [] => x
    | (_, v) :: _ => if first then (List.range n).foldl (fun x j => sched x at' (.sreg (k.val + i + j) (wordOf v j))) x else x
  | .k k => sched x at' (.kreg k.val (vs.map (fun v => (v.1, v.2.testBit 0))))
  | .zero | .one | .half | .two | .negOne | .lane | .ones => x

/-- R291: TSUB; each pass reads A at its own position (R56). -/
def execTsub (f : FormR) (s : State) : Out :=
  onceR s 0x94 f (tsubSpec f) (fun s x0 c word eff =>
    let n := tyN f.ty
    let i := f.ext.toNat % 8
    let x := touchSrc x0 f (tsubSpec f)
    let m := eff &&& x.g.trec.lanes
    let done := fun (x : GM) => Host.Outcome.next (putGM s (onceDone x c f (tsubSpec f) eff))
    if !x.g.hMode then trapOut (putGM s x) x.g c word .illegalInstr 0 eff 0
    else match trappedDst x.g with
      | none => done x
      | some (d, span) =>
        if span < i || (n == 2 && !isMaskOpd d && (regNo d + i) % 2 != 0) then trapOut (putGM s x) x.g c word .illegalInstr 0 eff 0
        else if isVecOpd d && decide (x.g.frame < x.g.trec.wbase + regNo d + i + n) then
          trapOut (putGM s x) x.g c word .frameRange 0 eff (BitVec.ofNat 64 (x.g.trec.wbase + regNo d + i + n - 1))
        else
          let low := lowLane m
          done ((issuedPasses x.g eff).zipIdx.foldl (fun x p =>
            let ls := p.1.filter (fun l => m.getLsbD l)
            tsubPass x f d n (x0.g.pos + p.2 + 4) (ls.head? == low) (ls.map (fun l => (l, rdOpd (atPass x0 f.gd l) f.a f.ty l)))) x))
where
  isMaskOpd (d : Opd) : Bool :=
    match d with
    | .k _ => true
    | .v _ | .s _ | .zero | .one | .half | .two | .negOne | .lane | .ones => false
  isVecOpd (d : Opd) : Bool :=
    match d with
    | .v _ => true
    | .k _ | .s _ | .zero | .one | .half | .two | .negOne | .lane | .ones => false

/-! ## Halting (R295, R296) -/

/-- The groups of a context that have not left. -/
def groupsOf (s : State) (ctx : Nat) : List Group := s.groups.filter (fun g => g.ctx == ctx && !g.left)

/-- R296: HALT_REQUEST: a request that has reached the core makes a running context HALTING; its core runs at full speed (R473). -/
def execHaltRequest (ctx : Nat) (s : State) : Out :=
  .next (throttleAll (modC s ctx (fun c => if c.haltReq && c.state == .running then { c with state := .halting, haltReq := false } else c)))

/-- R296: whether a group may halt where it stands: between clauses, or parked, with no clause to be executed again (R486); a stall of R57 is no park, a .stall grow is one. -/
def mayHalt (g : Group) : Bool :=
  g.trapDue.isNone && !g.suspect &&
  (!inClauseNow g ||
   (match g.park with
    | .sw | .growWait _ | .bwait _ _ _ _ _ _ | .awaitPhase _ _ _ _ _ _ _ | .awaitCell _ | .pause _ _ _ | .tbar _ | .sbar _ | .gbar _ | .absent _
    | .agentIdle _ => true
    | .none | .stall | .objMiss _ | .regionMiss _ | .fence _ _ | .alloc | .shrinkWait | .entryWait _ _ => false))

/-- R296: a group halted: its writes land, its set is written back and released; a .stall grow's wait ends (R245); a wait-table entry stays its own until its image is written (R326). -/
def haltGroup (s : State) (g : Group) : State :=
  let s := modGM s g.id (fun x =>
    let x := ocRelease (landAll x)
    let w := x.g.watch.map (fun w => { w with trig := w.trig.or (some 3) })
    { x with g := { x.g with halted := true, watch := w, park := match x.g.park with
        | .growWait _ => .none
        | p => p } })
  let s := allocDrop s g.id (coreOf s g)
  match g.slot with
  | none => s
  | some a => modSlice s a.core a.slice (fun sl => { sl with waiters := sl.waiters.filter (· != g.id) })

/-- Whether a park takes a wait-table entry (R326). -/
def takesEntry (p : Park) : Bool :=
  match p with
  | .bwait _ _ _ _ _ _ | .awaitPhase _ _ _ _ _ _ _ | .awaitCell _ | .pause _ _ _ | .tbar _ | .sbar _ | .gbar _ | .absent _ => true
  | .none | .sw | .stall | .objMiss _ | .regionMiss _ | .fence _ _ | .alloc | .growWait _ | .shrinkWait | .entryWait _ _ | .agentIdle _ => false

/-- R326: groups that go on while parked take a wait-table entry again, where one is free. -/
def giveEntries (s : State) (gs : List Nat) : State :=
  gs.foldl (fun s i => modG s i (fun g => if takesEntry g.park then { g with waitEntry := g.waitEntry || entryFree s g } else g)) s

/-- A halted context whose groups go on without having been saved (R295). -/
def resumeHalted (s : State) (ctx : Nat) : State :=
  giveEntries { modC s ctx (fun c => { c with state := .running }) with
    groups := s.groups.map (fun g => if g.ctx = ctx then { g with halted := false } else g) } ((groupsOf s ctx).map Group.id)

/-- An event for the agents of some cores (R302). -/
def agentEvent (s : State) (core : Nat → Bool) : State :=
  { s with cores := s.cores.zipIdx.map (fun c => if core c.2 then { c.1 with agent := { c.1.agent with event := true } } else c.1) }

/-- R295: a context all of whose groups have halted is HALTED; one whose last page request was answered meanwhile runs on. Its core no longer runs at full speed for it (R473). -/
def haltDone (s : State) (ctx : Nat) : State :=
  match getC s ctx with
  | none => s
  | some c =>
    if c.state == .halting && (groupsOf s ctx).all (fun g => g.halted || g.ended) then
      boostOver s (if c.faulted || c.saveReq then agentEvent (modC s ctx (fun c => { c with state := .halted })) (· == c.core)
        else resumeHalted s ctx) c.core
    else s

/-- R296: GROUP_HALTED. -/
def execGroupHalted (gid : Nat) (s : State) : Out :=
  match getG s gid with
  | none => .next s
  | some g =>
    match ctxOf s g with
    | none => .next s
    | some c =>
      if c.state == .halting && mayHalt g && !g.halted then .next (haltDone (haltGroup s g) c.id) else .next s

/-! ## Slot images (R281, R300, R490) -/

/-- A number in bytes. -/
def trapBytes (r : TrapRec) : List Byte :=
  leBytes 80 (r.pc + r.word.toNat * 2 ^ 64 + r.addr.toNat * 2 ^ 128 + r.lanes.toNat * 2 ^ 192 + r.resume * 2 ^ 320 + r.wbase * 2 ^ 384 +
    causeWord r * 2 ^ 416 + r.active.toNat * 2 ^ 448)

/-- Bytes 64 to 95 of an image: the wait's kind, pointer, target and instance (R300). -/
def waitBytes (p : Park) : List Byte :=
  let f := fun (k : Nat) (ptr t inst : Nat) => leBytes 8 k ++ leBytes 8 ptr ++ leBytes 8 t ++ leBytes 8 inst
  match p with
  | .bwait _ ptr t _ _ _ => f 1 ptr.toNat t.toNat 0
  | .awaitPhase _ ptr t _ _ _ _ => f 2 ptr.toNat t.toNat 0
  | .awaitCell w => f 3 w.ptr.toNat w.t.toNat 0
  | .pause _ _ _ => f 4 0 0 0
  | .tbar i => f 5 0 0 i
  | .sbar i => f 6 0 0 i
  | .gbar i => f 7 0 0 i
  | .absent _ => f 8 0 0 0
  | .none | .sw | .stall | .objMiss _ | .regionMiss _ | .fence _ _ | .alloc | .growWait _ | .shrinkWait | .entryWait _ _ | .agentIdle _ => f 0 0 0 0

/-- A fibre record (R252), with the marks of a sleeping fibre (R300); a fibre that stands inside a clause has the offset of that clause's header (DEDUCED, log 87). -/
def fibreBytes (now : Nat) (f : Fibre) : List Byte :=
  match f.wake with
  | some t => leBytes 8 f.pc ++ leBytes 4 (f.wbase + 2 ^ 31) ++ leBytes 4 (t - now) ++ leBytes 16 f.pred.toNat
  | none => leBytes 8 f.pc ++ leBytes 4 f.wbase ++ leBytes 4 f.waitc ++ leBytes 16 f.pred.toNat

/-- The on-chip return entries of a lane, its depth in the first (R300). -/
def retBytes (es : List RetEnt) : List Byte :=
  ((List.range 4).flatMap (fun i =>
    let e := nth es i ⟨0, 0⟩
    leBytes 8 e.pc ++ leBytes 4 e.wbase ++ leBytes 4 (if i = 0 then es.length else 0)))

/-- The fibres of the fibre table (R252): the first 32 in its order. -/
def tableFibres (g : Group) : List Fibre := (tableOrder g).take 32

/-- The slot image of a group (R300). -/
def slotImage (now : Nat) (g : Group) : List Byte :=
  g.cnt.flatMap (fun c => leBytes 1 (c % 64)) ++ leBytes 4 g.flags.toNat ++ leBytes 4 g.trapen.toNat ++ leBytes 4 (b2n g.scopeflag) ++
  leBytes 4 g.hintmiss.toNat ++ leBytes 4 g.hEntry ++ leBytes 4 g.hMask.toNat ++ leBytes 1 g.hShift ++
  leBytes 1 (b2n g.hMode + 2 * b2n g.held.isSome + 4 * g.held.getD 0 + 8 * b2n g.armed) ++ leBytes 2 g.trapCount.toNat ++
  leBytes 1 (tableFibres g).length ++ leBytes 3 0 ++ leBytes 8 now ++ leBytes 16 g.exited.toNat ++ waitBytes g.park ++ trapBytes g.trec ++
  leBytes 80 0 ++ (tableFibres g).flatMap (fibreBytes now) ++ g.rets.flatMap retBytes

/-- Bytes 80 to 255 of a save area; a hold that is over is none (R490). -/
def saveHeader (now : Nat) (t : Team) : List Byte :=
  leBytes 4 t.veers.toNat ++ leBytes 4 (b2n t.lastSeen) ++ leBytes 8 (if now < t.holdEnd then t.holdEnd else 0) ++ leBytes 160 0

/-- Bytes of a save area for a team's groups per team (R293). -/
def saveBytes (s : State) (c : Ctx) : Nat :=
  256 + 9472 * ((getGrid s c.grid).map (fun gr => (gr.lr.roles.map Role.groups).foldl (· + ·) 0)).getD 0

/-- The unified address of a context's save area, where its object's checks pass (R299). -/
def saveSpan (s : State) (c : Ctx) (rights : BitVec 4) : Option Nat :=
  let p := c.saveArea.toNat
  let e := entFetch s c.part (.g (ptrF1 p))
  if ptrSpace p == 1 && entGrants e (ptrOff p) (saveBytes s c) rights then some (e.ubase + ptrOff p) else none

/-- Where a context's save area stands, where every check on it passes (R299 status 3). -/
def saveAt (s : State) (c : Ctx) (rights : BitVec 4) : Option Nat :=
  (saveSpan s c rights).filter (fun ua => match uniReach s c.part ua (saveBytes s c) with
    | .page _ => false
    | .ready | .host | .held => !badLine s (.uni c.part ua) (saveBytes s c))

/-- Whether accesses to a context's save area are held: its pages move, or the path to them is closed (R23, R433). -/
def saveHeld (s : State) (c : Ctx) : Bool :=
  match saveAt s c 0 with
  | some ua => pathReach s (senderNow s (coreDie c.core)) c.part ua (saveBytes s c) == .held
  | none => false

/-- Whether every counter of a context reads zero but for counts held by unanswered page requests (R299). -/
def countersQuiet (s : State) (ctx : Nat) : Bool :=
  (groupsOf s ctx).all (fun g => (List.range 8).all (fun d =>
    cntOf g d == (s.ops.filter (fun o => o.g == g.id && o.ctr == d && o.lanes.any (fun y => y.st == .page))).length))

/-- A context by its number in a stack (R293). -/
def ctxInStack (s : State) (stack num : Nat) : Option Ctx := s.ctxs.find? (fun c => c.stack == stack && c.num == num && c.state != .free)

/-- How the agents' one-operand instructions read A. -/
def agentSpec : LaneSpec := ⟨.val .z32, .no, .no, .val 1, 1⟩

/-- An agent's instruction that answers a status: f gives the state and the status, or none to wait, with mark made on the state. -/
def agentOp (op : Nat) (f : FormR) (s : State) (mark : State → Group → Nat → State) (k : State → Group → Nat → Option (State × Nat)) : Out :=
  onceR s op f agentSpec (fun s x0 c _ eff =>
    let x := touchSrc x0 f agentSpec
    let a := rdOpd x f.a .z32 ((lowLane eff).getD 0)
    match k (putGM s x) x.g a with
    | none => stallOut (mark s x.g a) x.g .stall
    | some (s1, v) => .next (modGM s1 x.g.id (fun y => onceDone (schedAll y y.g.pos 1 f 1 eff v) c f agentSpec eff)))

/-- The context of an agent's stack with a number marked: a CTXSAVE or CTXLOAD is in progress on it, or no longer (R295, R482). -/
def imagingMark (on : Bool) (s : State) (g : Group) (num : Nat) : State :=
  match ctxInStack s (stackOf s g) num with
  | some c => modC s c.id (fun c => { c with imaging := on })
  | none => s

/-- The answer of a CTXSAVE or CTXLOAD that ends: it is in progress no longer. -/
def imagingEnd (g : Group) (num : Nat) (r : Option (State × Nat)) : Option (State × Nat) := r.map (fun x => (imagingMark false x.1 g num, x.2))

/-- R299: the images of a context written and its slots released (DEDUCED, log 31). -/
def saveCtx (s : State) (c : Ctx) (ua : Nat) : State :=
  let s := match getT s c.team with
    | some t => uniWr s c.part (ua + 80) (saveHeader s.tick t)
    | none => s
  let s := (groupsOf s c.id).foldl (fun s g => uniWr s c.part (ua + 256 + 9472 * g.idx) (slotImage s.tick g)) s
  { modC s c.id (fun c => { c with state := .saved, savedAt := s.tick, saveReq := false }) with
    groups := s.groups.map (fun g => if g.ctx = c.id && !g.left then { g with slot := none, waitEntry := false, image := slotImage s.tick g } else g) }

/-- R299: CTXSAVE; while it waits it is in progress on its context (R295, R482). -/
def execCtxsave (f : FormR) (s : State) : Out :=
  agentOp 0x95 f s (imagingMark true) (fun s g num => imagingEnd g num <|
    match ctxInStack s (stackOf s g) num with
    | none => some (s, 2)
    | some c =>
      if c.core != coreOf s g then some (s, 2)
      else if c.state != .halted then some (s, 1)
      else match saveAt s c 2 with
        | none => some (s, 3)
        | some ua => if countersQuiet s c.id && !saveHeld s c then some (saveCtx s c ua, 0) else none)

/-- The free slots of a core, slice by slice: not the agent's, not held, not reserved (R16, R299, R462). -/
def freeSlots (s : State) (core : Nat) : List SlotAt :=
  ((List.range Config.numSlices).flatMap (fun i => (List.range Config.slotsPerSlice).map (fun j => (⟨core, i, j⟩ : SlotAt)))).filter
    (fun a => !(a.slice == 0 && a.slot == 15) && !(s.groups.any (fun g => g.slot == some a)) &&
      !(s.cores.any (fun c => c.agent.resv.any (fun r => r.slots.contains a))))

/-- 4 KiB granules of an HBM stack that back replicas of a partition's regions (R378). -/
def replicaGrans (p : Part) (k : Nat) : Nat := (p.regions.flatMap (fun r => r.reps.map (fun x => nth x.back k 0))).foldl (· + ·) 0

/-- Units of 2 KiB of an HBM stack that a partition was granted and that hold neither a granule, nor a spilled unit, nor a replica's cells (R301, R378, R431). -/
def hbmUnits (p : Part) (k : Nat) : Nat :=
  1024 * nth p.grant k 0 - 2 * (p.grans.filter (fun g => g.state == .hbm k || g.moving == some (.hbm k))).length - nth p.spill k 0 - 2 * replicaGrans p k

/-- 4 KiB granules of an HBM stack that are free for a partition's pages (R431). -/
def hbmFree (p : Part) (k : Nat) : Nat := hbmUnits p k / 2

/-- The HBM stacks of a half (R13). -/
def hbmOn (half : Nat) : List Nat := (List.range Config.numHbm).filter (fun k => hbmHalf k == half)

/-- Room for spilled granules of 2 KiB on a half (R301). -/
def spillRoom (s : State) (part half : Nat) : Nat := ((hbmOn half).map (hbmUnits (partAt s part))).foldl (· + ·) 0

/-- R301: n units of spill storage allotted from the stacks of a half, the lowest-numbered first (DEDUCED, log 88). -/
def allotSpill (p : Part) : List Nat → Nat → List (Nat × Nat)
  | [], _ => []
  | k :: ks, n => let m := min n (hbmUnits p k); (if m = 0 then [] else [(k, m)]) ++ allotSpill p ks (n - m)

/-- Spill units taken from a partition's grant, or given back. -/
def takeSpill (p : Part) (us : List (Nat × Nat)) : Part := { p with spill := us.foldl (fun l u => l.modify u.1 (· + u.2)) p.spill }
/-- Spill units given back. -/
def giveSpill (p : Part) (us : List (Nat × Nat)) : Part := { p with spill := us.foldl (fun l u => l.modify u.1 (· - u.2)) p.spill }

/-- R301: k granules of a context spilled from its core. -/
def spillCtx (s : State) (c : Ctx) (k : Nat) : State :=
  let us := allotSpill (partAt s c.part) (hbmOn (halfOfStack c.stack)) k
  modC (modP (modCore s c.core (fun x => giveGrans x k)) c.part (fun p => takeSpill p us)) c.id (fun c => { c with evicted := c.evicted + k, spill := c.spill ++ us })

/-- The context of a list that was saved longest ago. -/
def oldestSaved : List Ctx → Option Ctx
  | [] => none
  | c :: cs =>
    match oldestSaved cs with
    | none => some c
    | some d => if d.savedAt < c.savedAt then some d else some c

/-- R301: granules of SAVED contexts evicted, oldest first, until a core has what is needed; none where it cannot. -/
def makeRoom : Nat → State → Nat → Nat → Nat → Option State
  | 0, s, core, need, _ => if need ≤ (coreAt s core).free then some s else none
  | n + 1, s, core, need, keep =>
    let free := (coreAt s core).free
    if need ≤ free then some s
    else match oldestSaved (s.ctxs.filter (fun c => c.core == core && c.state == .saved && c.id != keep && decide (c.evicted < c.gran))) with
      | none => none
      | some c =>
        let k := min (c.gran - c.evicted) (need - free)
        if spillRoom s c.part (halfOfStack c.stack) < k then none
        else makeRoom n (spillCtx s c k) core need keep

/-- Room made as above, as often as there are contexts. -/
def makeRoomFor (s : State) (core need keep : Nat) : Option State := makeRoom s.ctxs.length s core need keep

/-- A wait of undefined kind, by 32 free words (R300). -/
def freePark (w : Nat → W32) : Park :=
  let ptr := BitVec.ofNat 64 ((w 1).toNat + 2 ^ 32 * (w 2).toNat)
  let obj := scrKey (w 3).toNat (32 * (w 4).toNat)
  match (w 0).toNat % 9 with
  | 1 => .bwait obj ptr (w 5) .none 0 .grp
  | 2 => .awaitPhase obj ptr (w 5) .none 0 .grp false
  | 3 => .awaitCell ⟨(w 3).toNat, 0, 0, 0, ptr, BitVec.ofNat 64 (w 5).toNat, .none, 0, false, false, none⟩
  | 4 => .pause (w 5).toNat .none 0
  | 5 => .tbar (w 6).toNat
  | 6 => .sbar (w 6).toNat
  | 7 => .gbar (w 6).toNat
  | 8 => .absent (w 3).toNat
  | _ => .none

/-- A mask of undefined lanes of a group's width. -/
def freeMask (w : Nat → W32) (width : Nat) : Mask := BitVec.ofNat 128 (packElems 32 [(w 0).toNat, (w 1).toNat, (w 2).toNat, (w 3).toNat]) &&& fullMask width

/-- A fibre of undefined state, by 8 free words; one in two sleeps until an undefined time (R252, R300). -/
def freeFibre (w : Nat → W32) (now width : Nat) : Fibre :=
  { pc := 8 * (w 0).toNat, pred := freeMask (fun j => w (3 + j)) width, wbase := (w 1).toNat % 1024, waitc := if (w 7).getLsbD 0 then 0 else (w 2).toNat % 65536,
    wake := if (w 7).getLsbD 0 then some (now + (w 2).toNat) else none, hnd := (w 7).getLsbD 1, rem := none }

/-- The return stack of a lane of undefined state: an undefined depth, four undefined entries on chip, and below them what its segment holds (R265, R300). -/
def freeRets (w : Nat → W32) (m : Memory) (g : Group) (lane : Nat) : List RetEnt :=
  let n := (w 0).toNat % 4097
  (List.range n).map (fun i =>
    if i < 4 then ⟨8 * (w (1 + 2 * i)).toNat, (w (2 + 2 * i)).toNat % 1024⟩
    else
      let v := leValue (memRdN m (stackKey g.id (16 * ((n - 1 - i) * g.width + lane))) 16)
      ⟨bits v 63 0, bits v 95 64⟩)

/-- A trap record of undefined fields, by 32 free words (R281, R300). -/
def freeTrapRec (w : Nat → W32) (width : Nat) : TrapRec :=
  { active := freeMask w width, cause := (w 4).toNat % 64, sub := (w 5).toNat % 256, dbl := (w 6).getLsbD 0, handled := (w 6).getLsbD 1,
    wbase := (w 7).toNat % 1024, resume := (w 8).toNat, lanes := freeMask (fun j => w (9 + j)) width,
    addr := BitVec.ofNat 64 ((w 13).toNat + 2 ^ 32 * (w 14).toNat), word := BitVec.ofNat 64 ((w 15).toNat + 2 ^ 32 * (w 16).toNat), pc := (w 17).toNat }

/-- A group of a context one of whose images another party changed: R300 leaves its restored state undefined: all that an image holds is free, and the idle lanes are those left over (DESIGN CHOICE, log 7). -/
def undefinedGroup (n now : Nat) (m : Memory) (g : Group) : Group :=
  let w := fun (i : Nat) => Config.freeWord (n + i)
  let fs := (List.range ((w 9).toNat % 33)).map (fun i => freeFibre (fun j => w (100 + 8 * i + j)) now g.width)
  let r := freeTrapRec (fun j => w (60 + j)) g.width
  let rets := (List.range g.width).map (fun l => freeRets (fun j => w (1000 + 16 * l + j)) m g l)
  let exited := freeMask (fun j => w (30 + j)) g.width
  let handler := (w 8).getLsbD 3
  { g with
    flags := (w 0).extractLsb' 0 5, trapen := (w 1).extractLsb' 0 5, scopeflag := (w 2).getLsbD 0, hintmiss := w 3, hEntry := (w 4).toNat,
    hMask := w 5, hShift := (w 6).toNat % 192, trapCount := (w 7).extractLsb' 0 16, armed := (w 8).getLsbD 0,
    held := if (w 8).getLsbD 1 then some (b2n ((w 8).getLsbD 2)) else none, hMode := handler,
    trec := r, cnt := (List.range 8).map (fun d => (w (20 + d)).toNat % 64), exited := exited,
    park := freePark (fun j => w (40 + j)), cur := if g.cur.isSome then fs.head? else none, fibres := if g.cur.isSome then fs.tail else fs,
    phase := if g.cur.isSome && fs.isEmpty then .asleep else g.phase,
    idle := fullMask g.width &&& ~~~(exited ||| contLanes g ||| fs.foldl (fun m f => m ||| f.pred) 0),
    trapped := if handler then some { pc := r.resume, pred := r.active, wbase := r.wbase, waitc := 0, wake := none, hnd := false, rem := g.trapped.bind Fibre.rem } else none,
    rets := rets, trapRets := if handler then rets else [] }

/-- Whether the image of a group stands in a save area as its CTXSAVE wrote it (R300). -/
def imageSound (s : State) (c : Ctx) (ua : Nat) (g : Group) : Bool := uniRd s c.part (ua + 256 + 9472 * g.idx) g.image.length == g.image

/-- R299: a saved context's groups given slots and made to run; their accesses held for pages are made from the die as it is now (R22) (DEDUCED, log 31). -/
def loadCtx (s : State) (c : Ctx) (ua : Nat) (slots : List SlotAt) : State :=
  let gs := (groupsOf s c.id).filter (fun g => !g.ended)
  let place := gs.zipIdx.zip slots
  let sound := gs.all (imageSound s c ua)
  let put := fun g : Group =>
    match place.find? (fun p => p.1.1.id == g.id) with
    | none => g
    | some p => { (if sound then g else undefinedGroup (s.fresh + 10000 * p.1.2) s.tick s.mem g) with slot := some p.2, halted := false }
  let s1 := modP (modCore s c.core (fun x => { x with free := x.free - c.evicted })) c.part (fun p => giveSpill p c.spill)
  fillSlices s (giveEntries { modC s1 c.id (fun c => { c with state := .running, evicted := 0, spill := [] }) with
    groups := s.groups.map put, fresh := s.fresh + 10000 * (gs.length + 1)
    ops := s.ops.map (fun o => if gs.any (fun g => g.id == o.g) then { o with inc := (dieAt s (coreDie c.core)).incarn } else o) } (gs.map Group.id)) (slots.take gs.length)

/-- R299: CTXLOAD; while it waits it is in progress on its context (R482). -/
def execCtxload (f : FormR) (s : State) : Out :=
  agentOp 0x96 f s (imagingMark true) (fun s g num => imagingEnd g num <|
    match ctxInStack s (stackOf s g) num with
    | none => some (s, 2)
    | some c =>
      if c.core != coreOf s g then some (s, 2)
      else if c.state != .saved then some (s, 1)
      else if c.faulted then some (s, 5)
      else match saveAt s c 1 with
        | none => some (s, 3)
        | some ua =>
          let gs := (groupsOf s c.id).filter (fun g => !g.ended)
          let slots := freeSlots s c.core
          if slots.length < gs.length then some (s, 4) else if saveHeld s c then none else match makeRoomFor s c.core c.evicted c.id with
            | none => some (s, 4)
            | some s1 => some (loadCtx s1 c ua slots, 0))

/-! ## HALT and PREQ (R302, R305) -/

/-- Whether a context is an agent's own. -/
def agentCtx (s : State) (ctx : Nat) : Bool := s.groups.any (fun g => g.ctx == ctx && g.agent)

/-- R302: a core fenced: every context on it is to be killed. -/
def fenceCore (s : State) (core : Nat) : State :=
  let gs := (s.ctxs.filter (fun c => c.core == core && c.state != .free && !agentCtx s c.id)).map Ctx.grid
  { modCore s core (fun c => { c with fenced := true }) with
    grids := s.grids.map (fun gr => if gs.contains gr.id then { gr with killDue := true } else gr) }

/-- R302: HALT (DEDUCED, log 33). -/
def execHalt (f : FormR) (s : State) : Out :=
  onceR s 0x97 f noSpec (fun s x c _ eff =>
    let y := onceDone x c f noSpec eff
    if f.ext.getLsbD 0 then .next (fenceCore (putGM s y) (coreOf s x.g))
    else .next (putGM s { y with g := parkAt y.g (.agentIdle (s.tick + 65536)) f.gd.sw }))

/-- R302: HALT_IDLE_WAKE: an event for the core's agent, or its time, ends the wait (DEDUCED, log 33). -/
def execHaltIdleWake (core : Nat) (s : State) : Out :=
  let ev := (coreAt s core).agent.event
  let due : Group → Bool := fun g => match g.park with
    | .agentIdle t => g.agent && coreOf s g == core && (ev || decide (t ≤ s.tick))
    | _ => false
  .next (if s.groups.any due then
      { modCore s core (fun c => { c with agent := { c.agent with event := false } }) with groups := s.groups.map (fun g => if due g then unpark g else g) }
    else s)

/-- How PREQ reads A and writes D. -/
def preqSpec : LaneSpec := ⟨.val .z32, .no, .no, .val 1, 4⟩

/-- R305: a request on a context: the state after it and the status. -/
def preqDo (s : State) (c : Ctx) (kill : Bool) : State × Nat :=
  if kill then
    if c.state == .killing then (s, 1) else (modGrid s c.grid (fun gr => { gr with killDue := true }), 0)
  else if c.state == .running then (modC s c.id (fun c => { c with haltReq := true, saveReq := true }), 0)
  else (s, 1)

/-- R305: PREQ. -/
def execPreq (f : FormR) (s : State) : Out :=
  onceR s 0x98 f preqSpec (fun s x0 c _ eff =>
    let x := touchSrc x0 f preqSpec
    let num := rdOpd x f.a .z32 ((lowLane eff).getD 0)
    let r := match ctxInStack s (stackOf s x.g) num with
      | none => (s, 2)
      | some k => preqDo s k (f.ext.getLsbD 0)
    let pos := x.g.pos
    .next (putGM r.1 (onceDone (schedAll x pos 4 f 1 eff r.2) c f preqSpec eff)))

end Sys2Proof.Machine
end

