-- ==== Sys2Proof/Machine/Barrier.lean ====
section
/-! DEFINITION. Sys2Proof/Machine/Barrier.lean: barrier objects, waits on phases and on memory, continuations, and the team, stack and grid barriers (R308-R329). -/

namespace Sys2Proof.Machine

/-! ## The object (R308, R310) -/

/-- The 32 bytes of an object, as a number. -/
def objRd (s : State) (k : Nat) : Nat := memRdV s.mem k 32

/-- PHASE. -/
def objPhase (o : Nat) : Nat := bits o 31 0
/-- INIT. -/
def objInit (o : Nat) : Bool := bit o 178
/-- CHEAD. -/
def objChead (o : Nat) : Nat := bits o 207 192

/-- An object as the barrier unit writes it: its fields, the reserved ones 0 (R6, R308) (DEDUCED, log 91). -/
def objPack (phase expa penda pendb expb errcnt : Nat) (err over' init : Bool) (chead : Nat) : Nat :=
  phase % 2 ^ 32 + expa % 2 ^ 16 * 2 ^ 32 + penda % 2 ^ 16 * 2 ^ 48 + pendb % 2 ^ 48 * 2 ^ 64 + expb % 2 ^ 48 * 2 ^ 112 + errcnt % 2 ^ 16 * 2 ^ 160 +
    b2n err * 2 ^ 176 + b2n over' * 2 ^ 177 + b2n init * 2 ^ 178 + chead % 2 ^ 16 * 2 ^ 192

/-- R310: an update of an object: its new bytes, the phase in which it counted, and whether that phase completed. -/
def objApply (o : Nat) (u : UpdItem) : Nat × Nat × Bool :=
  let ph := objPhase o
  let expa := bits o 47 32
  let penda := bits o 63 48
  let expb := bits o 159 112
  let err0 := if u.clr then false else bit o 176
  let over0 := if u.clr then false else bit o 177
  let cnt0 := if u.clr then 0 else bits o 175 160
  let over1 := over0 || (u.a && penda == 0)
  let penda1 := if u.a then penda - 1 else penda
  let pendb1 := wrap ((bits o 111 64 : Int) + u.e - u.c) 48
  let err1 := err0 || u.err
  let cnt1 := min (cnt0 + u.z) 0xFFFF
  let fin := objInit o && penda1 == 0 && pendb1 == 0
  if fin then (objPack (ph + 1) expa expa expb expb cnt1 err1 over1 true 0, ph, true)
  else (objPack ph expa penda1 pendb1 expb cnt1 err1 over1 (objInit o) (objChead o), ph, false)

/-- R320: the chain walked from its head: each record leaves its group's registered ones and fires in turn; a head that names no registered record ends the walk (DEDUCED, log 84). -/
def fireChain : Nat → State → Nat → Nat → State
  | 0, s, _, _ => s
  | n + 1, s, team, head =>
    if head = 0 then s
    else match s.groups.find? (fun g => g.team == team && g.idx + 1 == head / 256 && !g.left) with
      | none => s
      | some g =>
        match g.conts.find? (fun k => k.idx == head % 256) with
        | none => s
        | some k => fireChain n (modG s g.id (fun g => { g with conts := g.conts.erase k, firing := g.firing ++ [k] })) team k.prev

/-- Records of a team's groups: a bound on a chain. -/
def contCount (s : State) : Nat := (s.groups.map (fun g => g.conts.length)).foldl (· + ·) 0

/-- The team whose scratchpad holds an object. -/
def teamOfCtx (s : State) (ctx : Nat) : Nat := ((getC s ctx).map Ctx.team).getD 0

/-- The word under which an object's release updates are kept (R328; the model's own). -/
def objRelWord (k : Nat) : Nat := 2 ^ 200 + k

/-- An update of an object recorded: the last strong write of its words (R138), and, where it releases, one of those that a later wait on the object synchronises with (R328). -/
def noteStrong (s : State) (k n : Nat) (r : StrongRec) : State :=
  let s1 := if r.scope == .grp then s else recordStrong s (.pool k) n r
  if r.view.isEmpty then s1 else { s1 with strong := { r with word := objRelWord k } :: s1.strong }

/-- R310: an update performed at its object; the phase it counted in. -/
def objUpdate (s : State) (ctx k : Nat) (u : UpdItem) (src : StrongRec) : State × Nat :=
  let o := objRd s k
  let r := objApply o u
  let s1 := noteStrong (poolWr s k (leBytes 32 r.1)) k 32 src
  (if r.2.2 then fireChain (contCount s1) s1 (teamOfCtx s1 ctx) (objChead o) else s1, r.2.1)

/-- The number by which an engine's work stands where a group's would (R124). -/
def engineGroup (id : Nat) : Nat := 2 ^ 40 + id

/-- An engine's party: of no group; outside the team where its level is the device, of no partition where it is the fabric (R124). -/
def engineParty (s : State) (lvl : EngLevel) (id team ctx part : Nat) (sc : Scope) : StrongRec :=
  { word := 0, group := engineGroup id, team := if lvl = .team then team else engineGroup id,
    stack := if lvl = .team then coreOfCtx s ctx / Config.coresPerStack else engineGroup id,
    part := if lvl = .fab then part + outsideBase * engineGroup id else part, scope := sc,
    view := fullView s (engineNo id), vscope := sc }

/-- R138: a wait that acquires meets the last strong write of a word under DROP. -/
def acquireNote (s : State) (g : Group) (sc : Scope) (k : Nat) : State :=
  if mismatch s (partyOf s g sc) true true (.pool k) 4 then
    modG s g.id (fun g => { g with scopeflag := true })
  else s

/-- R328: a wait on an object synchronises with the release updates that count for it. -/
def learnObj (s : State) (g : Group) (sc : Scope) (k : Nat) (eff : Mask) : State :=
  let rs := syncWith (partyOf s g sc) (s.strong.filter (fun r => r.word == objRelWord k))
  learnLanes s g.id (lanesOf eff) (rs.foldl (fun v r => viewJoin v r.view) [])

/-! ## Checks of an object pointer (R117, R309) -/

/-- A check's answer for one object pointer. -/
inductive ObjChk where
  | go (ptr key : Nat)
  | wait (p : Park)
  | trap (cause : Cause) (sub : Nat) (addr : Nat)
  deriving DecidableEq, Repr

/-- A checked pointer as an object: its space, then its alignment. -/
def objPlace (q n : Nat) (r : PtrRes) : ObjChk :=
  match r with
  | .missObj k => .wait (.objMiss k)
  | .missRegion k => .wait (.regionMiss k)
  | .bad => .trap .capability 0 q
  | .ok (.pool k) =>
    if !(ptrSpace q == 2 || ptrSpace q == 3) then .trap .engineReq 1 q
    else if ptrOff q % n != 0 then .trap .misalignedAtomic 0 q
    else .go q k
  | .ok _ => .trap .engineReq 1 q

/-- The object at a lane's pointer and displacement (R309) (DEDUCED, log 17). -/
def objChk (s : State) (x : GM) (f : FormM) (l : Nat) : ObjChk :=
  match laneAddr x f l with
  | (p, none) => .trap .capability 0 p
  | (_, some q) => objPlace q 32 (checkPtr s x.g q (sizeBytes f) 0 true)

/-- Whether an earlier access of a lane of the group to some bytes is not yet performed (R129). -/
def earlierAt (s : State) (g : Nat) (lanes : Mask) (l : Loc) (n : Nat) : Bool :=
  s.ops.any (fun o => o.g == g && isAccess o.kind && o.lanes.any (fun y => !laneOver y && (lanesOf lanes).any (fun i => standsFor o y i) && locOverlap l n y.loc o.size))

/-- Whether an earlier access of some lanes is not yet performed, or an acquire not returned (R136). -/
def earlierAny (s : State) (g : Nat) (lanes : Mask) : Bool :=
  s.ops.any (fun o => o.g == g && isAccess o.kind && o.lanes.any (fun y => !laneOver y && (lanesOf lanes).any (fun i => standsFor o y i)))

/-- A refusal or trap for an instruction named by one pointer: 0x13 records the pointer of the lowest lane (R309) (DEDUCED, log 17). -/
def objTrap (s : State) (x : GM) (c : Clause) (word : W64) (eff : Mask) (cause : Cause) (sub a : Nat) : Out :=
  trapOut (putGM s x) x.g c word cause sub eff (BitVec.ofNat 64 a)

/-! ## BINIT, BARV, BEXP (R315-R317) -/

/-- Whether a parked wait with a table entry, or a continuation record, of a team names an object (R309). -/
def objNamed (s : State) (team k : Nat) : Bool :=
  s.groups.any (fun g => g.team == team &&
    ((g.waitEntry && (match g.park with
      | .bwait o _ _ _ _ _ => o == k
      | .awaitPhase o _ _ _ _ _ _ => o == k
      | _ => false)) || g.conts.any (fun r => r.obj == k)))

/-- The context whose scratchpad holds a pool key. -/
def ctxOfObj (s : State) (k : Nat) : Nat := ((s.ctxs.find? (fun c => decide (scrKey c.id 0 ≤ k) && decide (k < scrKey c.id (2 ^ 32)))).map Ctx.id).getD 0

/-- Whether the pool image of a context is on its core and no veer pauses it: else updates of its objects are held (R329). -/
def imageHere (s : State) (ctx : Nat) : Bool :=
  match getC s ctx with
  | some c => c.evicted == 0 && !(coreAt s c.core).paused
  | none => true

/-- An object made new: no earlier release counts for it (R315). -/
def forgetObj (s : State) (k : Nat) : State := { s with strong := s.strong.filter (fun r => r.word != objRelWord k) }

/-- R315: BINIT, performed at its object before the group goes on (DESIGN CHOICE, log 29). -/
def execBinit (f : FormM) (s : State) : Out :=
  memIssue s 0xA0 f 2 2 0 (fun s x c word eff =>
    let l := (lowLane eff).getD 0
    let b := rdOpd x f.b .z64 l
    match objChk s x f l with
    | .wait p => stallOut s x.g p
    | .trap cause sub a => objTrap s x c word eff cause sub a
    | .go q k =>
      if b % 65536 = 0 || 2 ^ 47 ≤ b / 65536 then objTrap s x c word eff .engineReq 5 q
      else if earlierAt s x.g.id eff (.pool k) 32 || !imageHere s (ctxOfObj s k) then stallOut s x.g .stall
      else if objNamed s x.g.team k then objTrap s x c word eff .engineReq 2 q
      else .next (poolWr (forgetObj (putGM s (memDone x c f 2 eff)) k) k
        (leBytes 32 (objPack 0 (b % 65536) (b % 65536) (b / 65536) (b / 65536) 0 false false true 0))))

/-- The checks of several lanes: what must be fetched, then traps by cause (R117 first, then R309) (DEDUCED, log 17). -/
def objChks (cs : List (Nat × ObjChk)) : ObjChk :=
  let trapOf := fun (p : Cause → Bool) => cs.findSome? (fun c => match c.2 with
    | .trap cause sub a => if p cause then some (ObjChk.trap cause sub a) else none
    | _ => none)
  match cs.findSome? (fun c => match c.2 with
      | .wait p => some (ObjChk.wait p)
      | _ => none) with
  | some r => r
  | none => ((trapOf (· == .capability)).or ((trapOf (· == .engineReq)).or (trapOf (fun _ => true)))).getD (.go 0 0)

/-- A lane's object once checked. -/
def objAt (cs : List (Nat × ObjChk)) : List LaneAt :=
  cs.filterMap (fun c => match c.2 with
    | .go q k => some ⟨c.1, q, .pool k⟩
    | _ => none)

/-- BARV and BEXP issued: updates sent, one for each checked lane; the counter is d2 (R316, R317) (DEDUCED, log 30). -/
def updLaunch (s : State) (x : GM) (c : Clause) (f : FormM) (nB : Nat) (eff : Mask) (word : W64) (ats : List LaneAt) (item : GM → Nat → UpdItem) : State :=
  let l0 := (lowLane eff).getD 0
  let o := { opOfM x f s.nextId 2 (.bar (ats.length == 1 && eff != oneLane l0)) (ats.map (fun a => laneOp a [])) eff word with size := 32 }
  let us := ats.zipIdx.map (fun a =>
    ({ id := s.nextId + 1 + a.2, obj := (match a.1.loc with
        | .pool k => k
        | _ => 0), ctx := 0, item := item x a.1.lane, reply := some (s.nextId, a.1.lane), src := partyOf s x.g f.scope } : Upd))
  let s1 := addOp { putGM s (memDone x c f nB eff) with nextId := s.nextId + 1 + us.length } o
  { s1 with upds := s1.upds ++ us.map (fun u => { u with ctx := ctxOfObj s u.obj }) }

/-- BARV and BEXP: the objects of the lanes listed checked, then their updates sent (DEDUCED, log 30). -/
def updIssue (op : Nat) (f : FormM) (nB : Nat) (ls : Mask → List Nat) (item : GM → Nat → UpdItem) (s : State) : Out :=
  memIssue s op f 2 nB 1 (fun s x c word eff =>
    let l0 := (lowLane eff).getD 0
    let cs := (ls eff).map (fun l => (l, objChk s x f l))
    match objChks cs with
    | .wait p => stallOut s x.g p
    | .trap cause sub a => objTrap s x c word eff cause sub (if cause = .engineReq then ((laneAddr x f l0).2.getD a) else a)
    | .go _ _ =>
      if 2 ^ 47 ≤ (item x l0).e then objTrap s x c word eff .engineReq 5 ((laneAddr x f l0).2.getD 0)
      else if cntOf x.g 2 == 63 then stallOut s x.g .stall
      else .next (updLaunch s x c f nB eff word (objAt cs) item))

/-- R316: BARV. -/
def execBarv (f : FormM) (s : State) : Out :=
  updIssue 0xA1 f 0 (fun eff => if f.sub.getLsbD 0 then lanesOf eff else (lanesOf eff).take 1) (fun _ _ => ⟨true, 0, 0, false, 0, false⟩) s

/-- R317: BEXP. -/
def execBexp (f : FormM) (s : State) : Out :=
  updIssue 0xA2 f 2 (fun eff => (lanesOf eff).take 1)
    (fun x l => ⟨f.sub.getLsbD 0, rdOpd x f.b .z64 l, 0, false, 0, f.sub.getLsbD 1⟩) s

/-- The lanes whose earlier accesses an arrival or expectation of a lane releases: every effective lane where the instruction makes one update, else the update's own (R316, R328) (DEDUCED, log 83). -/
def updLanes (o : Op) (lane : Nat) : List Nat := if o.lanes.length = 1 then lanesOf o.eff else [lane]

/-- Whether an update may be applied: its object's pool image is there, and the accesses it comes after are performed (R136, R329). -/
def updDue (s : State) (u : Upd) : Bool :=
  imageHere s u.ctx &&
  (match u.reply with
    | none => true
    | some (op, lane) => match getOp s op with
      | none => true
      | some o => match o.lanes.find? (fun y => y.lane == lane) with
        | none => true
        | some y => orderFree s o y && !(relOrder o.order && lanesBehind s o.g o.id (updLanes o lane)))

/-- R310: BARRIER_UPDATE: one update applied; an arrival or expectation of a lane answers with its phase (R316) (DEDUCED, log 30). -/
def execBarrierUpdate (upd : Nat) (s : State) : Out :=
  match s.upds.find? (fun u => u.id == upd) with
  | none => .next s
  | some u =>
    if !updDue s u then .next s
    else
      let s0 := { s with upds := s.upds.filter (fun v => v.id != upd), colls := s.colls.filter (fun c => !(c.sent && u.src.group == engineGroup c.id)) }
      match u.reply.bind (fun r => (getOp s r.1).map (fun o => (o, r.2))) with
      | none => .next (objUpdate s0 u.ctx u.obj u.item u.src).1
      | some (o, lane) =>
        let s1 := match getG s0 o.g with
          | some g => performStart s0 g o
          | none => s0
        let src := if relOrder o.order then { u.src with view := lanesView s1 o.g (updLanes o lane) } else u.src
        let s1 := if relOrder o.order then (updLanes o lane).foldl (fun s l => noteOut s o.g l o.id src) s1 else s1
        let r := objUpdate s1 u.ctx u.obj u.item src
        let s2 := returnValue r.1 o lane [BitVec.ofNat 32 r.2]
        .next (opEnd (setLane s2 o.id lane (fun y => { y with st := .performed })) o.id)

/-! ## Waiting on a phase (R318, R321, R326) -/

/-- R318: whether PHASE has passed p. -/
def phasePast (phase p : Nat) : Bool :=
  let d := wrap ((phase : Int) - p) 32
  decide (1 ≤ d) && decide (d < 2 ^ 31)

/-- R321: whether PHASE has reached a target. -/
def phaseReached (phase t : Nat) : Bool := decide (wrap ((phase : Int) - t) 32 < 2 ^ 31)

/-- Words for every effective lane, or once to a scalar. -/
def putAll (x : GM) (d : Dst) (eff : Mask) (ws : List W32) : GM :=
  putDst x d (match d with
    | .scal _ => [(0, ws)]
    | .vec _ _ | .none => (lanesOf eff).map (fun l => (l, ws)))

/-- A wait over: D written, and the group goes on. -/
def wakeWith (s : State) (gid : Nat) (d : Dst) (eff : Mask) (ws : List W32) : State :=
  modGM s gid (fun x =>
    let x := putAll x d eff ws
    { x with g := { unpark x.g with waitEntry := false } })

/-- A phase wait that holds: the acquire at its scope, then D, a pair where wide (R318, R328). -/
def phaseWake (s : State) (g : Group) (k : Nat) (d : Dst) (eff : Mask) (sc : Scope) (wide : Bool) : State :=
  let s := learnObj (acquireNote s g sc k) g sc k eff
  let s := if wideScope sc then acquireAct s g else s
  wakeWith s g.id d eff (BitVec.ofNat 32 (objPhase (objRd s k)) :: (if wide then [0] else []))

/-- A phase wait at its checked object: park, unless the condition holds at the first read (R318, R321). park carries the wait. -/
def phaseGo (s : State) (x : GM) (c : Clause) (word : W64) (eff : Mask) (f : FormM) (nB : Nat) (q k : Nat)
    (park : Nat → W64 → W32 → Dst → Mask → Park) (ok : Nat → Nat → Bool) (wide : Bool) : Out :=
  if earlierAt s x.g.id eff (.pool k) 32 then stallOut s x.g .stall
  else if !objInit (objRd s k) then objTrap s x c word eff .engineReq 3 q
  else
    let p := rdOpd x f.b .z32 ((lowLane eff).getD 0)
    let d := dstOf x.g f.d f.sn
    let s1 := parkWait (putGM s (memDone x c f nB eff)) x.g.id (park k (BitVec.ofNat 64 q) (BitVec.ofNat 32 p) d eff) f.gd.sw
    .next (if ok (objPhase (objRd s k)) p then phaseWake s1 x.g k d eff f.scope wide else s1)

/-- BWAIT, and what AWAIT shares with it. -/
def phaseWait (op : Nat) (f : FormM) (park : Nat → W64 → W32 → Dst → Mask → Park) (ok : Nat → Nat → Bool) (s : State) : Out :=
  memIssue s op f 2 1 1 (fun s x c word eff =>
    match objChk s x f ((lowLane eff).getD 0) with
    | .wait p => stallOut s x.g p
    | .trap cause sub a => objTrap s x c word eff cause sub a
    | .go q k => phaseGo s x c word eff f 1 q k park ok false)

/-- R318: BWAIT (DESIGN CHOICE, log 29). -/
def execBwait (f : FormM) (s : State) : Out :=
  phaseWait 0xA3 f (fun k q p d eff => .bwait k q p d eff f.scope) phasePast s

/-- A parked phase wait tested (R318, R321). -/
def phaseTest (s : State) (g : Group) : State :=
  match g.park with
  | .bwait k _ p d eff sc => if phasePast (objPhase (objRd s k)) p.toNat then phaseWake s g k d eff sc false else s
  | .awaitPhase k _ t d eff sc wide => if phaseReached (objPhase (objRd s k)) t.toNat then phaseWake s g k d eff sc wide else s
  | _ => s

/-- R318: PHASE_WAITER_WAKE: a waiter with a table entry whose phase is past goes on. -/
def execPhaseWaiterWake (gid : Nat) (s : State) : Out :=
  match getG s gid with
  | none => .next s
  | some g => .next (if g.waitEntry && !g.halted then phaseTest s g else s)

/-! ## Continuations (R319, R320) -/

/-- R319: BCONT's pointer operand. -/
def bcontOpnd (f : FormJ) : Opd := (opdOf f.opd.toNat).getD .zero

/-- The highest-numbered unused record of a group's fibre segment (R319); one that has fired is unused from then on (DEDUCED, log 85). -/
def freeRecord (g : Group) : Nat := (((List.range g.width).reverse).find? (fun i => !(g.conts.any (fun k => k.idx == i)))).getD 0

/-- R319: the lanes registered: they leave the issuing fibre, the record is linked at the chain's head. -/
def register (s : State) (g : Group) (k target : Nat) (eff : Mask) : State :=
  let o := objRd s k
  let i := freeRecord g
  let r : ContRec := { idx := i, pred := eff, pc := target, wbase := wbaseOf g, prev := objChead o, obj := k, hnd := (g.cur.map Fibre.hnd).getD false }
  let s := poolWr s (k + 24) (leBytes 2 ((g.idx + 1) * 256 + i))
  modG s g.id (fun g => { g with conts := r :: g.conts, cur := g.cur.map (fun f => { f with pred := f.pred &&& ~~~eff }) })

/-- R319: BCONT, performed as one update before the group goes on (DESIGN CHOICE, log 29). -/
def execBcont (f : FormJ) (s : State) : Out :=
  jIssue 0xA4 f s (fun s x0 c word eff t =>
    let o := bcontOpnd f
    let l := (lowLane eff).getD 0
    match frameFail x0.g [(o, 2)] with
    | some r => frameOut s x0.g c f.gd word r
    | none =>
      let x := (opdRegs x0.g o 2).foldl (fun x r => touchReg x true r) x0
      let q := rdOpd x o .b64 l
      match objPlace q 32 (checkPtr s x.g q 32 0 true) with
      | .wait p => stallOut s x.g p
      | .trap cause sub a => objTrap s x c word eff cause sub a
      | .go q k =>
        if !(decide (scrKey x.g.ctx 0 ≤ k) && decide (k < scrKey x.g.ctx (2 ^ 32))) then objTrap s x c word eff .engineReq 4 q
        else if (if f.cn then earlierAny s x.g.id eff else earlierAt s x.g.id eff (.pool k) 32) then stallOut s x.g .stall
        else if !objInit (objRd s k) then objTrap s x c word eff .engineReq 3 q
        else
          let s1 := putGM s { x with g := advance (bump x (posCount x.g (issuedPasses x.g eff))).g c f.gd.sw }
          let s2 := if f.cn then releaseAct s1 x.g else s1
          let s3 := register s2 x.g k t eff
          .next (if f.cn then (objUpdate s3 x.g.ctx k ⟨true, 0, 0, false, 0, false⟩ { partyOf s3 x.g .team with view := lanesView s3 x.g.id (lanesOf eff) }).1 else s3))

/-- R320: CONTINUATION_FIRE: a group's next fired record becomes a live fibre, after an acquire at team scope. -/
def execContinuationFire (gid : Nat) (s : State) : Out :=
  match getG s gid with
  | none => .next s
  | some g =>
    match g.firing with
    | [] => .next s
    | k :: rest =>
      let f : Fibre := { pc := k.pc, pred := k.pred, wbase := k.wbase, waitc := 0, wake := none, hnd := k.hnd && g.hMode, rem := none }
      .next (modG (learnObj (acquireAct s g) g .team k.obj k.pred) gid (fun g => { g with
        firing := rest, fibres := g.fibres ++ [f], phase := if g.phase = .asleep then .boundary false false else g.phase }))

/-! ## WATCH and PAUSE (R322, R323) -/

/-- The 64-byte line of a place. -/
def watchLoc (l : Loc) : Loc :=
  match l with
  | .pool k => .pool (k / 64 * 64)
  | .uni p ua => .uni p (ua / 64 * 64)
  | .lat p r o => .lat p r o
  | .peer m o f => .peer m o f
  | .mcast m o f => .mcast m o f

/-- R322: WATCH. -/
def execWatch (f : FormM) (s : State) : Out :=
  memIssue s 0xA6 f 2 0 0 (fun s x c word eff =>
    let l := (lowLane eff).getD 0
    match laneAddr x f l with
    | (p, none) => objTrap s x c word eff .capability 0 p
    | (_, some q) =>
      match checkPtr s x.g q (sizeBytes f) (if ptrSpace q == 1 then 1 else 0) true with
      | .missObj k => stallOut s x.g (.objMiss k)
      | .missRegion k => stallOut s x.g (.regionMiss k)
      | .bad => objTrap s x c word eff .capability 0 q
      | .ok loc =>
        if !(ptrSpace q == 1 || ptrSpace q == 8 || ptrSpace q == 2 || ptrSpace q == 3) then objTrap s x c word eff .engineReq 1 q
        else if cntOf x.g 0 == 63 then stallOut s x.g .stall
        else .next (addOp { putGM s (memDone x c f 0 eff) with nextId := s.nextId + 1 }
          { id := s.nextId, g := x.g.id, kind := .watch, ctr := 0, lanes := [laneOp ⟨l, q, watchLoc loc⟩ []], dst := .none, eff := eff, size := 1,
            hold := false, order := .rlx, scope := .grp, word := word, mate := none, inc := 0, absent := false }))

/-- The watch point of a place and the entries it has (R322): an L2 slice of a half, half A's for a granule in a host frame (DEDUCED, log 86), or the core of a scratchpad's bank. -/
def watchPoint (s : State) (l : Loc) : Nat × Nat :=
  match l with
  | .pool k => (96 + ((s.ctxs.find? (fun c => scrKey c.id 0 / 2 ^ 64 == k / 2 ^ 64)).map Ctx.core).getD 0, 16)
  | .uni p ua => (match (granAt (partAt s p) (ua / 4096)).state with
      | .hbm k => hbmHalf k * 48 + ua / 128 % 48
      | .tier2 h => h * 48 + ua / 128 % 48
      | .none | .host _ => ua / 128 % 48, 64)
  | .lat _ _ _ | .peer _ _ _ | .mcast _ _ _ => (0, 0)

/-- The oldest watch of a list. -/
def oldestWatch : List (Nat × Watch) → Option (Nat × Watch)
  | [] => none
  | w :: ws =>
    match oldestWatch ws with
    | none => some w
    | some v => if v.2.stamp < w.2.stamp then some v else some w

/-- R322: a watch armed at its point; where that is full the oldest there is evicted. A watch already triggered holds no entry (DESIGN CHOICE, log 98). -/
def armWatch (s : State) (g : Nat) (l : Loc) (ptr : W64) : State :=
  let pt := watchPoint s l
  let there := s.groups.filterMap (fun h => match h.watch with
    | some w => if h.id != g && w.armed && w.trig.isNone && watchPoint s w.loc == pt then some (h.id, w) else none
    | none => none)
  let s := if pt.2 ≤ there.length then (match oldestWatch there with
      | some v => modG s v.1 (fun h => { h with watch := h.watch.map (fun w => { w with trig := some 1 }) })
      | none => s) else s
  modG s g (fun h => { h with watch := some { loc := l, ptr := ptr, armed := true, trig := none, stamp := s.fresh } })

/-- R322: a WATCH that reaches its watch point arms the group's watch. -/
def watchDone (s : State) (o : Op) : State :=
  match o.lanes with
  | [] => opEnd s o.id
  | x :: _ =>
    let ready := match x.loc with
      | .uni p ua => (match pathReach s (opSrc s o) p ua 1 with
        | .ready | .host => true
        | .held | .page _ => false)
      | _ => true
    if x.st == .sent && ready then opEnd (setLane (armWatch s o.g x.loc x.ptr) o.id x.lane (fun x => { x with st := .performed })) o.id else s

/-- How PAUSE reads A and writes D. -/
def pauseSpec : LaneSpec := ⟨.val .z32, .no, .no, .val 1, 0⟩

/-- R323: a PAUSE returns with a reason; the watch is disarmed. -/
def pauseEnd (s : State) (gid : Nat) (d : Dst) (eff : Mask) (reason : Nat) : State :=
  modG (wakeWith s gid d eff [BitVec.ofNat 32 reason]) gid (fun g => { g with watch := none })

/-- R323: PAUSE. -/
def execPause (f : FormR) (s : State) : Out :=
  onceR s 0xA7 f pauseSpec (fun s x0 c _ eff =>
    let x := touchSrc x0 f a32Spec
    let a := rdOpd x f.a .z32 ((lowLane eff).getD 0)
    let d := dstOf x.g f.d f.sn
    let t := if a = 0 then 65536 else min a 65536
    let s1 := parkWait (putGM s (onceDone x c f a32Spec eff)) x.g.id (.pause (s.tick + t) d eff) f.gd.sw
    match x.g.watch with
    | some w => .next (match w.armed, w.trig with
        | true, some r => pauseEnd s1 x.g.id d eff r
        | true, none => s1
        | false, _ => pauseEnd s1 x.g.id d eff 5)
    | none => .next (pauseEnd s1 x.g.id d eff 5))

/-- R323: a triggered PAUSE. -/
def pauseTest (s : State) (g : Group) : State :=
  match g.park, g.watch.bind Watch.trig with
  | .pause _ d eff, some r => pauseEnd s g.id d eff r
  | _, _ => s

/-- R323: PAUSE_WAKE. -/
def execPauseWake (gid : Nat) (s : State) : Out :=
  match getG s gid with
  | none => .next s
  | some g => .next (if g.waitEntry && !g.halted then pauseTest s g else s)

/-- R323: PAUSE_TIMEOUT. -/
def execPauseTimeout (gid : Nat) (s : State) : Out :=
  match getG s gid with
  | none => .next s
  | some g =>
    match g.park with
    | .pause t d eff => .next (if t ≤ s.tick && !g.halted && (g.watch.bind Watch.trig).isNone then pauseEnd s gid d eff 4 else s)
    | _ => .next s

/-! ## Team, stack and grid barriers (R324, R325) -/

/-- A group's arrival at a barrier: it parks at the instance its team is at. -/
def barArrive (op : Nat) (f : FormR) (inst : Team → Nat) (arrive : Team → Nat → Team) (park : Nat → Park) (s : State) : Out :=
  onceR s op f noSpec (fun s x c _ eff =>
    let i := ((getT s x.g.team).map inst).getD 0
    let s1 := parkWait (putGM s (onceDone x c f noSpec eff)) x.g.id (park i) f.gd.sw
    .next (modT s1 x.g.team (fun t => arrive t x.g.id)))

/-- R324: TBAR. -/
def execTbar (f : FormR) (s : State) : Out :=
  barArrive 0xA8 f Team.tInst (fun t g => { t with tArr := t.tArr ++ [g] }) .tbar s
/-- R324: SBAR. -/
def execSbar (f : FormR) (s : State) : Out :=
  barArrive 0xA9 f Team.sInst (fun t g => { t with sArr := t.sArr ++ [g] }) .sbar s
/-- R324: GBAR. -/
def execGbar (f : FormR) (s : State) : Out :=
  barArrive 0xAA f Team.gInst (fun t g => { t with gArr := t.gArr ++ [g] }) .gbar s

/-- The groups of a team that have not ended. -/
def liveGroups (s : State) (team : Nat) : List Group := s.groups.filter (fun g => g.team == team && !g.ended && !g.left)

/-- Whether a team has arrived, or has ended (R324), and its groups' earlier accesses are performed (R136). -/
def teamArrived (s : State) (t : Team) (arr : List Nat) : Bool :=
  t.ended || ((liveGroups s t.id).all (fun g => arr.contains g.id) && arr.all (fun g => !earlierAny s g (BitVec.allOnes 128)))

/-- The releases of all arrivals of an instance at its scope, and what each of their lanes, and its later commands, then know (R145, R324, R328). -/
def barMeet (s : State) (sc : Scope) (gs : List Nat) : State :=
  let s := gs.foldl (fun s i => match getG s i with
    | some g => releaseAct s g
    | none => s) s
  let lanes := gs.flatMap (fun i => match getG s i with
    | some g => (List.range g.width).map (fun l => (i, l))
    | none => [])
  let v := lanes.foldl (fun v x => viewJoin v (fullView s (laneParty x.1 x.2))) []
  let note := fun (s : State) (i l : Nat) => match getG s i with
    | some g => if v.isEmpty then s else noteOut s i l s.nextId { partyOf s g sc with view := v }
    | none => s
  lanes.foldl (fun s x => note (learn s (laneParty x.1 x.2) v) x.1 x.2) s

/-- Groups released from a barrier: their acquires, then they go on (R324, R328) (DESIGN CHOICE, log 80). -/
def barGo (s : State) (gs : List Nat) : State :=
  let s := gs.foldl (fun s i => match getG s i with
    | some g => acquireAct s g
    | none => s) s
  gs.foldl (fun s i => modG s i (fun g => { unpark g with waitEntry := false })) s

/-- An instance whose groups are all released at its completion. -/
def barRelease (s : State) (sc : Scope) (gs : List Nat) : State := barGo (barMeet s sc gs) gs

/-- The teams of a grid, of one share or all. -/
def teamsOf (s : State) (grid : Nat) (share : Option Nat) : List Team :=
  s.teams.filter (fun t => t.grid == grid && (share == none || share == some t.share))

/-- R324: a team barrier's instance completes. -/
def teamBarrier (s : State) (team : Nat) : State :=
  match getT s team with
  | none => s
  | some t =>
    if !t.tArr.isEmpty && !t.ended && teamArrived s t t.tArr then
      modT (barRelease s .team t.tArr) team (fun t => { t with tInst := t.tInst + 1, tArr := [] })
    else s

/-- R324: a stack share's instance completes once every team of the grid is bound and every team of the share has arrived or ended. -/
def stackBarrier (s : State) (grid share : Nat) : State :=
  match getGrid s grid with
  | none => s
  | some gr =>
    let ts := teamsOf s grid (some share)
    if gr.bound == gr.lr.teams && ts.all (fun t => teamArrived s t t.sArr) && ts.any (fun t => !t.sArr.isEmpty) then
      let s := barRelease s .stk (ts.flatMap Team.sArr)
      let s := { s with teams := s.teams.map (fun t => if t.grid = grid ∧ t.share = share then { t with sInst := t.sInst + 1, sArr := [] } else t) }
      modGrid s grid (fun gr => { gr with sDone := gr.sDone.modify share (· + 1) })
    else s

/-- R325: the wave of a team. -/
def waveOf (gu : Gust) (n t : Nat) : Nat := if n ≤ gu.w then 0 else ((t + n - gu.c % n) % n) / gu.w

/-- R325: the teams of one wave released, every arrival having been released at the completion (R328); the gust ends with its last team. -/
def releaseWave (s : State) (grid : Nat) (gu : Gust) (n : Nat) : State :=
  let ts := (teamsOf s grid none).filter (fun t => t.gDone && waveOf gu n t.idx == gu.wave)
  let s := barGo s (ts.flatMap Team.gArr)
  let s := { s with teams := s.teams.map (fun t => if ts.any (fun u => u.id == t.id) then { t with gInst := t.gInst + 1, gArr := [], gDone := false } else t) }
  let more := (teamsOf s grid none).any Team.gDone
  modGrid s grid (fun gr => { gr with gust := if more then some { gu with wave := gu.wave + 1 } else none })

/-- R324, R325: a grid's instance completes; its first wave is released. -/
def gridBarrier (s : State) (grid : Nat) : State :=
  match getGrid s grid with
  | none => s
  | some gr =>
    let ts := teamsOf s grid none
    if gr.gust.isNone && ts.length == gr.lr.teams && ts.all (fun t => teamArrived s t t.gArr) && ts.any (fun t => !t.gArr.isEmpty) then
      let p := partAt s gr.part
      let gu : Gust := { start := s.tick, wave := 0, w := p.wave, gap := p.gap, c := gr.gDone }
      let s := barMeet s .dev (ts.flatMap Team.gArr)
      let s := { s with teams := s.teams.map (fun t => if t.grid = grid ∧ !t.gArr.isEmpty then { t with gDone := true } else t) }
      releaseWave (modGrid s grid (fun gr => { gr with gDone := gr.gDone + 1 })) grid gu gr.lr.teams
    else s

/-- R324: BARRIER_INSTANCE_COMPLETE; id is the team's, or the grid's. -/
def execBarrierInstanceComplete (kind : BarKind) (id share : Nat) (s : State) : Out :=
  .next (match kind with
    | .team => teamBarrier s id
    | .stack => stackBarrier s id share
    | .grid => gridBarrier s id)

/-- R325: GUST_WAVE_RELEASE. -/
def execGustWaveRelease (grid : Nat) (s : State) : Out :=
  match getGrid s grid with
  | none => .next s
  | some gr =>
    match gr.gust with
    | none => .next s
    | some gu => .next (if gu.start + gu.wave * gu.gap ≤ s.tick then releaseWave s grid gu gr.lr.teams else s)

/-- R326: WAIT_POLL: a wait without a table entry tests its condition (DESIGN CHOICE, log 80). -/
def execWaitPoll (gid : Nat) (s : State) : Out :=
  match getG s gid with
  | none => .next s
  | some g =>
    if g.waitEntry || g.halted then .next s
    else match g.park with
      | .bwait _ _ _ _ _ _ | .awaitPhase _ _ _ _ _ _ _ => .next (phaseTest s g)
      | .pause _ _ _ => .next (pauseTest s g)
      | .absent op => execParkedLoadWake op s
      | .tbar _ => .next (teamBarrier s g.team)
      | _ => .next s

end Sys2Proof.Machine
end

