-- ==== Sys2Proof/Machine/Cmd.lean ====
section
/-! DEFINITION. Sys2Proof/Machine/Cmd.lean: what the command-class instructions of the engines share: issue once for the group, refusals, and D (R73, R145, R224, R488). -/

namespace Sys2Proof.Machine

/-- A format-Q instruction at its first issued pass: registers checked, writes due landed, the set's dirty lanes written back (R224); it touches no entry (R222). dyn is the illegal-instruction rule that needs the width, chk the registers checked. k gets the group and the effective lanes, which are not empty (R68). -/
def qIssueG (s : State) (op : Nat) (f : FormQ) (dyn : Group → Bool) (chk : Group → List (Opd × Nat))
    (k : State → GM → Clause → W64 → Mask → Out) : Out :=
  withIssue s (fun s g c =>
    let word := BitVec.ofNat 64 (Sys2Proof.encQ op f)
    if dyn g then illegalOut s g c f.gd word
    else match frameFail g (chk g) with
    | some r => frameOut s g c f.gd word r
    | none =>
      let x := landAt (gmOf s g) g.pos
      let eff := effNow x.g f.gd
      if eff = 0 then .next (finish1 s (bump x (posCount g [])) c f.gd.sw)
      else k s (ocWriteBackAll x) c word eff)

/-- A format-Q instruction with nA, nB and nD registers. -/
def qIssue (s : State) (op : Nat) (f : FormQ) (nA nB nD : Nat) (k : State → GM → Clause → W64 → Mask → Out) : Out :=
  qIssueG s op f noDyn (fun _ => [(f.a, nA), (f.b, nB), (f.d, nD)]) k

/-- The registers of A and B under a last-use mark. -/
def luRegsQ (g : Group) (f : FormQ) (nA nB : Nat) : List Nat :=
  (if f.lu.getLsbD 1 then opdRegs g f.a nA else []) ++ (if f.lu.getLsbD 0 then opdRegs g f.b nB else [])

/-- The group after a format-Q instruction has issued: it takes one position whatever the width (R73). -/
def qDone (x : GM) (c : Clause) (f : FormQ) (nA nB : Nat) : GM :=
  let x := bump ((luRegsQ x.g f nA nB).foldl dropReg x) 1
  { x with g := advance x.g c f.gd.sw }

/-- A command's D: one value of n registers, written once in every effective lane of every pass (R73). -/
def schedQ (x : GM) (pos lat : Nat) (f : FormQ) (n : Nat) (eff : Mask) (v : Nat) : GM :=
  schedDst x (pos + lat) f.d n f.sn ((lanesOf eff).map (fun l => (l, v)))

/-- A refusal (R309, R336, R354): the engine-request trap with a code and an address. -/
def refuseOut (s : State) (x : GM) (c : Clause) (word : W64) (eff : Mask) (sub addr : Nat) : Out :=
  trapOut (putGM s x) x.g c word .engineReq sub eff (BitVec.ofNat 64 addr)

/-- A trap with an address and no code. -/
def addrOut (s : State) (x : GM) (c : Clause) (word : W64) (eff : Mask) (cause : Cause) (addr : Nat) : Out :=
  trapOut (putGM s x) x.g c word cause 0 eff (BitVec.ofNat 64 addr)

/-- R488 checks 2 to 4 of a 64-byte parameter block: its space and rank, its alignment, R117. -/
inductive BlockChk where
  | go (key : Nat)
  | wait (p : Park)
  | refuse
  | bad
  deriving DecidableEq, Repr

/-- R488: the checks of a pointer to a block of n bytes. spaceOk says which pointers the command allows. -/
def blockChkN (s : State) (g : Group) (p n : Nat) (spaceOk : Nat → Bool) : BlockChk :=
  if !spaceOk p || ptrOff p % n != 0 then .refuse
  else match checkPtr s g p n 0 true with
    | .ok (.pool k) => .go k
    | .ok _ | .bad => .bad
    | .missObj k => .wait (.objMiss k)
    | .missRegion r => .wait (.regionMiss r)

/-- R488 for a block of 64 bytes. -/
def blockChk (s : State) (g : Group) (p : Nat) (spaceOk : Nat → Bool) : BlockChk := blockChkN s g p 64 spaceOk

/-- A pointer to the scratchpad of the team (spaces T and P) (DEDUCED, log 47). -/
def isScratch (p : Nat) : Bool := ptrSpace p == 2 || ptrSpace p == 3

/-- An update on its way from an engine to an object (R312). -/
def sendUpd (s : State) (obj : Nat) (item : UpdItem) (src : StrongRec) : State :=
  let u : Upd := { id := s.nextId, obj := obj, ctx := ctxOfObj s obj, item := item, reply := none, src := src }
  { s with nextId := s.nextId + 1, upds := s.upds ++ [u] }

/-- Whether an earlier access of a lane of a group to some bytes, or an earlier release of it at a scope with the engine, is not yet performed: an engine's access comes after it (R145). -/
def engineBehind (s : State) (lvl : EngLevel) (g id lane : Nat) (l : Loc) (n : Nat) : Bool :=
  s.ops.any (fun p => p.g == g && decide (p.id < id) && isAccess p.kind &&
    p.lanes.any (fun y => !laneOver y && standsFor p y lane && (locOverlap l n y.loc p.size || (relOrder p.order && lvl.within p.scope))))

/-- R143: whether an earlier copy, drain or collective still holds a pool line absent. -/
def absentBefore (s : State) (id line : Nat) : Bool :=
  s.reqs.any (fun e => decide (e.id < id) && e.absent.any (fun x => x.1 == line)) ||
  s.mcmds.any (fun e => decide (e.id < id) && e.absent.any (fun x => x.1 == line)) ||
  s.colls.any (fun e => decide (e.id < id) && e.absent.any (fun x => x.1 == line))

/-- What the check of a field's extent answers: its pointer's own place, a wait, or the first offending byte. -/
inductive ExtRes where
  | ok (loc : Loc)
  | wait (p : Park)
  | bad (addr : Nat)
  deriving DecidableEq, Repr

/-- Whether n bytes at an offset from a pointer pass R117. -/
def partOk (s : State) (g : Group) (p : Nat) (rights : BitVec 4) (d : Int) (n : Nat) : Bool :=
  match ptrAdd p d with
  | none => false
  | some q => (locOf (checkPtr s g q n rights true)).isSome

/-- The first of some offsets whose unit fails. -/
def firstBad (s : State) (g : Group) (p : Nat) (rights : BitVec 4) (u : Nat) (off : Nat → Int) : Nat → Nat → Option Int
  | 0, _ => none
  | n + 1, i => if partOk s g p rights (off i) u then firstBad s g p rights u off n (i + 1) else some (off i)

/-- The pointer to the first offending byte of a unit; the pointer itself where no pointer names that byte. -/
def badAddr (s : State) (g : Group) (p : Nat) (rights : BitVec 4) (u : Nat) (d : Int) : Nat :=
  let k := ((List.range u).find? (fun (k : Nat) => !partOk s g p rights (d + (k : Int)) 1)).getD 0
  (ptrAdd p (d + (k : Int))).getD p

/-- R335, R354: the whole extent of units 0 to n - 1 of u bytes checked, lo and hi being the offsets of its lowest byte and past its highest. -/
def extChk (s : State) (g : Group) (p : Nat) (rights : BitVec 4) (u n : Nat) (off : Nat → Int) (lo hi : Int) : ExtRes :=
  match missOf (checkPtr s g p 1 rights true) with
  | some w => .wait w
  | none =>
    match (ptrAdd p lo).bind (fun q => locOf (checkPtr s g q (hi - lo).toNat rights true)) with
    | some l => .ok (locShift l (-lo))
    | none =>
      match firstBad s g p rights u off n 0 with
      | some d => .bad (badAddr s g p rights u d)
      | none =>
        match locOf (checkPtr s g p u rights true) with
        | some l => .ok l
        | none => .bad p

/-- The 128-byte line of a place, as a place. -/
def locLine (l : Loc) : Loc :=
  match l with
  | .pool k => .pool (k / 128 * 128)
  | .uni p ua => .uni p (lineOf ua)
  | .lat p r o => .lat p r o
  | .peer m o x => .peer m o x
  | .mcast g o x => .mcast g o x

/-- Whether a pool key belongs to a scratchpad or a frame, which have presence bits (R337). -/
def hasPresence (k : Nat) : Bool := keySpace k == 1 || keySpace k == 2

/-- The bytes still to land counted for the lines that n bytes at a key touch (R337). -/
def addAbsent (a : List (Nat × Nat)) (k n : Nat) : List (Nat × Nat) :=
  (List.range n).foldl (fun a i =>
    let l := poolLine (k + i)
    if a.any (fun x => x.1 == l) then a.map (fun x => if x.1 = l then (x.1, x.2 + 1) else x) else (l, 1) :: a) a

/-- One byte landed, skipped or counted as out of range (R337). -/
def subAbsent (a : List (Nat × Nat)) (k : Nat) : List (Nat × Nat) :=
  (a.map (fun x => if x.1 = poolLine k then (x.1, x.2 - 1) else x)).filter (fun x => x.2 != 0)

/-- A place's bytes counted as absent. -/
def markAbsent (a : List (Nat × Nat)) (l : Loc) (n : Nat) : List (Nat × Nat) :=
  match l with
  | .pool k => if hasPresence k then addAbsent a k n else a
  | .uni _ _ | .lat _ _ _ | .peer _ _ _ | .mcast _ _ _ => a

/-- A place's bytes no longer absent. -/
def clearAbsent (a : List (Nat × Nat)) (l : Loc) (n : Nat) : List (Nat × Nat) :=
  match l with
  | .pool k => if hasPresence k then (List.range n).foldl (fun a i => subAbsent a (k + i)) a else a
  | .uni _ _ | .lat _ _ _ | .peer _ _ _ | .mcast _ _ _ => a

/-- Bytes paired with the places they go to. -/
def placed (l : Loc) (bs : List Byte) : List (Loc × Byte) := bs.zipIdx.map (fun b => (locShift l (b.2 : Int), b.1))

/-- Whether the pool image of a context is out (R298). -/
def ctxOut (s : State) (ctx : Nat) : Bool :=
  match getC s ctx with
  | some c => c.evicted != 0
  | none => false

/-- What bytes at a place meet for an engine working for a context of a team: nothing moves while its pool image is out (R298, R366); unified memory by its sender's path, host frames behind a link that may be down, where the work aborts (R441), or a pool whose image may be out. -/
def enginePlace (s : State) (w : Sender) (team ctx : Nat) (l : Loc) (n : Nat) : Reach :=
  if ctxOut s ctx then .held
  else match l with
  | .uni p ua => match pathReach s w p ua n with
    | .host => if nth s.links (partAt s p).link true then .host else .held
    | .page x => .page x
    | .ready => .ready
    | .held => .held
  | .pool _ => if s.ctxs.all (fun c => c.team != team || c.evicted == 0) then .ready else .held
  | .lat _ _ _ | .peer _ _ _ | .mcast _ _ _ => .ready

/-- The worst of what several places meet, page faults first. -/
def worstReach (rs : List Reach) : Reach :=
  match rs.find? (fun r => match r with
      | .page _ => true
      | .ready | .held | .host => false) with
  | some r => r
  | none => if rs.contains .held then .held else .ready

/-- Who an engine's accesses come from, and for whom: its number, the group and lane that issued it, its core, and its scope and place (R124, R145). -/
structure Eng where
  id : Nat
  g : Nat
  lane : Nat
  core : Nat
  me : StrongRec
  deriving DecidableEq, Repr

/-- The party of an engine's work (R124). -/
def engOf (s : State) (lvl : EngLevel) (id g lane team ctx part : Nat) (sc : Scope) : Eng :=
  { id := id, g := g, lane := lane, core := coreOfCtx s ctx, me := engineParty s lvl id team ctx part sc }

/-- An engine's access for the rules of races. -/
def engAcc (e : Eng) : Acc := { party := engineNo e.id, op := e.id, me := e.me, strong := true, rmw := false }

/-- R145: an engine about to access some bytes: the accesses of them that its lane made before the command happen before it, and before what its completion releases. -/
def afterLane (s : State) (e : Eng) (l : Loc) (n : Nat) : State :=
  match raceKey l with
  | none => s
  | some k =>
    let p := laneParty e.g e.lane
    let ws := (s.past.filter (fun b => b.party == p && decide (b.op < e.id) && decide (k ≤ b.key) && decide (b.key < k + n))).map (fun b => (b.key, b.stamp))
    let rs := (s.reads.filter (fun r => r.party == p && decide (r.op < e.id) && decide (r.key < k + n) && decide (k < r.key + r.len))).flatMap
      (fun r => (List.range r.len).map (fun i => (r.key + i, r.stamp)))
    (ws ++ rs).foldl (fun s x => learn s (engineNo e.id) [(pointNo p x.1, x.2)]) s

/-- An engine's access leaves no line of its core's L1 ways behind (R141). -/
def pastL1 (s : State) (e : Eng) (l : Loc) (n : Nat) : State :=
  match l with
  | .uni p ua => l1Strong s e.core p ua n
  | .pool _ | .lat _ _ _ | .peer _ _ _ | .mcast _ _ _ => s

/-- Bytes of several places read for an engine at one moment: past the L1 ways of its core (R141), after the issuing lane's accesses (R145), racing bytes as R133 allows in units of u bytes, each old or new as a whole; landed as in raceByte (DESIGN CHOICE, log 41). -/
def engineRds (s : State) (e : Eng) (landed : Bool) (u : Nat) (ls : List (Loc × Nat)) : State × List (List Byte) :=
  let s1 := ls.foldl (fun s x => afterLane (pastL1 s e x.1 x.2) e x.1 x.2) s
  let bs := ls.map (fun x => (raceUnits s1 (engAcc e) landed u x.1 (locRd s1 x.1 x.2)).2)
  (ls.foldl (fun s x => (raceUnits s (engAcc e) landed u x.1 (List.replicate x.2 0)).1) s1, bs)

/-- Bytes of one place read for an engine. -/
def engineRdU (s : State) (e : Eng) (landed : Bool) (u : Nat) (l : Loc) (n : Nat) : State × List Byte :=
  let r := engineRds s e landed u [(l, n)]
  (r.1, r.2.headD [])

/-- Bytes read for an engine, each by itself. -/
def engineRd (s : State) (e : Eng) (l : Loc) (n : Nat) : State × List Byte := engineRdU s e false 1 l n

/-- Whether a unified byte stands in a host frame, and its host page (R426) (DESIGN CHOICE, log 41). -/
def hostFrame (s : State) (l : Loc) : Option Nat :=
  match l with
  | .uni p ua => match (granAt (partAt s p) (ua / 4096)).state with
    | .host h => some h
    | .none | .hbm _ | .tier2 _ => none
  | .pool _ | .lat _ _ _ | .peer _ _ _ | .mcast _ _ _ => none

/-- R441: whether a place stands in host memory behind a partition's link that is down: a device request made there completes as failed. -/
def linkLost (s : State) (part : Nat) (l : Loc) : Bool := (hostFrame s l).isSome && !nth s.links (partAt s part).link true

/-- The 128-byte lines in host frames that some places touch, in order (R426). -/
def hostLines (s : State) (xs : List (Loc × Nat)) : List (Nat × Nat) :=
  (xs.flatMap (fun x => match x.1 with
    | .uni p ua => (List.range ((ua + x.2 + 127) / 128 - ua / 128)).map (fun i => (p, 128 * (ua / 128 + i)))
    | .pool _ | .lat _ _ _ | .peer _ _ _ | .mcast _ _ _ => [])).eraseDups.filter (fun y => (hostFrame s (.uni y.1 y.2)).isSome)

/-- n bytes of returned words. -/
def wordBytes (n : Nat) (ws : List W32) : List Byte := leBytes n (wordsValue ws)

/-- R426: what the host's memory held in those lines arrives, line after line (DEDUCED, log 34). -/
def hostArrives (s : State) (xs : List (Loc × Nat)) (vals : List W32) : State :=
  (hostLines s xs).zipIdx.foldl (fun s y => uniPut s y.1.1 y.1.2 (wordBytes 128 (vals.drop (32 * y.2)))) s

/-- A write to the host remembered for its group until the link is flushed (R426). -/
def noteHost (s : State) (g : Nat) (l : Loc) : State :=
  match hostFrame s l with
  | some h => if s.hwrites.any (fun w => w.g == g && w.hpa == h) then s else { s with hwrites := ⟨g, h⟩ :: s.hwrites }
  | none => s

/-- R144: whether a byte that an engine lands stands behind a store that came since its lines were made absent and does not happen before it: either may be the one that the byte finally holds. -/
def landsUnder (s : State) (e : Eng) (l : Loc) : Bool :=
  match l with
  | .pool k => hasPresence k && Config.raceChoice s.fresh k % 2 == 1 &&
      ((writesOf s k).head?.map (fun b => !isEngineNo b.party && !happensBefore s (engineNo e.id) b)).getD false
  | .uni _ _ | .lat _ _ _ | .peer _ _ _ | .mcast _ _ _ => false

/-- A byte written by an engine for a group: past L1, after its lane's accesses, remembered for racing reads, a strong write of its scope (R123, R138, R141, R145); a store that it meets in a pool may stay (R144) (DESIGN CHOICE, log 41). -/
def engineWr (s : State) (e : Eng) (l : Loc) (b : Byte) : State :=
  let s1 := recordStrong (afterLane (pastL1 s e l 1) e l 1) l 1 e.me
  match raceKey l with
  | some k =>
    if landsUnder s1 e l then raceUnder s1 (engAcc e) k b
    else noteHost (locSet (raceWrite s1 (engAcc e) [] l (locRd s1 l 1) [b]) l [b]) e.g l
  | none => noteHost (locSet s1 l [b]) e.g l

/-- A byte sent to its place: dropped and counted where its packet is stale (R23), else written. -/
def sendByte (s : State) (w : Sender) (e : Eng) (l : Loc) (b : Byte) : State :=
  match staleAt s w l 1 with
  | some d => countStale s d
  | none => engineWr s e l b

/-- The barrier pointer of an engine command once its fields are checked (R309, R488): no object, its key, or what stops it. -/
inductive BarChk where
  | none
  | go (key : Nat)
  | wait (p : Park)
  | bad (addr : Nat)
  | misaligned (addr : Nat)
  deriving DecidableEq, Repr

/-- R117, then the alignment of R309 (DEDUCED, log 47). -/
def barChk (s : State) (g : Group) (bar : Option Nat) : BarChk :=
  match bar with
  | .none => .none
  | some q => match checkPtr s g q 32 0 true with
    | .bad => .bad q
    | .missObj k => .wait (.objMiss k)
    | .missRegion r => .wait (.regionMiss r)
    | .ok (.pool k) => if ptrOff q % 32 = 0 then .go k else .misaligned q
    | .ok _ => .bad q

/-- Whether a group that waits for an entry of a queue of its core began before another, the lower slice first of equals (R335, R353, R405). -/
def waitsBefore (s : State) (q : QueueKind) (g h : Group) (since : Nat) : Bool :=
  match h.park with
  | .entryWait p t => p == q && h.id != g.id && coreOf s h == coreOf s g &&
      (decide (t < since) || (t == since && decide (((h.slot.map SlotAt.slice).getD 0) < ((g.slot.map SlotAt.slice).getD 0))))
  | _ => false

/-- When a group began to wait for an entry of a queue. -/
def waitSince (s : State) (q : QueueKind) (g : Group) : Nat :=
  match g.park with
  | .entryWait p t => if p = q then t else s.tick
  | _ => s.tick

end Sys2Proof.Machine
end

