-- ==== Sys2Proof/Machine/Lattice.lean ====
section
/-! DEFINITION. Sys2Proof/Machine/Lattice.lean: lattice regions, their joins, thresholds, lanes and trades, AWAIT on a cell, and the lattice instructions (R374-R397). -/

namespace Sys2Proof.Machine

/-! ## Types (R374, R376, R377) -/

/-- R374: the value every cell starts at. -/
def bottomOf (ty : Nat) : Nat :=
  match ty with
  | 2 => 0x7FFFFFFF
  | 3 => 0x7F800000
  | 4 | 7 => 2 ^ 64 - 1
  | _ => 0

/-- R376: whether an F32 pattern is a NaN. -/
def isNan32 (x : Nat) : Bool := bits x 30 23 == 255 && bits x 22 0 != 0
/-- R376: the order of numbers, −0 below +0. -/
def ord32 (x : Nat) : Int := if bit x 31 then -(bits x 30 0 : Int) - 1 else (bits x 30 0 : Int)

/-- R376: the join of two F32 patterns. -/
def minF32Join (c x : Nat) : Nat := if isNan32 c || isNan32 x then 0x7FC00000 else if ord32 x < ord32 c then x else c

/-- R374, R377: join(c, x). -/
def latJoin (ty c x : Nat) : Nat :=
  match ty with
  | 0 | 1 => max c x
  | 2 => if sext x 32 < sext c 32 then x else c
  | 3 => minF32Join c x
  | 4 | 7 => min c x
  | 5 => c ||| x
  | _ => packElems 64 (List.zipWith max (elems 64 8 c) (elems 64 8 x))

/-- R377: the value of a cell: its bits, or a GCOUNT cell's saturated sum. -/
def latValue (ty c : Nat) : Nat := if ty = 6 then min ((elems 64 8 c).foldl (· + ·) 0) (2 ^ 64 - 1) else c

/-- R374, R376: whether a value has reached a threshold. -/
def latReached (ty v t : Nat) : Bool :=
  match ty with
  | 0 | 1 | 6 => decide (t ≤ v)
  | 2 => decide (sext v 32 ≤ sext t 32)
  | 3 => if isNan32 t then isNan32 v else isNan32 v || decide (ord32 v ≤ ord32 t)
  | 4 | 7 => decide (v ≤ t)
  | _ => (v &&& t) == t

/-- The SIZE of a region type (R374). -/
def latSize (ty : Nat) : Nat := if ty = 0 ∨ ty = 2 ∨ ty = 3 then 2 else 3

/-! ## Replicas -/

/-- A replica that nothing has changed. -/
def Replica.new (k : Nat) : Replica := { stack := k, back := [], vals := [], changed := [], snaps := 0, rels := [] }

/-- The replica of a stack. -/
def replicaAt (r : Region) (k : Nat) : Replica := (r.reps.find? (fun p => p.stack == k)).getD (Replica.new k)

/-- A cell of a replica. -/
def cellRd (r : Region) (k i : Nat) : Nat := (((replicaAt r k).vals.find? (fun c => c.1 == i)).map (·.2)).getD (bottomOf r.ty)

/-- The 64-byte line of a cell (R384). -/
def cellLine (r : Region) (i : Nat) : Nat := i * cellBytes r.ty / 64

/-- A cell of a replica changed, its line marked (R384, R391). -/
def cellPut (r : Region) (k i v : Nat) : Region :=
  { r with reps := r.reps.map (fun p => if p.stack != k then p else
      { p with vals := (if v = bottomOf r.ty then [] else [(i, v)]) ++ p.vals.filter (fun c => c.1 != i),
               changed := (cellLine r i, p.snaps) :: p.changed.filter (fun l => l.1 != cellLine r i) }) }

/-- A join into a cell; a join that changes nothing marks nothing (R384). -/
def cellJoin (r : Region) (k i x : Nat) : Region :=
  let c := cellRd r k i
  if latJoin r.ty c x = c then r else cellPut r k i (latJoin r.ty c x)

/-- R385: an addition to the slot of a stack in its own replica. -/
def cellAdd (r : Region) (k i a : Nat) : Region :=
  let c := cellRd r k i
  let n := min (nth (elems 64 8 c) k 0 + a) (2 ^ 64 - 1)
  let v := packElems 64 ((elems 64 8 c).set k n)
  if v = c then r else cellPut r k i v

/-! ## What a replica includes (R394; the model's own) (DESIGN CHOICE, log 19) -/

/-- What happens before the joins and additions that a replica includes at a cell. -/
def cellView (r : Region) (k i : Nat) : View := (((replicaAt r k).rels.find? (fun x => x.1 == i)).map (·.2)).getD []

/-- A cell's view joined to a list of them. -/
def relPut (rels : List (Nat × View)) (x : Nat × View) : List (Nat × View) :=
  if x.2.isEmpty then rels
  else if rels.any (fun y => y.1 == x.1) then rels.map (fun y => if y.1 = x.1 then (y.1, viewJoin y.2 x.2) else y) else x :: rels

/-- A replica that includes more. -/
def includeRels (r : Region) (k : Nat) (xs : List (Nat × View)) : Region :=
  { r with reps := r.reps.map (fun p => if p.stack = k then { p with rels := xs.foldl relPut p.rels } else p) }

/-! ## Uncorrectable errors (R397) -/

/-- Whether n bytes of a replica from an offset touch a line with an uncorrectable error (R397). -/
def badReplica (s : State) (part num k off n : Nat) : Bool :=
  (List.range ((off + n - 1) / 64 - off / 64 + 1)).any (fun i => s.poison.contains (.replica k part num (off / 64 + i)))

/-- R397: a replica of a region in which the changes of lines with an uncorrectable error are undone. -/
def keepBad (s : State) (part k : Nat) (old new : Region) : Region :=
  let bad := fun (i : Nat) => s.poison.contains (.replica k part old.num (cellLine old i))
  if s.poison.isEmpty then new
  else { new with reps := new.reps.map (fun p => if p.stack != k then p else
    { p with vals := p.vals.filter (fun c => !bad c.1) ++ (replicaAt old k).vals.filter (fun c => bad c.1),
             changed := p.changed.filter (fun l => !s.poison.contains (.replica k part old.num l.1)) }) }

/-- A region of a partition changed. -/
def modRegion (s : State) (part r : Nat) (f : Region → Region) : State := modP s part (fun p => { p with regions := modBy Region.num p.regions r f })

/-- The words of a value of n bytes. -/
def valWords (n v : Nat) : List W32 := (List.range (regsOf n)).map (wordOf v)

/-- R387: a change tests the waiters of a replica: each keeps the value at the first moment its threshold is reached (R386), and acquires what the cell then includes (R394). -/
def latTest (s : State) (part num k : Nat) : State :=
  match regionAt s part num with
  | none => s
  | some r =>
    let cb := cellBytes r.ty
    let onStack := fun g => match getG s g with
      | some h => stackOf s h == k
      | none => false
    let waits := fun x : LaneOp => match x.st with
      | .waiting _ => x.val.isEmpty
      | _ => false
    let lane := fun (x : LaneOp) =>
      match x.loc with
      | .lat p n off =>
        let v := latValue r.ty (cellRd r k (off / cb))
        if p = part ∧ n = num ∧ waits x = true ∧ latReached r.ty v (wordsValue x.data) = true then { x with val := valWords (min 8 cb) v } else x
      | _ => x
    let got := s.ops.flatMap (fun o => if o.kind == .jld && onStack o.g then
        (o.lanes.filter (fun x => waits x && !(lane x).val.isEmpty)).map (fun x => (o.g, x.lane, x.loc)) else [])
    let view := fun (l : Loc) => match l with
      | .lat _ _ off => cellView r k (off / cb)
      | _ => []
    let reached := fun (g : Group) (w : CellWait) => w.part == part && w.region == num && w.got.isNone && stackOf s g == k && latReached r.ty (latValue r.ty (cellRd r k w.cell)) w.t.toNat
    let ws := s.groups.filterMap (fun g => match g.park with
      | .awaitCell w => if reached g w then some (g.id, w) else none
      | _ => none)
    let s := got.foldl (fun s x => learn s (laneParty x.1 x.2.1) (view x.2.2)) s
    let s := ws.foldl (fun s x => learnLanes s x.1 (lanesOf x.2.eff) (cellView r k x.2.cell)) s
    { s with
      ops := s.ops.map (fun o => if o.kind == .jld && onStack o.g then { o with lanes := o.lanes.map lane } else o)
      groups := s.groups.map (fun g => match g.park with
        | .awaitCell w =>
          if ws.any (fun x => x.1 == g.id) then { g with park := .awaitCell { w with got := some (BitVec.ofNat 64 (latValue r.ty (cellRd r k w.cell))) } } else g
        | _ => g) }

/-- A change of a replica, discarded in its lines with an uncorrectable error (R397), with the tests it brings. -/
def latChange (s : State) (part num k : Nat) (f : Region → Region) : State :=
  latTest (modRegion s part num (fun r => keepBad s part k r (f r))) part num k

/-- R338: a streamer's addition to a GCOUNT cell at a stack, with what its release carries. -/
def gcountAdd (s : State) (part num k i a : Nat) (v : View) : State :=
  latChange s part num k (fun r => includeRels (cellAdd r k i a) k [(i, v)])

/-- R374: bytes of a replica from an offset (R389). -/
def latBytes (r : Region) (k off n : Nat) : List Byte :=
  (List.range n).map (fun j => nth (leBytes (cellBytes r.ty) (cellRd r k ((off + j) / cellBytes r.ty))) ((off + j) % cellBytes r.ty) 0)

/-! ## Region records and their caches (R382, R396) -/

/-- R382: REGION_CACHE_FILL: a record of a region becomes the most recent of 16; the groups that wait for it go on, and keep it until their instruction issues. -/
def execRegionCacheFill (core region : Nat) (s : State) : Out :=
  let waits := fun (s : State) (g : Group) => g.park == .regionMiss region && coreOf s g == core
  match s.groups.find? (waits s) with
  | none => .next s
  | some g =>
    let key := partOf s g * 4096 + region
    let k := core / Config.coresPerStack
    let s1 := modCore s core (fun c => { c with regionCache := (key :: c.regionCache.filter (· != key)).take 16 })
    if !pathOpen s (coreDie core) (baseDie k) then .next s
    else .next { s1 with groups := s1.groups.map (fun g => if waits s g then { g with park := .none, fetched := key :: g.fetched } else g) }

/-- A line made the most recent of a stack's cell cache of 65,536 lines (R396). -/
def cellUse (s : State) (k : Nat) (l : CellLine) : State :=
  { s with cellCache := s.cellCache.modify k (fun ls => (l :: ls.filter (· != l)).take 65536) }

/-- R396: CELL_CACHE_FILL (DEDUCED, log 38). -/
def execCellCacheFill (stack part region line : Nat) (s : State) : Out := .next (cellUse s stack ⟨part, region, line⟩)

/-! ## Issue (R382) -/

/-- What the checks of a lattice instruction answer. -/
inductive LatChk where
  | go (ls : List LaneAt)
  | wait (p : Park)
  | trap (cause : Cause) (sub : Nat) (addr : Nat)
  deriving DecidableEq, Repr

/-- The region of a lattice place. -/
def latRegion (s : State) (l : Loc) : Option (Region × Nat) :=
  match l with
  | .lat p r off => (regionAt s p r).map (fun x => (x, off))
  | .pool _ | .uni _ _ | .peer _ _ _ | .mcast _ _ _ => none

/-- R382: the checks in their order. ps gives each lane's pointer before and after its displacement; size is none for a command that names any cell. -/
def latChk (s : State) (g : Group) (ps : List (Nat × Nat × Option Nat)) (size : Option Nat) (op : Nat) : LatChk :=
  let lowPtr := match ps with
    | [] => 0
    | (_, p, q) :: _ => q.getD p
  if ps.any (fun x => ptrSpace x.2.1 != 4) then .trap .engineReq 0x64 lowPtr
  else
    let n := match size with
      | some z => 2 ^ z
      | none => 1
    let rs := ps.map (fun x => match x.2.2 with
      | none => (x.1, x.2.1, PtrRes.bad)
      | some q => (x.1, q, checkPtr s g q n 0 false))
    match rs.findSome? (fun r => missOf r.2.2) with
    | some p => .wait p
    | none =>
      match rs.find? (fun r => (locOf r.2.2).isNone) with
      | some r => .trap .capability 0 r.2.1
      | none =>
        let ats := rs.filterMap (fun r => (locOf r.2.2).map (fun l => (⟨r.1, r.2.1, l⟩ : LaneAt)))
        match ats.find? (fun a => match latRegion s a.loc with
            | some (r, off) => off % cellBytes r.ty != 0
            | none => false) with
        | some a => .trap .misalignedAtomic 0 a.ptr
        | none =>
          let tys := ats.filterMap (fun a => (latRegion s a.loc).map (fun x => x.1.ty))
          if tys.any (fun ty => size.isSome && size != some (latSize ty)) then .trap .engineReq 0x61 lowPtr
          else if op == 0xC8 && tys.contains 6 then .trap .engineReq 0x62 lowPtr
          else if op == 0xCB && tys.any (· != 6) then .trap .engineReq 0x63 lowPtr
          else .go ats

/-- Whether a place is a cell of a GCOUNT region, whose value is all its 64 bytes (R377). -/
def isGcount (s : State) (l : Loc) : Bool := (latRegion s l).any (fun x => x.1.ty == 6)

/-- JST, JLD, JLDN and JADD: checked, then sent to the stack's engine; a join is a release, a read an acquire (R148, R394); a GCOUNT cell is one location (R395). -/
def latIssue (op : Nat) (f : FormM) (kind : OpKind) (order : Order) (s : State) : Out :=
  let n := regsOf (sizeBytes f)
  let nB := if kind = .jldn then 0 else n
  memIssue s op f 2 nB n (fun s x c word eff =>
    let x := ocWriteBackAll x
    match latChk s x.g ((lanesOf eff).map (fun l => (l, (laneAddr x f l).1, (laneAddr x f l).2))) (some f.size.toNat) op with
    | .wait p => stallOut s x.g p
    | .trap cause sub a => trapOut (putGM s x) x.g c word cause sub eff (BitVec.ofNat 64 a)
    | .go ats =>
      if cntOf x.g 5 == 63 then stallOut s x.g .stall
      else
        let o := { opOfM x f s.nextId 5 kind (ats.map (fun a => laneOp a (rdRegs x f.b nB a.lane))) eff word with
          order := order, scope := .dev, size := if ats.any (fun a => isGcount s a.loc) then 64 else sizeBytes f }
        let s1 := addOp { putGM s (memDone x c f nB eff) with nextId := s.nextId + 1 } o
        .next (if relOrder order then releaseAct s1 x.g else s1))

/-- R384: JST. -/
def execJst (f : FormM) (s : State) : Out := latIssue 0xC8 f .jst .rel s
/-- R386: JLD. -/
def execJld (f : FormM) (s : State) : Out := latIssue 0xC9 f .jld .acq s
/-- R386: JLDN. -/
def execJldn (f : FormM) (s : State) : Out := latIssue 0xCA f .jldn .acq s
/-- R385: JADD. -/
def execJadd (f : FormM) (s : State) : Out := latIssue 0xCB f .jadd .rel s

/-- R390: the depth of a schedule. -/
def tradeDepth (sched n : Nat) : Nat :=
  match sched with
  | 0 => n / 2
  | 1 => Nat.log2 n
  | _ => 1

/-- R391: the lines of a replica that are fresh for a trade. -/
def freshLines (r : Region) (n k m : Nat) : List Nat :=
  let h := tradeDepth r.sched n
  ((replicaAt r k).changed.filter (fun l => decide (m < h) || decide (m - h < l.2))).map (·.1)

/-- R388: what JQRY reads. -/
def jqryValue (r : Region) (n k field : Nat) : Nat :=
  match field with
  | 0 => r.ty
  | 1 => r.cells
  | 2 => r.sched + n * 256
  | 3 => r.period
  | 4 => r.completed
  | _ => (freshLines r n k r.taken).length

/-- JTRADE and JQRY: issued once, for the lowest effective lane (R381), their region's record used (R382). -/
def latCmd (op : Nat) (f : FormQ) (nD : Nat) (kind : OpKind) (s : State) : Out :=
  qIssue s op f 2 0 nD (fun s x c word eff =>
    let l := (lowLane eff).getD 0
    let p := rdOpd x f.a .b64 l
    match latChk s x.g [(l, p, some p)] none op with
    | .wait q => stallOut s x.g q
    | .trap cause sub a => trapOut (putGM s x) x.g c word cause sub eff (BitVec.ofNat 64 a)
    | .go ats =>
      if cntOf x.g 5 == 63 then stallOut s x.g .stall
      else .next (launchPlain (consult s (coreOf s x.g) (partOf s x.g) p) (qDone x c f 2 0) kind 5 (ats.map (fun a => laneOp a [])) (dstOf x.g f.d f.sn) eff word))

/-- R388: JTRADE (DEDUCED, log 38). -/
def execJtrade (f : FormQ) (s : State) : Out := latCmd 0xCC f 1 .jtrade s

/-- R388: JQRY (DEDUCED, log 44). -/
def execJqry (f : FormQ) (s : State) : Out :=
  let fld := f.sub.toNat % 8
  latCmd 0xCD f (if fld = 4 then 2 else 1) (.jqry fld) s

/-- A command's returned words written for every effective lane (R73), its operation ended. -/
def cmdReturn (s : State) (o : Op) (ws : List W32) : State :=
  let s := modGM s o.g (fun x => putAll x o.dst o.eff ws)
  opEnd (modOp s o.id (fun o => { o with lanes := o.lanes.map (fun y => { y with st := .performed }) })) o.id

/-- Whether a group's frame is in its core's pool, so that values may be written (R214, R397). -/
def frameHere (s : State) (gid : Nat) : Bool :=
  match (getG s gid).bind (ctxOf s) with
  | some c => c.evicted == 0
  | none => true

/-- The operations that a group's lattice engine keeps in issue order: its six instructions (R383). -/
def isLattice (k : OpKind) : Bool :=
  match k with
  | .jst | .jld | .jldn | .jadd | .jtrade | .jqry _ => true
  | _ => false

/-- Whether an earlier lattice instruction of the group has lanes to perform (R383). -/
def latBehind (s : State) (o : Op) : Bool :=
  isLattice o.kind && s.ops.any (fun p => p.g == o.g && decide (p.id < o.id) && isLattice p.kind && p.lanes.any (fun y => y.st == .sent))

/-- The words that a JQRY of a field returns as a region stands for a group (R388). -/
def jqryWords (s : State) (g : Group) (r : Region) (field : Nat) : List W32 :=
  valWords (if field = 4 then 8 else 4) (jqryValue r (stacksOf (partAt s (partOf s g))).length (stackOf s g) field)

/-- R383, R388: LATTICE_QUERY_COMPLETE: a JQRY performed behind the group's earlier lattice instructions, and its value written; a reply that finds its die reset since is dropped (R23) (DEDUCED, log 44). -/
def execLatticeQueryComplete (op : Nat) (s : State) : Out :=
  match getOp s op with
  | none => .next s
  | some o =>
    match o.kind, o.lanes.find? (fun x => x.st == .sent), getG s o.g with
    | .jqry field, some x, some g =>
      if latBehind s o || !frameHere s o.g then .next s
      else if replyStale s (opSrc s o) then .next (dropLane s o x.lane (opSrc s o).1)
      else if !mayReach s (opSrc s o) (baseDie (stackOf s g)) then .next s
      else match latRegion s x.loc with
        | some r => .next (cmdReturn s o (jqryWords s g r.1 field))
        | none => .next s
    | _, _, _ => .next s

/-! ## Performing lanes (R383-R387, R394) -/

/-- R387: the threshold entries in use at a stack: one for each cell and threshold of an instruction, and one for each AWAIT. -/
def thresholdsUsed (s : State) (k : Nat) : Nat :=
  let here := fun g => match getG s g with
    | some h => stackOf s h == k
    | none => false
  let ls := s.ops.flatMap (fun o => if here o.g then (o.lanes.filter (fun x => x.st == .waiting true)).map (fun x => (o.id, x.loc, x.data)) else [])
  let as' := s.groups.filter (fun g => match g.park with
    | .awaitCell w => w.entry && stackOf s g == k
    | _ => false)
  ls.eraseDups.length + as'.length

/-- R387: whether a waiter gets an entry: it shares its instruction's, or one of the 1,024 is free. -/
def entryFor (s : State) (k : Nat) (o : Op) (x : LaneOp) : Bool :=
  o.lanes.any (fun y => y.st == .waiting true && y.loc == x.loc && y.data == x.data) || decide (thresholdsUsed s k < 1024)

/-- The parts in which a load of L is single-copy atomic (R389): its bytes of each cell of at most 8 bytes and of each GCOUNT slot, as first byte and length. -/
def latUnits (cb off n : Nat) : List (Nat × Nat) :=
  let u := min cb 8
  (List.range ((off + n - 1) / u - off / u + 1)).map (fun i =>
    let lo := max off ((off / u + i) * u)
    (lo - off, min (off + n) ((off / u + i + 1) * u) - lo))

/-- The part of a load of L that is read next: any of those left (R8, R389). -/
def latUnit (s : State) (x : LaneOp) (us : List (Nat × Nat)) : Option (Nat × Nat) :=
  let left := us.filter (fun u => !x.got.any (fun b => b.1 == u.1))
  (left[Config.raceChoice s.fresh x.lane % left.length]?).or left.head?

/-- R389, R394: one part of a load of L read; with the last its value is there, and one with acquire order acquires, at device scope. -/
def latLoad (s : State) (g : Group) (o : Op) (x : LaneOp) (r : Region) (off : Nat) (signed : Bool) : State :=
  let k := stackOf s g
  let cb := cellBytes r.ty
  let us := latUnits cb off o.size
  match latUnit s x us with
  | none => s
  | some u =>
    let got := x.got ++ (latBytes r k (off + u.1) u.2).zipIdx.map (fun b => (u.1 + b.2, b.1))
    let s := { s with fresh := s.fresh + 1 }
    if got.length < o.size then setLane s o.id x.lane (fun y => { y with got := got })
    else
      let bs := (List.range o.size).map (fun i => ((got.find? (fun b => b.1 == i)).map (·.2)).getD 0)
      let s := if acqOrder o.order then
          us.foldl (fun s u => learn s (laneParty g.id x.lane) (cellView r k ((off + u.1) / cb))) (acquireAct s g)
        else s
      setLane s o.id x.lane (fun y => { y with st := .valued, val := loadWords signed bs })

/-- Whether a lane's operation reads the replica: every one but a join or an addition without a destination (R384, R397). -/
def latReads (o : Op) : Bool := (o.kind != .jst && o.kind != .jadd) || o.dst != .none

/-- One lane performed at the stack's replica (R384-R386, R389); one that reads a line with an uncorrectable error takes the memory-error trap, a join into one is discarded (R397). -/
def latLane (s : State) (g : Group) (o : Op) (x : LaneOp) (r : Region) (off : Nat) : State :=
  let k := stackOf s g
  let part := partOf s g
  let cb := cellBytes r.ty
  let i := off / cb
  let c := cellRd r k i
  let me := laneParty g.id x.lane
  let done := fun (s : State) (ws : List W32) => setLane s o.id x.lane (fun y => { y with st := .valued, val := ws })
  let arg := wordsValue x.data
  let value := valWords (min 8 cb) (latValue r.ty c)
  if latReads o && badReplica s part r.num k off o.size then failLane s o x.lane 0x10 1
  else match o.kind with
  | .jst =>
    let s := releaseAct s g
    done (latChange s part r.num k (fun r => includeRels (cellJoin r k i arg) k [(i, fullView s me)])) (valWords o.size c)
  | .jadd =>
    let s := releaseAct s g
    let s := latChange s part r.num k (fun r => includeRels (cellAdd r k i arg) k [(i, fullView s me)])
    done s (valWords 8 (latValue r.ty (cellRd (cellAdd r k i arg) k i)))
  | .jldn => done (learn (acquireAct s g) me (cellView r k i)) value
  | .jld =>
    if latReached r.ty (latValue r.ty c) arg then done (learn (acquireAct s g) me (cellView r k i)) value
    else setLane s o.id x.lane (fun y => { y with st := .waiting (entryFor s k o x) })
  | .ldL sg _ => latLoad s g o x r off sg
  | _ => s

/-! ## Packets of trades (R391) -/

/-- Trade lines of a replica: the values of chosen lines (R391); those with an uncorrectable error are skipped (R397). -/
def linesSent (s : State) (part : Nat) (r : Region) (k : Nat) (ls : List Nat) : List TradeLine :=
  (ls.filter (fun l => !s.poison.contains (.replica k part r.num l))).map (fun l => ⟨l, (replicaAt r k).vals.filter (fun c => cellLine r c.1 == l)⟩)

/-- The bytes of a trade packet: 72 for each line entry (R391). -/
def tradeBytes (ls : List TradeLine) : Nat := 72 * ls.length

/-- R391: line entries put into packets of up to 56, at least one packet. -/
def tradeParts : Nat → List TradeLine → List (List TradeLine)
  | 0, ls => [ls]
  | n + 1, ls => if ls.length ≤ 56 then [ls] else ls.take 56 :: tradeParts n (ls.drop 56)

/-- The packets of what a replica sends. -/
def packetsOf (ls : List TradeLine) : List (List TradeLine) := tradeParts ls.length ls

/-- A lattice message from one stack's engine to another's (R391). -/
def latSend (s : State) (part fromK toK : Nat) (req : Option (BitVec 16)) (bytes : Nat) (msg : RingMsg) : State :=
  sendPkt s (baseDie fromK) (baseDie toK) (stackStop fromK) (stackStop toK) part req bytes msg

/-- R388, R393: a JTRADE performed: every line fresh for the next trade to every other replica. Its lane keeps how many trades had been taken, and for each stack how many acknowledgements are due (DEDUCED, log 38). -/
def jtradeGo (s : State) (g : Group) (o : Op) (r : Region) : State :=
  let part := partOf s g
  let k := stackOf s g
  let ks := stacksOf (partAt s part)
  let others := ks.filter (· != k)
  if others.isEmpty then modOp s o.id (fun o => { o with lanes := o.lanes.map (fun y => { y with st := .valued, val := [1] }) })
  else
    let ps := packetsOf (linesSent s part r k (freshLines r ks.length k r.taken))
    let rels := (replicaAt r k).rels
    let s := others.foldl (fun s t => ps.foldl (fun s ls => latSend s part k t none (tradeBytes ls) (.jtrade o.id part r.num r.inst r.taken k t ps.length ls rels)) s) s
    let due := (List.range Config.numStacks).map (fun t => if others.contains t then BitVec.ofNat 32 ps.length else 0)
    modOp s o.id (fun o => { o with lanes := o.lanes.map (fun y => { y with st := .peer, val := [0], data := BitVec.ofNat 32 r.taken :: due }) })

/-- R383, R397: LATTICE_LANE_PERFORMED: the next lane of an operation, in lane order, once its request can be delivered and its cell's line is in the engine's cache; a lane sent before a reset of its die is performed. -/
def execLatticeLanePerformed (op : Nat) (s : State) : Out :=
  match getOp s op with
  | none => .next s
  | some o =>
    match o.lanes.find? (fun x => x.st == .sent), getG s o.g with
    | some x, some g =>
      match latRegion s x.loc with
      | none => .next s
      | some (r, off) =>
        let k := stackOf s g
        let line : CellLine := ⟨partOf s g, r.num, off / 64⟩
        if latBehind s o || !mayReach s (opSrc s o) (baseDie k) then .next s
        else if o.kind = .jtrade then .next (jtradeGo s g o r)
        else if orderFree s o x && (nth s.cellCache k []).contains line then .next (latLane (cellUse s k line) g o x r off)
        else .next s
    | _, _ => .next s

/-- R396: LATTICE_REPLY: the values of performed lanes written; d5 falls once every lane's is; a reply that finds its die reset since is dropped (R23, R397). -/
def execLatticeReply (op : Nat) (s : State) : Out :=
  match getOp s op with
  | none => .next s
  | some o =>
    let k := (((getG s o.g).map (stackOf s)).getD 0)
    let vs := o.lanes.filter (fun x => x.st == .valued)
    if o.kind == .jtrade || o.lanes.any (fun x => x.st == .sent) || !frameHere s o.g || vs.isEmpty then .next s
    else if replyStale s (opSrc s o) then .next (vs.foldl (fun s x => dropLane s o x.lane (opSrc s o).1) s)
    else if !pathOpen s (baseDie k) (opSrc s o).1 then .next s
    else
      let s1 := vs.foldl (fun s x => setLane (returnValue s o x.lane x.val) op x.lane (fun y => { y with st := .performed })) s
      match getOp s1 op with
      | some o1 => .next (if o1.lanes.all (fun x => x.st == .performed || x.st == .failed) then opEnd s1 op else s1)
      | none => .next s1

/-- The waiting lanes of an operation that have been reached move on; entry says which kind (R386, R387). -/
def thresholdGo (op : Nat) (entry : Bool) (s : State) : State :=
  match s.groups.find? (fun g => match g.park with
      | .awaitCell w => w.op == op && w.entry == entry && w.got.isSome
      | _ => false) with
  | some g =>
    match g.park with
    | .awaitCell w =>
      if g.halted then s
      else wakeWith (acquireAct s g) g.id w.d w.eff (valWords (if w.wide then 8 else 4) ((w.got.getD 0).toNat))
    | _ => s
  | none =>
    match getOp s op with
    | none => s
    | some o =>
      if o.kind != .jld then s
      else match getG s o.g, o.lanes.any (fun x => x.st == .waiting entry && !x.val.isEmpty) with
        | some g, true =>
          modOp (acquireAct s g) op (fun o => { o with lanes := o.lanes.map (fun x =>
            if x.st == .waiting entry && !x.val.isEmpty then { x with st := .valued } else x) })
        | _, _ => s

/-- R386: THRESHOLD_REACHED. -/
def execThresholdReached (op : Nat) (s : State) : Out := .next (thresholdGo op true s)
/-- R387: THRESHOLD_POLL (DESIGN CHOICE, log 80). -/
def execThresholdPoll (op : Nat) (s : State) : Out := .next (thresholdGo op false s)

/-! ## AWAIT (R321) -/

/-- R321, R387: an AWAIT on a cell of region r parked, or over where its first reading has reached the target; one that meets an uncorrectable error waits for nothing, and its group takes the trap at its next switch point (R397) (DEDUCED, log 39). -/
def awaitCellState (s : State) (x : GM) (c : Clause) (word : W64) (f : FormM) (nB : Nat) (eff : Mask) (q part region off : Nat) (r : Region) : State :=
  let k := stackOf s x.g
  let t := rdOpd x f.b (if nB = 2 then .z64 else .z32) ((lowLane eff).getD 0)
  let i := off / cellBytes r.ty
  let v := latValue r.ty (cellRd r k i)
  let w : CellWait :=
    { op := s.nextId, part := part, region := region, cell := i, ptr := BitVec.ofNat 64 q, t := BitVec.ofNat 64 t, d := dstOf x.g f.d f.sn,
      eff := eff, wide := nB == 2, entry := decide (thresholdsUsed s k < 1024),
      got := if latReached r.ty v t then some (BitVec.ofNat 64 v) else none }
  let s0 := { putGM s (memDone x c f nB eff) with nextId := s.nextId + 1 }
  let bad : PendTrap := { kept := false, cause := 0x10, sub := 1, lanes := eff, addr := BitVec.ofNat 64 q, word := word }
  if badReplica s part region k off (cellBytes r.ty) then modG s0 x.g.id (fun g => { g with pendTraps := g.pendTraps ++ [bad] })
  else
    let s1 := parkWait s0 x.g.id (.awaitCell w) f.gd.sw
    if w.got.isSome then thresholdGo w.op w.entry (learnLanes s1 x.g.id (lanesOf eff) (cellView r k i)) else s1

/-- AWAIT on a cell, its region looked up (DEDUCED, log 39). -/
def awaitCellGo (s : State) (x : GM) (c : Clause) (word : W64) (f : FormM) (nB : Nat) (eff : Mask) (q part region off : Nat) : Out :=
  match regionAt s part region with
  | none => stallOut s x.g .stall
  | some r => .next (awaitCellState s x c word f nB eff q part region off r)

/-- R321: AWAIT (DEDUCED, log 39). -/
def execAwait (f : FormM) (s : State) : Out :=
  let nB := if f.size = 3 then 2 else 1
  memIssue s 0xA5 f 2 nB nB (fun s x c word eff =>
    let l := (lowLane eff).getD 0
    match laneAddr x f l with
    | (p, none) => objTrap s x c word eff .capability 0 p
    | (_, some q) =>
      match checkPtr s x.g q (sizeBytes f) 0 true with
      | .ok (.lat part region off) =>
        if off % ((regionAt s part region).map (fun r => cellBytes r.ty)).getD 1 != 0 then objTrap s x c word eff .misalignedAtomic 0 q
        else if earlierAt s x.g.id eff (.lat part region off) (max (sizeBytes f) (if isGcount s (.lat part region off) then 64 else 0)) then stallOut s x.g .stall
        else awaitCellGo s x c word f nB eff q part region off
      | r => match objPlace q 32 r with
        | .wait p => stallOut s x.g p
        | .trap cause sub a => objTrap s x c word eff cause sub a
        | .go q k => phaseGo s x c word eff f nB q k (fun k q p d eff => .awaitPhase k q p d eff f.scope (nB == 2)) phaseReached (nB == 2))

/-! ## Trades (R390-R393) -/

/-- A snapshot taken at a replica. -/
def takeSnap (r : Region) (k : Nat) : Region := { r with reps := r.reps.map (fun p => if p.stack = k then { p with snaps := p.snaps + 1 } else p) }

/-- R390: the ranks that rank ρ sends to in trade m of n. -/
def partners (sched n m ρ : Nat) : List Nat :=
  match sched with
  | 0 => if n = 2 then [1 - ρ] else [(ρ + n - 1) % n, (ρ + 1) % n]
  | 1 => [ρ ^^^ 2 ^ (m % Nat.log2 n)]
  | _ => if ρ = 0 then (List.range n).tail else [0]

/-- One replica's lines of trade m sent to its partners (R391): with their packets the acknowledgements that are due rise. -/
def tradeSend (part : Nat) (ks : List Nat) (num m : Nat) (s : State) (ρ : Nat) : State :=
  match regionAt s part num with
  | none => s
  | some r =>
    let k := nth ks ρ 0
    let ps := packetsOf (linesSent s part r k (freshLines r ks.length k m))
    let rels := (replicaAt r k).rels
    let qs := partners r.sched ks.length m ρ
    let s1 := qs.foldl (fun s q => ps.foldl (fun s ls => latSend s part k (nth ks q 0) none (tradeBytes ls) (.trade part num r.inst m k (nth ks q 0) ps.length ls rels)) s) s
    modRegion s1 part num (fun r => { takeSnap r k with trade := r.trade.map (fun t => { t with acks := t.acks + qs.length * ps.length }) })

/-- R390: TRADE_INSTANT: at a multiple of PERIOD not yet used, a trade is taken unless the last is incomplete. -/
def execTradeInstant (part region : Nat) (s : State) : Out :=
  match regionAt s part region with
  | none => .next s
  | some r =>
    let ks := stacksOf (partAt s part)
    let n := ks.length
    let now := s.tick / r.period * r.period
    if n ≤ 1 || now ≤ r.lastInstant then .next s
    else if r.trade.isSome then .next (modRegion s part region (fun r => { r with lastInstant := now }))
    else
      let ρs := (List.range n).filter (fun ρ => r.sched != 2 || ρ != 0)
      let t : Trade := { m := r.taken, acks := 0, spokes := if r.sched = 2 then ks.tail else [], hubSent := r.sched != 2 }
      let s1 := modRegion s part region (fun r => { r with lastInstant := now, taken := r.taken + 1, trade := some t })
      .next (ρs.foldl (tradeSend part ks region r.taken) s1)

/-- Trade lines joined into a replica as one change, with what their sender includes (R391, R394). -/
def applyLines (s : State) (part num k : Nat) (ls : List TradeLine) (rels : List (Nat × View)) : State :=
  latChange s part num k (fun r => includeRels ((ls.flatMap TradeLine.vals).foldl (fun r c => cellJoin r k c.1 c.2) r) k rels)

/-- What a trade packet is part of: its header but for its lines, and how many packets there are (R391). -/
def tradeHead (m : RingMsg) : Option (RingMsg × Nat) :=
  match m with
  | .trade part num inst m fromK toK n _ _ => some (.trade part num inst m fromK toK n [] [], n)
  | .jtrade op part num inst m fromK toK n _ _ => some (.jtrade op part num inst m fromK toK n [] [], n)
  | _ => none

/-- The delivered packets with one header, each with its message. -/
def partsOf (s : State) (h : RingMsg) : List Pkt := s.pkts.filter (fun q => q.delivered && (tradeHead q.msg).map (·.1) == some h)

/-- The lines of a trade packet. -/
def linesOfMsg (m : RingMsg) : List TradeLine :=
  match m with
  | .trade _ _ _ _ _ _ _ ls _ | .jtrade _ _ _ _ _ _ _ _ ls _ => ls
  | _ => []

/-- Whether a lattice message is about the region that now has its number (R391-R393). -/
def liveInst (s : State) (part num inst : Nat) : Bool := (regionAt s part num).any (fun r => r.inst == inst)

/-- R391, R394: TRADE_PACKET_APPLY: all that one sender sends in one trade is there: it is applied as one change, and each packet acknowledged; that of a JTRADE once the trades taken before it are complete (DEDUCED, log 38). The packets of a region that has been destroyed change nothing (DEDUCED, log 38). -/
def execTradePacketApply (pkt : Nat) (s : State) : Out :=
  match getPkt s pkt with
  | none => .next s
  | some p =>
    match p.delivered, tradeHead p.msg with
    | true, some (h, n) =>
      let ps := partsOf s h
      let s1 := ps.foldl (fun s q => delPkt s q.id) s
      let ls := ps.flatMap (fun q => linesOfMsg q.msg)
      if ps.length < n then .next s
      else match p.msg with
      | .trade part num inst m fromK toK _ _ rels =>
        if !liveInst s part num inst then .next s1
        else
          let s2 := modRegion (applyLines s1 part num toK ls rels) part num (fun r =>
            { r with trade := r.trade.map (fun t => { t with spokes := t.spokes.filter (· != fromK) }) })
          .next (ps.foldl (fun s q => latSend s part toK fromK (some q.incarn) 0 (.tradeAck part num inst m toK fromK)) s2)
      | .jtrade op part num inst m fromK toK _ _ rels =>
        if liveInst s part num inst && (regionAt s part num).any (fun r => decide (r.completed < m)) then .next s
        else .next (ps.foldl (fun s q => latSend s part toK fromK (some q.incarn) 0 (.jtradeAck op toK))
          (if liveInst s part num inst then applyLines s1 part num toK ls rels else s1))
      | _ => .next s
    | _, _ => .next s

/-- R393: STAR_HUB_SEND: rank 0 under star takes its second snapshot and sends, once every spoke's lines are applied. -/
def execStarHubSend (part region : Nat) (s : State) : Out :=
  match regionAt s part region with
  | none => .next s
  | some r =>
    match r.trade with
    | none => .next s
    | some t =>
      if t.hubSent || !t.spokes.isEmpty then .next s
      else
        let ks := stacksOf (partAt s part)
        let s1 := modRegion s part region (fun r => { r with trade := r.trade.map (fun t => { t with hubSent := true }) })
        .next (tradeSend part ks region t.m s1 0)

/-- An acknowledgement of a packet of trade m counted: the last completes the trade (R393); one of another trade, or of a region that had the number before, counts for nothing. -/
def ackTrade (inst m : Nat) (r : Region) : Region :=
  match r.trade with
  | none => r
  | some t =>
    if r.inst != inst || t.m != m then r
    else if t.acks ≤ 1 && t.hubSent then { r with trade := none, completed := r.completed + 1 } else { r with trade := some { t with acks := t.acks - 1 } }

/-- R393: TRADE_ACK: the last acknowledgement completes a trade, or leaves a JTRADE complete. -/
def execTradeAck (pkt : Nat) (s : State) : Out :=
  match getPkt s pkt with
  | none => .next s
  | some p =>
    if !p.delivered then .next s
    else match p.msg with
      | .tradeAck part num inst m _ _ => .next (modRegion (delPkt s pkt) part num (ackTrade inst m))
      | .jtradeAck op t =>
        .next (modOp (delPkt s pkt) op (fun o => { o with lanes := o.lanes.map (fun y => { y with data := y.data.modify (t + 1) (· - 1) }) }))
      | _ => .next s

/-- R388: whether a JTRADE is complete: alone on its stack, or every acknowledgement has come and every trade taken before it is complete. -/
def jtradeOver (s : State) (o : Op) : Bool :=
  o.lanes.all (fun y => y.st == .valued || (match y.data, latRegion s y.loc with
    | t :: due, some (r, _) => due.all (· == 0) && decide (t.toNat ≤ r.completed)
    | _ :: due, none => due.all (· == 0)
    | [], _ => false))

/-- R393: JTRADE_COMPLETE. -/
def execJtradeComplete (op : Nat) (s : State) : Out :=
  match getOp s op with
  | none => .next s
  | some o =>
    if o.kind == .jtrade && jtradeOver s o && frameHere s o.g then .next (cmdReturn s o ((o.lanes.head?.map LaneOp.val).getD [])) else .next s

end Sys2Proof.Machine
end

