-- ==== Sys2Proof/Machine/Streamer.lean ====
section
/-! DEFINITION. Sys2Proof/Machine/Streamer.lean: the core and bulk streamers: request blocks and their checks, acceptance, line reads and landings, credits, failures (R330-R344). -/

namespace Sys2Proof.Machine

/-! ## The request block (R330, R331) -/

/-- A request block's fields (R330). -/
structure Blk where
  src : Nat
  dst : Nat
  aux : Nat
  gcnt : Nat
  rsv : Nat
  n0 : Nat
  edesc : Nat
  mode : Nat
  n1 : Nat
  n2 : Nat
  n3 : Nat
  ss : List Int
  ds : List Int
  deriving DecidableEq, Repr

/-- A block from its 64 bytes (R330). -/
def blkOf (w : Nat) : Blk :=
  { src := bits w 63 0, dst := bits w 127 64, aux := bits w 191 128, gcnt := bits w 223 192, rsv := bits w 231 224, n0 := bits w 255 232,
    edesc := bits w 263 256, mode := bits w 271 264, n1 := bits w 287 272, n2 := bits w 303 288, n3 := bits w 319 304,
    ss := [sext (bits w 351 320) 32, sext (bits w 383 352) 32, sext (bits w 415 384) 32],
    ds := [sext (bits w 447 416) 32, sext (bits w 479 448) 32, sext (bits w 511 480) 32] }

/-- R331: the unit of an element descriptor, or none where it is refused. -/
def unitOf (e : Nat) : Option Nat :=
  let fmt := e % 32
  let n := if e / 32 = 1 ∨ e / 32 = 3 then 16 else 32
  match e / 32 with
  | 0 =>
    match fmt with
    | 0 => some 4
    | 1 | 2 => some 2
    | 3 | 4 | 7 | 8 | 9 => some 1
    | _ => none
  | 1 | 2 | 3 | 4 =>
    match fmt with
    | 3 | 4 | 8 => some n
    | 7 | 9 => some (n / 2)
    | _ => if 16 ≤ fmt ∧ fmt ≤ 22 ∧ e / 32 ≤ 2 then some (n * (fmt - 14) / 8) else none
  | _ => none

/-- R331: the alignment of offsets and strides for a unit. -/
def unitAlign (u : Nat) : Nat := if u % 16 = 0 then 16 else if u % 8 = 0 then 8 else if u % 4 = 0 then 4 else if u % 2 = 0 then 2 else 1

/-- Whether a form takes an index list. -/
def indexed (f : CopyForm) : Bool :=
  match f with
  | .gath | .scat => true
  | .cpy | .cfill => false

/-- R334: whether SRC, DST and AUX lie in spaces that the form allows; a field that the form does not use must be 0, and takes the same refusal where it is not (R336; DESIGN CHOICE, log 102). -/
def blkSpaces (form : CopyForm) (b : Blk) : Bool :=
  let inn := fun (p : Nat) (l : List Nat) => l.contains (ptrSpace p)
  let list := inn b.aux (if bit b.mode 0 then [2, 3] else [1, 2, 3])
  match form with
  | .cpy => inn b.src [1, 8, 2, 3, 5] && inn b.dst [1, 8, 2, 3, 5, 6] && b.aux == 0
  | .gath => inn b.src [1, 8, 2, 3] && inn b.dst [1, 8, 2, 3, 5, 6] && list
  | .scat => inn b.src [2, 3, 5] && inn b.dst [1, 8, 2, 3] && list
  | .cfill => b.src == 0 && inn b.dst [1, 8, 2, 3, 5, 6]

/-- The strides in use (R330): those of a dimension with a count above 1, and the one an index multiplies, whatever its count (DESIGN CHOICE, log 100). -/
def stridesUsed (form : CopyForm) (b : Blk) : List Int :=
  let used := fun (ss : List Int) (idx : Bool) =>
    ((ss.zip [b.n1, b.n2, b.n3]).zipIdx.filter (fun x => decide (1 < x.1.2) || (idx && x.2 == 0))).map (fun x => x.1.1)
  (if form = .cfill then [] else used b.ss (form == .gath)) ++ used b.ds (form == .scat)

/-- The pointers of a block's fields. -/
def blkPtrs (form : CopyForm) (b : Blk) : List Nat := b.src :: b.dst :: (if indexed form then [b.aux] else [])

/-- Whether a block's index list is read at acceptance, in FAULT mode (R333, R335). -/
def faultMode (form : CopyForm) (b : Blk) : Bool := bit b.mode 0 && indexed form

/-- R332: the total bytes. -/
def blkBytes (b : Blk) (u : Nat) : Nat := b.n0 * u * b.n1 * b.n2 * b.n3

/-- R336: the refusals 0x22 to 0x29 in their order; a GCNT that is not 0 where GPRES is 0 (R330) takes 0x22 (DEDUCED, log 89). -/
def blkRefusal (s : State) (part : Nat) (form : CopyForm) (bulk : Bool) (b : Blk) (bar : Option Nat) : Option Nat :=
  if b.rsv != 0 || 32 ≤ b.mode || bits b.mode 2 1 == 3 || b.n0 == 0 || b.n1 == 0 || b.n2 == 0 || b.n3 == 0 ||
      (indexed form && (b.n2 != 1 || b.n3 != 1)) || (!bit b.mode 3 && b.gcnt != 0) then some 0x22
  else match unitOf b.edesc with
    | none => some 0x23
    | some u =>
      if !blkSpaces form b then some 0x24
      else if (form != .cfill && ptrOff b.src % unitAlign u != 0) || ptrOff b.dst % unitAlign u != 0 ||
          (stridesUsed form b).any (fun x => x % (unitAlign u : Int) != 0) then some 0x25
      else if 2 ^ 40 ≤ blkBytes b u then some 0x26
      else if bulk && !((ptrSpace b.dst == 1 || ptrSpace b.dst == 8) && (form == .cfill || ptrSpace b.src == 1 || ptrSpace b.src == 8)) then some 0x27
      else if (match bar with
          | some p => !isScratch p
          | none => bits b.mode 2 1 != 0) then some 0x28
      else if bit b.mode 3 && (match regionAt s part (b.gcnt / 2 ^ 20) with
          | some r => r.ty != 6 || decide (r.cells ≤ b.gcnt % 2 ^ 20)
          | none => true) then some 0x29
      else none

/-! ## Units (R332) -/

/-- The lowest and the highest end of a side's offsets (R332). -/
def extEnds (b : Blk) (u : Nat) (ss : List Int) : Int × Int :=
  let ms := (ss.zip [b.n1, b.n2, b.n3]).map (fun x => x.1 * ((x.2 : Int) - 1))
  ((ms.map (fun m => min m 0)).foldl (· + ·) 0, (ms.map (fun m => max m 0)).foldl (· + ·) ((b.n0 * u : Nat) : Int))

/-- A side without an index checked whole. -/
def sideChk (s : State) (g : Group) (b : Blk) (u p : Nat) (rights : BitVec 4) (ss : List Int) : ExtRes :=
  let e := extEnds b u ss
  extChk s g p rights u (b.n0 * b.n1 * b.n2 * b.n3) (fun i => unitOff u b.n0 b.n1 b.n2 ss i none) e.1 e.2

/-- The number of bytes that a pointer's object, scratchpad or range holds (R333) (DEDUCED, log 42). -/
def ptrLimit (s : State) (g : Group) (p : Nat) : Nat :=
  match ptrSpace p with
  | 1 => ((objCached s (coreOf s g) (.g (ptrF1 p))).map ObjEnt.len).getD 0
  | 2 | 3 => ((ctxAtRank s g.team (ptrF1 p)).map Ctx.scratch).getD 0
  | 8 => (partAt s (partOf s g)).ulim.toNat
  | _ => 0

/-- The place of a pointer's own byte where an index reaches from it: its object must be there with the right (R333); a missing right gives the field's own pointer as ADDR (R335; DESIGN CHOICE, log 101). -/
def baseChk (s : State) (g : Group) (p : Nat) (rights : BitVec 4) : ExtRes :=
  match missOf (checkPtr s g p 0 rights true) with
  | some w => .wait w
  | none =>
    match (ptrAdd p (-(ptrOff p : Int))).bind (fun q => locOf (checkPtr s g q 0 rights true)) with
    | some l => .ok (locShift l (ptrOff p : Int))
    | none => .bad p

/-! ## Acceptance (R334, R335, R337) -/

/-- R31: whether a group holds feed rights. -/
def feedRights (s : State) (g : Group) : Bool :=
  g.feed || !(match gridOf s g with
    | some gr => gr.lr.roles.any Role.feed
    | none => false)

/-- The core a request stands on. -/
def reqCore (s : State) (r : Req) : Nat := coreOfCtx s r.ctx

/-- The requests in a core streamer's queue (R335, R342). -/
def coreQueue (s : State) (core : Nat) : List Req := s.reqs.filter (fun r => reqCore s r == core && r.state != .bulk && !(r.state == .stopped && r.bulk))

/-- The presence bits that an accepted request clears (R337): the whole destination, or under SCAT the rows whose entries are read. -/
def absentAtStart (r : Req) : List (Nat × Nat) :=
  (List.range (reqUnits r)).foldl (fun a i =>
    if r.form = .scat && unitDo r i != .move then a else markAbsent a (unitDst r i) r.unit) []

/-- The sender of a request's accesses: the core's die, or the base die of the bulk streamer that has it (R22, R342). -/
def reqSrc (s : State) (r : Req) : Sender :=
  match r.bs with
  | some b => senderNow s (b / 8)
  | none => (coreDie (reqCore s r), r.inc)

/-- What bytes at a place meet for a request. -/
def reqPlace (s : State) (r : Req) (l : Loc) (n : Nat) : Reach := enginePlace s (reqSrc s r) r.team r.ctx l n

/-- The level of the streamer that executes a request (R124). -/
def reqLevel (r : Req) : EngLevel := if r.bulk then .dev else .team

/-- The engine that works on a request (R339). -/
def reqEng (s : State) (r : Req) : Eng := engOf s (reqLevel r) r.id r.g r.lane r.team r.ctx r.part r.scope

/-- A 4-byte index entry read at a place, old or new as a whole (R333). -/
def entryAt (s : State) (e : Eng) (l : Loc) (j : Nat) : State × Nat :=
  let r := engineRdU s e false 4 (locShift l (4 * j : Nat)) 4
  (r.1, leValue r.2)

/-- Index entries read one after another: those at the positions listed. -/
def entriesAt (s : State) (e : Eng) (l : Loc) (js : List Nat) : State × List (Nat × Nat) :=
  js.foldl (fun st j => let r := entryAt st.1 e l j; (r.1, st.2 ++ [(j, r.2)])) (s, [])

/-- A request that knows some of its entries. -/
def withEntries (r : Req) (es : List (Nat × Nat)) : Req :=
  { r with idx := r.idx.zipIdx.map (fun x => if x.1.isNone then (es.find? (fun e => e.1 == x.2)).map (·.2) else x.1) }

/-- The extents and rights of a block in field order (R335), with the places of SRC, DST and the list. -/
structure BlkLocs where
  src : Loc
  dst : Loc
  list : Loc
  deriving DecidableEq, Repr

/-- R488 check 6: the fields' extents. -/
def blkExtents (s : State) (g : Group) (form : CopyForm) (b : Blk) (u : Nat) : ExtRes × BlkLocs :=
  let none' : Loc := .pool 0
  let rs := match form with
    | .cfill => ExtRes.ok none'
    | .gath => baseChk s g b.src 1
    | .cpy | .scat => sideChk s g b u b.src 1 b.ss
  let rd := match form with
    | .scat => baseChk s g b.dst 2
    | .cpy | .gath | .cfill => sideChk s g b u b.dst 2 b.ds
  let ra := if indexed form then extChk s g b.aux 1 4 b.n1 (fun i => ((4 * i : Nat) : Int)) 0 ((4 * b.n1 : Nat) : Int) else ExtRes.ok none'
  match rs, rd, ra with
  | .wait p, _, _ => (.wait p, ⟨none', none', none'⟩)
  | _, .wait p, _ => (.wait p, ⟨none', none', none'⟩)
  | _, _, .wait p => (.wait p, ⟨none', none', none'⟩)
  | .bad a, _, _ => (.bad a, ⟨none', none', none'⟩)
  | _, .bad a, _ => (.bad a, ⟨none', none', none'⟩)
  | _, _, .bad a => (.bad a, ⟨none', none', none'⟩)
  | .ok x, .ok y, .ok z => (.ok x, ⟨x, y, z⟩)

/-- A request as its block, group and places give it, no index entry read. -/
def newReq (s : State) (x : GM) (eff : Mask) (form : CopyForm) (bulk : Bool) (scope : Scope) (b : Blk) (u : Nat) (ls : BlkLocs) (bar : Option Nat) : Req :=
  let n1 := b.n1
  { id := s.nextId, inc := (dieAt s (coreDie (coreOf s x.g))).incarn, g := x.g.id, ctx := x.g.ctx, part := partOf s x.g, team := x.g.team, lane := (lowLane eff).getD 0, form := form, bulk := bulk,
    scope := scope, unit := u, n0 := b.n0, n1 := n1, n2 := b.n2, n3 := b.n3, ss := b.ss, ds := b.ds, src := ls.src, dst := ls.dst, list := ls.list,
    soff := ptrOff b.src, doff := ptrOff b.dst, lim := ptrLimit s x.g (if form = .gath then b.src else b.dst), fill := BitVec.ofNat 64 b.aux,
    bcred := bits b.mode 2 1, gone := bit b.mode 4, gcnt := if bit b.mode 3 then some (b.gcnt / 2 ^ 20, b.gcnt % 2 ^ 20) else none, bar := bar, bs := none,
    idx := if indexed form then List.replicate n1 none else [],
    state := .queued, next := 0, lines := [], absent := [], landed := 0, credited := 0, sinceCredit := 0, zeros := 0, zerosSent := 0, err := false,
    killed := false, finalSent := false, gdone := false, pageAt := none }

/-- R335: in FAULT mode, the first row in list order that is out of range (DEDUCED, log 42). -/
def faultRow (r : Req) : Option Nat :=
  (List.range r.n1).find? (fun j => match nth r.idx j none with
    | some e => e != skipEntry && !entryIn r e
    | none => false)

/-- The pointer to a row that an entry selects; the field's own pointer where there is no such pointer (DEDUCED, log 42). -/
def rowPtr (form : CopyForm) (b : Blk) (e : Nat) : Nat :=
  if form = .gath then (ptrAdd b.src ((e : Int) * nth b.ss 0 0)).getD b.src else (ptrAdd b.dst ((e : Int) * nth b.ds 0 0)).getD b.dst

/-- Whether a place is in a pool with presence bits (R337). -/
def inPresence (l : Loc) : Bool :=
  match l with
  | .pool k => hasPresence k
  | .uni _ _ | .lat _ _ _ | .peer _ _ _ | .mcast _ _ _ => false

/-- The largest stamp that a view can hold: every access of a party. -/
def allStamps : Nat := 2 ^ 128

/-- R335 step 5: the request enters the queue, with what happens before the command (R145); its lanes' later loads find its lines absent or landed (R143, R144); D gets the free entries. -/
def copyAccept (s : State) (x : GM) (c : Clause) (f : FormQ) (nB : Nat) (eff : Mask) (r : Req) : State :=
  let free := 31 - (coreQueue s (coreOf s x.g)).length
  let s0 := learn s (engineNo r.id) (cmdView s r.g r.lane (reqLevel r))
  let s0 := if inPresence r.dst then learnLanes s0 x.g.id (lanesOf eff) [(engineNo r.id, allStamps)] else s0
  let s1 := putGM s0 (schedQ (qDone x c f 2 nB) x.g.pos 4 f 1 eff free)
  { s1 with nextId := s.nextId + 1, reqs := s1.reqs ++ [{ r with absent := absentAtStart r }] }

/-- R335, R488: CPY, GATH, SCAT and CFILL: the checks in their order, then acceptance. -/
def copyIssue (op : Nat) (form : CopyForm) (f : FormQ) (s : State) : Out :=
  let nB := if f.b = .zero then 0 else 2
  qIssue s op f 2 nB 1 (fun s x c word eff =>
    let l := (lowLane eff).getD 0
    let g := x.g
    let core := coreOf s g
    let since := waitSince s .streamer g
    let p := rdOpd x f.a .b64 l
    let bar := if f.b = .zero then none else some (rdOpd x f.b .b64 l)
    let bulk := f.sub.getLsbD 0
    if form != .cfill && !feedRights s g then trapOut (putGM s x) x.g c word .feedRights 0 eff 0
    else if 32 ≤ (coreQueue s core).length || s.groups.any (fun h => waitsBefore s .streamer g h since) then stallOut s x.g (.entryWait .streamer since)
    else match blockChk s g p isScratch with
      | .refuse => refuseOut s x c word eff 0x21 p
      | .bad => addrOut s x c word eff .capability p
      | .wait w => stallOut s x.g w
      | .go k =>
        if earlierAt s g.id eff (.pool k) 64 then stallOut s x.g .stall
        else
          let b := blkOf (memRdV s.mem k 64)
          let s := consultAll s g (blkPtrs form b)
          match blkRefusal s (partOf s g) form bulk b bar, unitOf b.edesc with
          | some sub, _ => refuseOut s x c word eff sub p
          | none, none => refuseOut s x c word eff 0x23 p
          | none, some u =>
            match blkExtents s g form b u with
            | (.wait w, _) => stallOut s x.g w
            | (.bad a, _) => addrOut s x c word eff .capability a
            | (.ok _, ls) =>
              let r0 := newReq s x eff form bulk f.scope b u ls none
              if faultMode form b && earlierAt s g.id eff ls.list (4 * b.n1) then stallOut s x.g .stall
              else
              let es := entriesAt s (reqEng s r0) ls.list (if faultMode form b then List.range b.n1 else [])
              let s := es.1
              let r := withEntries r0 es.2
              match (faultRow r).bind (fun j => nth r.idx j none) with
              | some e => addrOut s x c word eff .capability (rowPtr form b e)
              | none =>
                match barChk s g bar with
                | .wait w => stallOut s x.g w
                | .bad a => addrOut s x c word eff .capability a
                | .misaligned a => addrOut s x c word eff .misalignedAtomic a
                | .none => .next (copyAccept s x c f nB eff r)
                | .go bk => .next (copyAccept s x c f nB eff { r with bar := some bk }))

/-- R334: CPY. -/
def execCpy (f : FormQ) (s : State) : Out := copyIssue 0xB0 .cpy f s
/-- R334: GATH. -/
def execGath (f : FormQ) (s : State) : Out := copyIssue 0xB1 .gath f s
/-- R334: SCAT. -/
def execScat (f : FormQ) (s : State) : Out := copyIssue 0xB2 .scat f s
/-- R334: CFILL. -/
def execCfill (f : FormQ) (s : State) : Out := copyIssue 0xB3 .cfill f s

/-! ## Running a request (R339, R340) -/

/-- A request by its number. -/
def getReq (s : State) (i : Nat) : Option Req := s.reqs.find? (fun r => r.id == i)

/-- Whether n bytes at a place lie in one line. -/
def inLine (l : Loc) (n : Nat) : Bool := locLine l == locLine (locShift l ((n - 1 : Nat) : Int))

/-- R340: how many units from i on form the run of one line: the source's for moves, the destination's for writes. -/
def runLen (r : Req) (k : UnitDo) (line : Loc) : Nat → Nat → Nat
  | 0, _ => 0
  | n + 1, i =>
    let l := if k = .move then unitSrc r i else unitDst r i
    if unitDo r i = k ∧ locLine l = line ∧ inLine l r.unit = true then 1 + runLen r k line n (i + 1) else 0

/-- The run that starts at a unit: its length, at least one. -/
def runAt (r : Req) (i : Nat) : Nat :=
  let k := unitDo r i
  max 1 (runLen r k (locLine (if k = .move then unitSrc r i else unitDst r i)) (reqUnits r - i) i)

/-- Whether an earlier access of the issuing lane to some bytes is not yet performed (R145). -/
def reqBehind (s : State) (r : Req) (l : Loc) (n : Nat) : Bool := engineBehind s (reqLevel r) r.g r.id r.lane l n

/-- Whether a request may still write a line: one of its lines in flight, or one of its units not yet issued; an entry not yet read may name any (R339). -/
def reqWrites (r : Req) (line : Loc) : Bool :=
  r.lines.any (fun l => l.bytes.any (fun b => locLine b.1 == line)) ||
  (List.range (reqUnits r - r.next)).any (fun j =>
    let i := r.next + j
    match unitDo r i with
    | .unread => r.form == .scat || locLine (unitDst r i) == line || locLine (locShift (unitDst r i) ((r.unit - 1 : Nat) : Int)) == line
    | .skip | .drop => false
    | .zero | .move | .fill => locLine (unitDst r i) == line || locLine (locShift (unitDst r i) ((r.unit - 1 : Nat) : Int)) == line)

/-- The earlier requests of the same core streamer that it runs itself (R339). -/
def earlierReqs (s : State) (r : Req) : List Req := s.reqs.filter (fun e => decide (e.id < r.id) && !e.bulk && !r.bulk && reqCore s e == reqCore s r)

/-- Whether a place is one that the core streamer orders when it issues: G, H and O (R339). -/
def orderedAtIssue (l : Loc) : Bool :=
  match l with
  | .pool k => !hasPresence k
  | .uni _ _ => true
  | .lat _ _ _ | .peer _ _ _ | .mcast _ _ _ => false

/-- The entries of the index line that a request reads next: those of the line that holds the next unit's entry (R340). -/
def listRun (r : Req) : List Nat :=
  let j0 := rowOf r r.next
  let line := fun (j : Nat) => locLine (locShift r.list ((4 * j : Nat) : Int))
  (List.range r.n1).filter (fun j => decide (j0 ≤ j) && (nth r.idx j none).isNone && line j == line j0)

/-- The places that the next run of a request touches, with their sizes. -/
def nextPlaces (r : Req) : List (Loc × Nat) :=
  if r.next < reqUnits r then
    match unitDo r r.next with
    | .unread => (listRun r).map (fun j => (locShift r.list ((4 * j : Nat) : Int), 4))
    | .skip | .drop => []
    | k =>
      (List.range (runAt r r.next)).flatMap (fun j =>
        (if k = .move then [(unitSrc r (r.next + j), r.unit)] else []) ++ [(unitDst r (r.next + j), r.unit)])
  else []

/-- What a request's next step meets: a granule missing under a line that waits to land, else what its next run touches. -/
def reqReach (s : State) (r : Req) : Reach :=
  match worstReach (r.lines.flatMap (fun l => l.bytes.map (fun b => reqPlace s r b.1 1))) with
  | .page g => .page g
  | _ => worstReach ((nextPlaces r).map (fun x => reqPlace s r x.1 x.2))

/-- R343: the granule that a request must ask for. -/
def reqPage (s : State) (r : Req) : Option Nat :=
  match reqReach s r with
  | .page g => some g
  | .ready | .held | .host => none

/-- A request whose units are all issued gives up its place (R340). -/
def reqIssued (r : Req) : Req := if r.next = reqUnits r && r.state == .active then { r with state := .issued } else r

/-- R333: the entries of the index line that holds a unit's entry, read once; SCAT clears the presence bits of their rows (R337). -/
def readList (s : State) (r : Req) : State :=
  let es := entriesAt s (reqEng s r) r.list (listRun r)
  let r1 := withEntries r es.2
  let fresh := fun i => unitDo r i == .unread && unitDo r1 i == .move
  let absent := if r.form = .scat then
      (List.range (reqUnits r)).foldl (fun a i => if fresh i then markAbsent a (unitDst r1 i) r.unit else a) r.absent
    else r.absent
  modReq es.1 r.id (fun r => { r with idx := r1.idx, absent := absent })

/-- The units left in a row. -/
def rowLeft (r : Req) (i : Nat) : Nat := r.n0 - i % r.n0

/-- R333: a skipped row, or one that SCAT drops: credited, nothing written. -/
def passRow (s : State) (r : Req) : State :=
  let n := rowLeft r r.next
  let out := unitDo r r.next = .drop
  let absent := if r.form = .gath then (List.range n).foldl (fun a j => clearAbsent a (unitDst r (r.next + j)) r.unit) r.absent else r.absent
  modReq s r.id (fun r => reqIssued { r with next := r.next + n, landed := r.landed + n * r.unit, absent := absent, zeros := if out then r.zeros + 1 else r.zeros })

/-- The source bytes of the units of one run, each byte read once (R339). -/
def readRun (s : State) (r : Req) (us : List Nat) : State × List (List Byte) :=
  engineRds s (reqEng s r) false 1 (us.map (fun i => (unitSrc r i, r.unit)))

/-- One run issued: its source line read, or its bytes prepared (R332, R339, R340). -/
def issueRun (s : State) (r : Req) : State :=
  let n := runAt r r.next
  let k := unitDo r r.next
  let us := (List.range n).map (· + r.next)
  let q := if k = .move then readRun s r us
    else (s, us.map (fun _ => if k = .fill then (List.range r.unit).map (fun j => BitVec.ofNat 8 (r.fill.toNat >>> (8 * (j % 8)))) else List.replicate r.unit 0))
  let x := (q.1, (us.zip q.2).flatMap (fun u => placed (unitDst r u.1) u.2))
  let rows := (us.filter (fun i => k == .zero && i % r.n0 == 0)).length
  let line : CopyLine := { id := x.1.nextId, bytes := x.2 }
  modReq { x.1 with nextId := x.1.nextId + 1 } r.id (fun r => reqIssued { r with next := r.next + n, lines := r.lines ++ [line], zeros := r.zeros + rows })

/-- Whether a request's next run may be issued as far as order goes (R145, R339). -/
def runFree (s : State) (r : Req) : Bool :=
  (nextPlaces r).all (fun x => !reqBehind s r x.1 x.2 &&
    (!orderedAtIssue x.1 || (earlierReqs s r).all (fun e => !reqWrites e (locLine x.1) && !reqWrites e (locLine (locShift x.1 ((x.2 - 1 : Nat) : Int))))))

/-- R340: STREAMER_REQUEST_ACTIVE: the first queued request of a core takes one of its four places; none does in a veer's pause (R344). -/
def execStreamerRequestActive (req : Nat) (s : State) : Out :=
  match getReq s req with
  | none => .next s
  | some r =>
    let q := coreQueue s (reqCore s r)
    if r.state == .queued && !r.bulk && (q.find? (fun e => e.state == .queued && !e.bulk)).map Req.id == some req &&
        !(coreAt s (reqCore s r)).paused && decide ((q.filter (fun e => e.state == .active)).length < 4) then
      .next (modReq s req (fun r => reqIssued { r with state := .active }))
    else .next s

/-- A request that goes no further: no further lines, the rest credited with the error mark, presence bits set but for the lines that may still land (R343). -/
def abortReq (s : State) (r : Req) : Req :=
  let lines := r.lines.filter (fun l => !l.bytes.any (fun b => linkLost s r.part b.1 || (match reqPlace s r b.1 1 with
    | .page _ => true
    | .ready | .held | .host => false)))
  let absent := lines.foldl (fun a l => l.bytes.foldl (fun a b => markAbsent a b.1 1) a) []
  if r.finalSent then r
  else if r.killed then { r with lines := lines, absent := absent }
  else { r with err := true, next := reqUnits r, pageAt := none, state := if r.bulk then .bulk else .issued, lines := lines, absent := absent }

/-- Whether a request's next read meets an uncorrectable error: of its source line or index line (R343). -/
def sourceBad (s : State) (r : Req) : Bool :=
  match unitDo r r.next with
  | .unread => (listRun r).any (fun j => badLine s (locShift r.list ((4 * j : Nat) : Int)) 4)
  | .move => (List.range (runAt r r.next)).any (fun j => badLine s (unitSrc r (r.next + j)) r.unit)
  | .skip | .zero | .drop | .fill => false

/-- The places that a request's next run reads: its source line, or its index line (R340). -/
def runReads (r : Req) : List (Loc × Nat) :=
  match unitDo r r.next with
  | .unread => (listRun r).map (fun j => (locShift r.list ((4 * j : Nat) : Int), 4))
  | .move => (List.range (runAt r r.next)).map (fun j => (unitSrc r (r.next + j), r.unit))
  | .skip | .zero | .drop | .fill => []

/-- Whether a request may issue reads: it has its place, its image is in its pool, and its core stands in no veer's pause (R340, R344). -/
def mayRead (s : State) (r : Req) : Bool :=
  (r.state == .bulk || (r.state == .active && !(coreAt s (reqCore s r)).paused)) && r.next != reqUnits r && !ctxOut s r.ctx && runFree s r

/-- A request's next line issued; an uncorrectable error on it aborts the request (R343). -/
def readLine (s : State) (r : Req) : State :=
  if sourceBad s r then modReq s r.id (abortReq s)
  else match unitDo r r.next with
    | .unread => readList s r
    | .skip | .drop => passRow s r
    | .zero | .move | .fill => issueRun s r

/-- R340: STREAMER_LINE_READ: the next line of an active request. One in host memory waits for the host's completion (R426); over a link that is down it aborts the request (R441). -/
def execStreamerLineRead (req : Nat) (s : State) : Out :=
  match getReq s req with
  | none => .next s
  | some r =>
    if !mayRead s r then .next s
    else if (runReads r).any (fun x => linkLost s r.part x.1) then .next (modReq s req (abortReq s))
    else if !(reqReach s r == .ready) || !(hostLines s (runReads r)).isEmpty then .next s
    else .next (readLine s r)

/-- R426, R427: HOST_COMPLETION of a source or index line: the line is issued with what the host's memory held, or the request aborts (R343). -/
def hostLine (s : State) (r : Req) (ok : Bool) (vals : List W32) : State :=
  if !mayRead s r || (hostLines s (runReads r)).isEmpty || !(reqReach s r == .ready) then s
  else if ok then readLine (hostArrives s (runReads r) vals) r
  else modReq s r.id (abortReq s)

/-- Whether an earlier SCAT of the same queue has index entries yet to read, any of which may name a line of a scratchpad (R339). -/
def scatBefore (s : State) (r : Req) : Bool :=
  (earlierReqs s r).any (fun e => e.form == .scat && e.idx.any Option.isNone && e.next != reqUnits e && (match e.dst with
    | .pool _ => true
    | .uni _ _ | .lat _ _ _ | .peer _ _ _ | .mcast _ _ _ => false))

/-- Whether a line may land: after the issuing lane's earlier accesses, earlier requests' bytes for its pool lines, and its own request's earlier lines (R143, R145, R333, R339). -/
def landFree (s : State) (r : Req) (l : CopyLine) : Bool :=
  l.bytes.all (fun b => !reqBehind s r b.1 1 && (match reqPlace s r b.1 1 with
    | .ready | .host => true
    | .held | .page _ => false) && (match b.1 with
    | .pool k => !(hasPresence k && (absentBefore s r.id (poolLine k) || scatBefore s r))
    | .uni _ _ | .lat _ _ _ | .peer _ _ _ | .mcast _ _ _ => true)) &&
  r.lines.all (fun e => decide (l.id ≤ e.id) || e.bytes.all (fun x => l.bytes.all (fun y => x.1 != y.1)))

/-- R341: STREAMER_LINE_LAND; one to host memory over a link that is down aborts the request (R441). -/
def execStreamerLineLand (req line : Nat) (s : State) : Out :=
  match getReq s req with
  | none => .next s
  | some r =>
    match r.lines.find? (fun l => l.id == line) with
    | none => .next s
    | some l =>
      if l.bytes.any (fun b => linkLost s r.part b.1) && !ctxOut s r.ctx then .next (modReq s req (abortReq s))
      else if !landFree s r l then .next s
      else
        let s1 := l.bytes.foldl (fun s b => sendByte s (reqSrc s r) (reqEng s r) b.1 b.2) s
        .next (modReq s1 req (fun r => { r with
          lines := r.lines.filter (fun e => e.id != line), absent := l.bytes.foldl (fun a b => clearAbsent a b.1 1) r.absent,
          landed := r.landed + l.bytes.length, sinceCredit := r.sinceCredit + 1 }))

/-! ## Credits and completion (R338) -/

/-- Whether every line of a request has landed (DEDUCED, log 40). -/
def reqLanded (r : Req) : Bool := r.next == reqUnits r && r.lines.isEmpty && (r.state == .issued || r.state == .bulk)

/-- Whether a credit of a request is still on its way (DEDUCED, log 40). -/
def creditOut (s : State) (id : Nat) : Bool :=
  s.upds.any (fun u => u.src.group == engineGroup id) || s.pkts.any (fun p => match p.msg with
    | .bulkCredit u => u.src.group == engineGroup id
    | _ => false)

/-- A credit sent: by the core streamer to the object, by a bulk streamer as a ring packet (R342) (DEDUCED, log 40). -/
def sendCredit (s : State) (r : Req) (obj : Nat) (item : UpdItem) : State :=
  let src := engineParty s (reqLevel r) r.id r.team r.ctx r.part r.scope
  if r.bulk then
    let k := reqCore s r / Config.coresPerStack
    let die := (r.bs.getD 0) / 8
    let u : Upd := { id := s.nextId, obj := obj, ctx := r.ctx, item := item, reply := none, src := src }
    sendPkt { s with nextId := s.nextId + 1 } die (vsDie k) (dieStop die) (stackStop k) r.part (some r.inc) 0 (.bulkCredit u)
  else sendUpd s obj item src

/-- R338: STREAMER_CREDIT: after 16 lines, and at completion with the arrival and the error mark. -/
def execStreamerCredit (req : Nat) (s : State) : Out :=
  match getReq s req with
  | none => .next s
  | some r =>
    match r.bar with
    | none => .next s
    | some obj =>
      if r.killed || r.finalSent || (r.scope == .sys && s.hwrites.any (fun w => w.g == r.g)) then .next s
      else if reqLanded r then
        let c := if r.bcred = 1 then 0 else reqBytes r - r.credited
        .next (modReq (sendCredit s r obj ⟨r.bcred != 0, 0, c, r.err, r.zeros - r.zerosSent, false⟩) req
          (fun r => { r with credited := reqBytes r, zerosSent := r.zeros, sinceCredit := 0, finalSent := true }))
      else if r.bcred != 1 && decide (16 ≤ r.sinceCredit) && !r.err then
        .next (modReq (sendCredit s r obj ⟨false, 0, r.landed - r.credited, false, r.zeros - r.zerosSent, false⟩) req
          (fun r => { r with credited := r.landed, zerosSent := r.zeros, sinceCredit := 0 }))
      else .next s

/-- Whether the last barrier update of a request has been performed, or none is due. -/
def finalDone (s : State) (r : Req) : Bool := reqLanded r && (r.bar.isNone || r.killed || (r.finalSent && !creditOut s r.id))

/-- R338: GCOUNT_CREDIT, after the final barrier update. -/
def execGcountCredit (req : Nat) (s : State) : Out :=
  match getReq s req with
  | none => .next s
  | some r =>
    match r.gcnt with
    | none => .next s
    | some (num, cell) =>
      if r.gdone || r.killed || !finalDone s r || (r.scope == .sys && s.hwrites.any (fun w => w.g == r.g)) then .next s
      else .next (modReq (gcountAdd s r.part num (reqCore s r / Config.coresPerStack) cell (if r.gone then 1 else reqBytes r) (fullView s (engineNo r.id))) req (fun r => { r with gdone := true }))

/-- R338: REQUEST_COMPLETE: the queue entry is freed. -/
def execRequestComplete (req : Nat) (s : State) : Out :=
  match getReq s req with
  | none => .next s
  | some r => .next (if finalDone s r && (r.gcnt.isNone || r.gdone || r.killed) then { s with reqs := s.reqs.filter (fun e => e.id != req) } else s)

/-! ## Bulk requests (R342) -/

/-- The home half of a place of unified memory; that of the issuing stack where the granule has none (DEDUCED, log 81). -/
def homeHalf (s : State) (r : Req) (l : Loc) : Nat :=
  let mine := halfOfStack (reqCore s r / Config.coresPerStack)
  match l with
  | .uni p ua => match (granAt (partAt s p) (ua / 4096)).state with
    | .hbm _ | .tier2 _ => homeDie s p (ua / 4096)
    | .none | .host _ => mine
  | .pool _ | .lat _ _ _ | .peer _ _ _ | .mcast _ _ _ => mine

/-- The bytes queued at a bulk streamer. -/
def bulkQueued (s : State) (b : Nat) : Nat := ((s.reqs.filter (fun r => r.bs == some b)).map (fun r => reqBytes r - r.landed)).foldl (· + ·) 0

/-- R342: of the eight of a half, the one with the fewest queued bytes, the lowest of equals (DEDUCED, log 81). -/
def bulkPick (s : State) (half : Nat) : Nat :=
  (List.range 8).foldl (fun b i => if bulkQueued s (8 * half + i) < bulkQueued s b then 8 * half + i else b) (8 * half)

/-- R342: BULK_HANDOFF: a bulk request is sent over the ring; once its packet is there and one of 64 places is free, the bulk streamer takes it (DEDUCED, log 81). -/
def execBulkHandoff (req : Nat) (s : State) : Out :=
  match getReq s req with
  | none => .next s
  | some r =>
    if r.bulk && r.state == .queued && r.bs.isNone then
      let b := bulkPick s (homeHalf s r r.dst)
      let k := reqCore s r / Config.coresPerStack
      .next (sendPkt (modReq s req (fun r => { r with state := .bulkSent, bs := some b })) (vsDie k) (b / 8) (stackStop k) (dieStop (b / 8)) r.part none 64 (.bulk req))
    else if r.state == .bulkSent then
      match s.pkts.find? (fun p => p.delivered && p.msg == .bulk req) with
      | some p =>
        if (s.reqs.filter (fun e => e.bs == r.bs && (e.state == .bulk || e.state == .stopped))).length < 64 then
          .next (modReq (delPkt s p.id) req (fun r => { r with state := .bulk }))
        else .next s
      | none => .next s
    else .next s

/-- R342: BULK_CREDIT_ARRIVAL. -/
def execBulkCreditArrival (pkt : Nat) (s : State) : Out :=
  match getPkt s pkt with
  | none => .next s
  | some p =>
    match p.delivered, p.msg with
    | true, .bulkCredit u => let s1 := delPkt s pkt
      .next { s1 with upds := s1.upds ++ [u] }
    | _, _ => .next s

/-! ## Failures (R343) -/

/-- Where a stopped request goes on: in its bulk streamer, at the head of its queue, or with only lines to land. -/
def resumeState (r : Req) : ReqState := if r.bulk then .bulk else if r.next = reqUnits r then .issued else .queued

/-- R343: COPY_PAGE_RESUME. -/
def execCopyPageResume (req : Nat) (s : State) : Out :=
  match getReq s req with
  | none => .next s
  | some r =>
    match r.state, r.pageAt with
    | .stopped, some n =>
      let g := granAt (partAt s r.part) n
      .next (if !r.err && !granNone g && g.moving.isNone then modReq s req (fun r => { r with state := resumeState r, pageAt := none }) else s)
    | _, _ => .next s

/-- R343: COPY_ABORT: a failed page, a reset target, or an uncorrectable error on a source read: no further lines, the rest credited with the error mark, presence bits set (DESIGN CHOICE, log 43). -/
def execCopyAbort (req : Nat) (s : State) : Out := .next (modReq s req (abortReq s))

end Sys2Proof.Machine
end

