-- ==== Sys2Proof/Machine/Matrix.lean ====
section
/-! DEFINITION. Sys2Proof/Machine/Matrix.lean: the matrix engine: reservations, the command queue, MMA steps, tile moves and drains (R345-R373). -/

namespace Sys2Proof.Machine

/-! ## Reservations (R346, R355, R356) -/

/-- The capacity of a space's memory (R345). -/
def spaceCap (isAcc : Bool) : Nat := if isAcc then 1048576 else 524288
/-- The granule of a space's reservations (R346). -/
def spaceGran (isAcc : Bool) : Nat := if isAcc then 16384 else 4096

/-- The records of a space on a core. -/
def spaceResvs (c : Core) (isAcc : Bool) : List Resv := c.resvs.filter (fun r => r.isAcc == isAcc)

/-- Where a free run of a space can start. -/
def runStarts (c : Core) (isAcc : Bool) : List Nat :=
  (0 :: (spaceResvs c isAcc).map (fun r => r.base + r.len)).filter (fun b =>
    decide (b < spaceCap isAcc) && !(spaceResvs c isAcc).any (fun r => decide (r.base ≤ b) && decide (b < r.base + r.len)))

/-- The bytes free from a start on. -/
def runLenAt (c : Core) (isAcc : Bool) (b : Nat) : Nat :=
  ((spaceResvs c isAcc).map Resv.base).foldl (fun m x => if b ≤ x then min m (x - b) else m) (spaceCap isAcc - b)

/-- The longest free run of a space (R356). -/
def longestRun (c : Core) (isAcc : Bool) : Nat := ((runStarts c isAcc).map (runLenAt c isAcc)).foldl max 0

/-- The lowest free run of a length (R355). -/
def lowestRun (c : Core) (isAcc : Bool) (n : Nat) : Option Nat := ((runStarts c isAcc).filter (fun b => decide (n ≤ runLenAt c isAcc b))).min?

/-- The logical rank of a group's core. -/
def rankOf (s : State) (g : Group) : Nat := ((ctxOf s g).map Ctx.rank).getD 0

/-- The record of a team that holds the byte of an O or A pointer of its own core (DEDUCED, log 45). -/
def resvOf (s : State) (g : Group) (p : Nat) : Option Resv :=
  (spaceResvs (coreAt s (coreOf s g)) (ptrSpace p == 7)).find? (fun r =>
    ptrF1 p == rankOf s g && r.team == g.team && r.releasing.isNone && decide (r.base ≤ ptrOff p) && decide (ptrOff p < r.base + r.len))

/-- The matrix commands of a core, oldest first: one gives up its entry of the queue when it completes and leaves (R353; DESIGN CHOICE, log 104). -/
def cmdQueue (s : State) (core : Nat) : List MCmd := s.mcmds.filter (fun c => coreOfCtx s c.ctx == core)

/-- R354: a pointer that names the other core of a pair, or a group on another core; a rank that is neither core's fails R117 (R119). -/
def otherCore (s : State) (g : Group) (p : Nat) : Bool :=
  match ptrSpace p with
  | 2 | 3 | 6 | 7 => ptrF1 p != rankOf s g && decide (ptrF1 p ≤ 1) && ((getT s g.team).map Team.paired).getD false
  | 5 => s.groups.any (fun h => h.team == g.team && h.idx == ptrF1 p && !h.left && h.ctx != g.ctx)
  | _ => false

/-- A value returned by an instruction outside the queue, in d4 (R355, R356). -/
def queryOut (s : State) (x : GM) (c : Clause) (f : FormQ) (eff : Mask) (word : W64) (nA : Nat) (ws : List W32) : Out :=
  .next (launchPlain s (qDone x c f nA 0) .query 4 [valLane ((lowLane eff).getD 0) ws] (dstOf x.g f.d f.sn) eff word)

/-- Whether d4 can count one more instruction (R54). -/
def d4Full (g : Group) : Bool := cntOf g 4 == 63

/-- R354: a block pointer of the issuing core's own scratchpad. -/
def ownBlock (s : State) (g : Group) (p : Nat) : Bool := isScratch p && ptrF1 p == rankOf s g

/-- R354: the refusals 0x42 and 0x43 of an ORSV block. -/
def orsvRefusal (isAcc : Bool) (w : Nat) : Option Nat :=
  let len := bits w 31 0
  let sc := bits w 63 32
  let e := bits w 71 64
  if bits w 127 72 != 0 || len == 0 || len % spaceGran isAcc != 0 || decide (spaceCap isAcc < len) || decide (len ≤ sc) ||
      (isAcc && (e != 0 || sc != 0)) then some 0x42
  else if !isAcc && !descLegal e then some 0x43 else none

/-- The range of a new reservation filled with zeros. -/
def zeroRange (s : State) (core : Nat) (isAcc : Bool) (b n : Nat) : State :=
  let img := (coreAt s core).img
  { s with mem := memZero s.mem (if isAcc then accKey img b else obufKey img b) n }

/-- R355: ORSV (DEDUCED, log 44). -/
def execOrsv (f : FormQ) (s : State) : Out :=
  qIssue s 0xB8 f 2 0 2 (fun s x c word eff =>
    let p := rdOpd x f.a .b64 ((lowLane eff).getD 0)
    let isAcc := f.sub.getLsbD 1
    let core := coreOf s x.g
    match blockChkN s x.g p 16 (ownBlock s x.g) with
    | .refuse => refuseOut s x c word eff 0x41 p
    | .bad => addrOut s x c word eff .capability p
    | .wait w => stallOut s x.g w
    | .go k =>
      if d4Full x.g || earlierAt s x.g.id eff (.pool k) 16 then stallOut s x.g .stall
      else
        let w := memRdV s.mem k 16
        match orsvRefusal isAcc w with
        | some sub => refuseOut s x c word eff sub p
        | none =>
          let len := bits w 31 0
          let free := decide ((coreAt s core).resvs.length < 32)
          match (lowestRun (coreAt s core) isAcc len).filter (fun _ => free) with
          | some b =>
            let r : Resv := { id := s.nextId, ctx := x.g.ctx, team := x.g.team, isAcc := isAcc, base := b, len := len,
                              edesc := bits w 71 64, scoff := bits w 63 32, releasing := none }
            let s1 := modCore (zeroRange { s with nextId := s.nextId + 1 } core isAcc b len) core (fun c => { c with resvs := c.resvs ++ [r] })
            let q := (if isAcc then 7 else 6) * 2 ^ 60 + rankOf s x.g * 2 ^ 48 + b
            queryOut s1 { x with m := s1.mem } c f eff word 2 (valWords 8 q)
          | none => if f.sub.getLsbD 0 then queryOut s x c f eff word 2 (valWords 8 0) else refuseOut s x c word eff 0x48 p)

/-- R346, R356: a releasing range freed: once every command accepted before its OREL that names it has completed, or, where its team has ended, every command of the team (DEDUCED, log 45). -/
def freeResv (s : State) (core rec : Nat) : State :=
  match (coreAt s core).resvs.find? (fun r => r.id == rec) with
  | none => s
  | some r =>
    match r.releasing with
    | none => s
    | some n =>
      let img := (coreAt s core).img
      let k := if r.isAcc then accKey img r.base else obufKey img r.base
      let gone := ((getT s r.team).map Team.ended).getD true
      let named := s.mcmds.any (fun c => (gone && c.team == r.team) || (decide (c.id < n) && c.resvs.contains rec)) ||
        s.reqs.any (fun q => (gone && q.team == r.team) || (decide (q.id < n) && reqTouches q k (k + r.len))) ||
        (gone && s.colls.any (fun c => c.team == r.team))
      if named then s else modCore s core (fun c => { c with resvs := c.resvs.filter (fun y => y.id != rec) })

/-- R356: OREL (DEDUCED, log 16). -/
def execOrel (f : FormQ) (s : State) : Out :=
  qIssue s 0xB9 f 2 0 1 (fun s x c word eff =>
    let p := rdOpd x f.a .b64 ((lowLane eff).getD 0)
    let core := coreOf s x.g
    if !(ptrSpace p == 6 || ptrSpace p == 7) || otherCore s x.g p then refuseOut s x c word eff 0x44 p
    else if d4Full x.g then stallOut s x.g .stall
    else match (resvOf s x.g p).filter (fun r => r.base == ptrOff p && ptrClean p) with
      | some r =>
        let s1 := modCore { s with nextId := s.nextId + 1 } core (fun c =>
          { c with resvs := c.resvs.map (fun y => if y.id = r.id then { y with releasing := some s.nextId } else y) })
        queryOut (freeResv s1 core r.id) x c f eff word 2 [0]
      | none => queryOut s x c f eff word 2 [1])

/-- R356: what OQRY reads. -/
def oqryValue (s : State) (core field : Nat) : Nat :=
  match field with
  | 0 => longestRun (coreAt s core) false
  | 1 => longestRun (coreAt s core) true
  | 2 => 16 - (cmdQueue s core).length
  | _ => 32 - (coreAt s core).resvs.length

/-- R356: OQRY (DEDUCED, log 44). -/
def execOqry (f : FormQ) (s : State) : Out :=
  qIssue s 0xBA f 0 0 1 (fun s x c word eff =>
    if d4Full x.g then stallOut s x.g .stall
    else queryOut s x c f eff word 0 [BitVec.ofNat 32 (oqryValue s (coreOf s x.g) f.sub.toNat)])

/-- R355, R356: MATRIX_QUERY_COMPLETE: the value lands and d4 is decremented. -/
def execMatrixQueryComplete (op : Nat) (s : State) : Out :=
  match getOp s op with
  | none => .next s
  | some o => .next (if o.kind == .query && o.ctr == 4 && frameHere s o.g then cmdReturn s o ((o.lanes.head?.map LaneOp.val).getD []) else s)

/-- R346, R356: RESERVATION_FREED: a releasing range is freed once every command accepted before that names it has completed (DEDUCED, log 45). -/
def execReservationFreed (core rec : Nat) (s : State) : Out := .next (freeResv s core rec)

/-! ## Acceptance (R353, R354, R357, R362) -/

/-- The largest prefix of a contiguous extent that passes R117, between lo, which does, and hi, which does not. -/
def prefixOk (s : State) (g : Group) (p : Nat) (rights : BitVec 4) : Nat → Nat → Nat → Nat
  | 0, lo, _ => lo
  | fuel + 1, lo, hi =>
    if hi ≤ lo + 1 then lo
    else
      let mid := (lo + hi) / 2
      if (locOf (checkPtr s g p mid rights true)).isSome then prefixOk s g p rights fuel mid hi else prefixOk s g p rights fuel lo mid

/-- R354: a contiguous extent: its place, a wait, or the pointer to the first offending byte (DEDUCED, log 46). -/
def contigChk (s : State) (g : Group) (p n : Nat) (rights : BitVec 4) : ExtRes :=
  match checkPtr s g p n rights true with
  | .ok l => .ok l
  | .missObj k => .wait (.objMiss k)
  | .missRegion r => .wait (.regionMiss r)
  | .bad => .bad ((ptrAdd p (prefixOk s g p rights 40 0 n : Nat)).getD p)

/-- What the checks of a queued command answer. -/
inductive MBuild where
  | go (c : MCmd)
  | wait (p : Park)
  | refuse (sub : Nat)
  | bad (addr : Nat)
  deriving DecidableEq, Repr

/-- The field checks in field order (R488): the first wait, else the first bad byte, else the command. -/
def fieldsThen (rs : List ExtRes) (c : MCmd) : MBuild :=
  let wait := fun r => match r with
    | ExtRes.wait p => some (MBuild.wait p)
    | .ok _ | .bad _ => none
  let bad := fun r => match r with
    | ExtRes.bad a => some (MBuild.bad a)
    | .ok _ | .wait _ => none
  ((rs.findSome? wait).or (rs.findSome? bad)).getD (.go c)

/-- The place of a checked field. -/
def extLoc (r : ExtRes) : Loc :=
  match r with
  | .ok l => l
  | .wait _ | .bad _ => .pool 0

/-- A pool key of a checked field. -/
def extKey (r : ExtRes) : Nat :=
  match r with
  | .ok (.pool k) => k
  | _ => 0

/-- A command before its own fields are set. -/
def freshCmd (s : State) (x : GM) (eff : Mask) (kind : MKind) : MCmd :=
  { id := s.nextId, inc := (dieAt s (coreDie (coreOf s x.g) + 1)).incarn, g := x.g.id, ctx := x.g.ctx, part := partOf s x.g, team := x.g.team,
    lane := (lowLane eff).getD 0, kind := kind, blk := 0,
    bar := none, acc := 0, n := 1, reg := 0, asrc := .pool 0, bsrc := .pool 0, ascl := none, bscl := none, adesc := 0, bdesc := 0, steps := 0,
    zero := false, dst := .pool 0, xdst := none, dsc := none, xsc := none, ddesc := 0, xdesc := 0, dpitch := 0, xpitch := 0, clr := false,
    add := false, step := 0, flags := 0, tile := [], lines := [], absent := [], credit := 0, sn := false, resvs := [], pageAt := none, killed := false, made := 0, suspect := false, state := .queued }

/-- The records of the issuing team that pointers name (R356). -/
def resvIds (s : State) (g : Group) (ps : List Nat) : List Nat :=
  ps.filterMap (fun p => if ptrSpace p = 6 ∨ ptrSpace p = 7 then (resvOf s g p).map Resv.id else none)

/-- The pointers to the first bytes of n units at a pitch (R346, R356). -/
def unitPtrs (p pitch n : Nat) : List Nat := (List.range n).filterMap (fun i => ptrAdd p ((i * pitch : Nat) : Int))

/-- R357, R354: an MMA from its parameter block. -/
def mmaBuild (s : State) (g : Group) (c : MCmd) (w : Nat) : MBuild :=
  let asrc := bits w 511 448
  let bsrc := bits w 447 384
  let ascl := bits w 383 320
  let bscl := bits w 319 256
  let acc := bits w 255 192
  let steps := bits w 191 176
  let ad := bits w 175 168
  let bd := bits w 167 160
  let fromO := ptrSpace bsrc == 6
  let rec' := if fromO then resvOf s g bsrc else none
  let inF := fun (p : Nat) (l : List Nat) => l.contains (ptrSpace p)
  if bits w 159 153 != 0 || bits w 143 0 != 0 || steps == 0 then .refuse 0x42
  else if (mClass ad).isNone || (mClass ad).map (·.1) != (mClass bd).map (·.1) then .refuse 0x43
  else if !inF asrc [5] || !inF bsrc [5, 6] || !(ascl == 0 || inF ascl [2, 5]) || !(bscl == 0 || inF bscl [2, 5]) || !inF acc [7] ||
      [asrc, bsrc, ascl, bscl, acc].any (otherCore s g) then .refuse 0x44
  else if [asrc, bsrc, ascl, bscl].any (fun p => ptrOff p % 32 != 0) || ptrOff acc % 16384 != 0 ||
      (match rec' with
        | some r => (ptrOff bsrc - r.base) % (64 * mRB bd) != 0
        | none => false) then .refuse 0x45
  else if (ascl == 0) != (descBlk ad == 0) || (if fromO then bscl != 0 else (bscl == 0) != (descBlk bd == 0)) then .refuse 0x46
  else if (match rec' with
      | some r => r.edesc != bd
      | none => false) then .refuse 0x47
  else
    let na := 64 * scaleBytes ad (mK ad) * steps
    let nb := 64 * scaleBytes bd (mK bd) * steps
    let rA := contigChk s g asrc (64 * mRB ad * steps) 1
    let rB := contigChk s g bsrc (64 * mRB bd * steps) 1
    let rAs := if na = 0 then ExtRes.ok (.pool 0) else contigChk s g ascl na 1
    let rBs := if nb = 0 then ExtRes.ok (.pool 0)
      else match rec' with
        | none => contigChk s g bscl nb 1
        | some r =>
          let s0 := (ptrOff bsrc - r.base) / (64 * mRB bd)
          match ptrAdd bsrc (((r.base + r.scoff + 64 * s0 * scaleBytes bd (mK bd) : Nat) : Int) - (ptrOff bsrc : Int)) with
          | some q => contigChk s g q nb 1
          | none => .bad bsrc
    let rC := contigChk s g acc 16384 0
    fieldsThen [rA, rB, rAs, rBs, rC]
      { c with asrc := extLoc rA, bsrc := extLoc rB, ascl := if na = 0 then none else some (extLoc rAs), bscl := if nb = 0 then none else some (extLoc rBs),
               acc := extKey rC, adesc := ad, bdesc := bd, steps := steps, zero := bit w 152, resvs := resvIds s g [bsrc, acc] }

/-- The presence bits that a drain clears at acceptance (R364). -/
def drainAbsent (c : MCmd) : List (Nat × Nat) :=
  ((List.range (drainRows c)).flatMap (rowPlaces c)).foldl (fun a x => markAbsent a x.1 x.2) []

/-- The bytes of T, P and F that a drain writes (R364). -/
def drainCredit (c : MCmd) : Nat :=
  ((List.range (drainRows c)).flatMap (rowPlaces c)).foldl (fun n x => match x.1 with
    | .pool k => if hasPresence k then n + x.2 else n
    | .uni _ _ | .lat _ _ _ | .peer _ _ _ | .mcast _ _ _ => n) 0

/-- The extent of a drain's rows at a pitch, or of its scales. -/
def rowsChk (s : State) (g : Group) (p u pitch : Nat) : ExtRes :=
  extChk s g p 2 u 64 (fun i => ((i * pitch : Nat) : Int)) 0 ((63 * pitch + u : Nat) : Int)

/-- R362, R354: an ADRAIN from its drain block (DEDUCED, log 46). -/
def drainBuild (s : State) (g : Group) (c : MCmd) (w : Nat) : MBuild :=
  let dst := bits w 511 448
  let xdst := bits w 447 384
  let dsc := bits w 383 320
  let xsc := bits w 319 256
  let acc := bits w 255 192
  let dp := bits w 191 160
  let xp := bits w 159 128
  let dd := bits w 127 120
  let xd := bits w 119 112
  let add := bit w 104
  let inF := fun (p : Nat) => [1, 2, 3, 5, 6, 8].contains (ptrSpace p)
  if bits w 111 106 != 0 || bits w 95 0 != 0 || (xdst == 0 && (xp != 0 || xd != 0 || xsc != 0)) then .refuse 0x42
  else if !drainDesc dd || (xdst != 0 && !drainDesc xd) then .refuse 0x43
  else if !inF dst || [xdst, dsc, xsc].any (fun p => p != 0 && !inF p) || ptrSpace acc != 7 || [dst, xdst, dsc, xsc, acc].any (otherCore s g) then .refuse 0x44
  else if [dst, xdst, dsc, xsc].any (fun p => ptrOff p % 32 != 0) || ptrOff acc % 16384 != 0 || dp % 8 != 0 || decide (dp < drainBytes dd) ||
      (xdst != 0 && (xp % 8 != 0 || decide (xp < drainBytes xd))) then .refuse 0x45
  else if (dsc == 0) != (descBlk dd == 0) || (xdst != 0 && (xsc == 0) != (descBlk xd == 0)) then .refuse 0x46
  else if add && (dd != 0 || xdst != 0 || ptrSpace dst == 6) then .refuse 0x49
  else
    let none' := ExtRes.ok (.pool 0)
    let rD := rowsChk s g dst (drainBytes dd) dp
    let rX := if xdst = 0 then none' else rowsChk s g xdst (drainBytes xd) xp
    let rDs := if dsc = 0 then none' else rowsChk s g dsc (scaleBytes dd 64) (scaleBytes dd 64)
    let rXs := if xsc = 0 then none' else rowsChk s g xsc (scaleBytes xd 64) (scaleBytes xd 64)
    let rC := contigChk s g acc 16384 0
    let opt := fun (p : Nat) (r : ExtRes) => if p = 0 then none else some (extLoc r)
    let c1 := { c with dst := extLoc rD, xdst := opt xdst rX, dsc := opt dsc rDs, xsc := opt xsc rXs, acc := extKey rC, ddesc := dd, xdesc := xd,
                       dpitch := dp, xpitch := xp, clr := bit w 105, add := add, resvs := resvIds s g
                         (acc :: (unitPtrs dst dp 64 ++ unitPtrs xdst xp 64 ++ unitPtrs dsc (scaleBytes dd 64) 64 ++ unitPtrs xsc (scaleBytes xd 64) 64)) }
    fieldsThen [rD, rX, rDs, rXs, rC] { c1 with absent := drainAbsent c1, credit := drainCredit c1 }

/-- Whether a group must wait for an entry of its core's command queue (R353). -/
def queueWait (s : State) (g : Group) : Bool :=
  decide (16 ≤ (cmdQueue s (coreOf s g)).length) || s.groups.any (fun h => waitsBefore s .matrix g h (waitSince s .matrix g))

/-- The group whose frame holds a place. -/
def frameGroup (s : State) (l : Loc) : Option Group :=
  match l with
  | .pool k => if keySpace k = 2 then getG s (k / 2 ^ 67) else none
  | .uni _ _ | .lat _ _ _ | .peer _ _ _ | .mcast _ _ _ => none

/-- The groups whose registers a command reads: those of an MMA's operands, an AINS's own (R147). -/
def readGroups (s : State) (m : MCmd) : List Nat :=
  match m.kind with
  | .mma => (([m.asrc, m.bsrc] ++ m.ascl.toList ++ m.bscl.toList).filterMap (frameGroup s)).map Group.id
  | .ains => [m.g]
  | .azero | .amov | .adrain => []

/-- The groups whose registers a command reads note what is written to them from now on (R147). -/
def markReads (s : State) (m : MCmd) : State :=
  let gs := readGroups s m
  if gs.isEmpty then s
  else { s with groups := s.groups.map (fun g => if gs.contains g.id then { g with readBy := (m.id, g.regPast.length) :: g.readBy } else g) }

/-- A command put at the end of the queue, with what happens before it (R145). -/
def putCmd (s s1 : State) (m : MCmd) : State :=
  let t := learn s1 (engineNo m.id) (cmdView s1 m.g m.lane .team)
  { markReads t m with nextId := s.nextId + 1, mcmds := t.mcmds ++ [m] }

/-- The table entries that the pointers of a block name, counted for the cache's replacement order (R246). -/
def consultBlock (s : State) (g : Group) (kind : MKind) (w : Nat) : State :=
  if kind = .adrain then consultAll s g [bits w 511 448, bits w 447 384, bits w 383 320, bits w 319 256] else s

/-- MMA and ADRAIN: the checks of R488, then acceptance; D receives the free entries, the one that the command takes not among them (R353; DESIGN CHOICE, log 105). A full d4 stalls (R55). A barrier pointer outside T and P is refused after the capability faults of the block's fields, before R117 of the pointer (DEDUCED, log 47). -/
def blockIssue (op : Nat) (kind : MKind) (build : State → Group → MCmd → Nat → MBuild) (f : FormQ) (s : State) : Out :=
  let nB := if f.b = .zero then 0 else 2
  qIssue s op f 2 nB 1 (fun s x c word eff =>
    let l := (lowLane eff).getD 0
    let g := x.g
    let p := rdOpd x f.a .b64 l
    let bar := if f.b = .zero then none else some (rdOpd x f.b .b64 l)
    if d4Full g then stallOut s g .stall
    else if queueWait s g then stallOut s g (.entryWait .matrix (waitSince s .matrix g))
    else match blockChk s g p (ownBlock s g) with
      | .refuse => refuseOut s x c word eff 0x41 p
      | .bad => addrOut s x c word eff .capability p
      | .wait w => stallOut s g w
      | .go k =>
        if earlierAt s g.id eff (.pool k) 64 then stallOut s g .stall
        else
          let w := memRdV s.mem k 64
          let s := consultBlock s g kind w
          match build s g { freshCmd s x eff kind with blk := k } w with
          | .refuse sub => refuseOut s x c word eff sub p
          | .bad a => addrOut s x c word eff .capability a
          | .wait w => stallOut s g w
          | .go m =>
            if (match bar with
                | some q => !isScratch q
                | none => false) then refuseOut s x c word eff 0x01 (bar.getD 0)
            else
              let accept := fun m => .next (putCmd s (putGM s (schedQ (qDone x c f 2 nB) g.pos 4 f 1 eff (15 - (cmdQueue s (coreOf s g)).length))) m)
              match barChk s g bar with
              | .wait w => stallOut s g w
              | .bad a => addrOut s x c word eff .capability a
              | .misaligned a => addrOut s x c word eff .misalignedAtomic a
              | .none => accept m
              | .go bk => accept { m with bar := some bk })

/-- R357: MMA. -/
def execMma (f : FormQ) (s : State) : Out := blockIssue 0xBB .mma mmaBuild f s
/-- R362: ADRAIN. -/
def execAdrain (f : FormQ) (s : State) : Out := blockIssue 0xBF .adrain drainBuild f s

/-- The N of AZERO, AMOV and AINS (R352). -/
def moveN (f : FormQ) : Nat := f.ext.toNat % 64 + 1

/-- R360, R361: AZERO, AMOV and AINS from A: a span of n units of u bytes. -/
def moveIssue (op : Nat) (kind : MKind) (u : Nat) (v : FormQ → Opd) (f : FormQ) (s : State) : Out :=
  let n := moveN f
  let regs := fun (g : Group) => if kind = .azero then 0 else 64 * n / g.width
  qIssueG s op f (fun g => kind != .azero && 64 * n % g.width != 0) (fun g => [(f.a, 2), (v f, regs g)]) (fun s x c word eff =>
    let g := x.g
    let p := rdOpd x f.a .b64 ((lowLane eff).getD 0)
    if d4Full g then stallOut s g .stall
    else if queueWait s g then stallOut s g (.entryWait .matrix (waitSince s .matrix g))
    else if ptrSpace p != 7 || otherCore s g p then refuseOut s x c word eff 0x44 p
    else if ptrOff p % u != 0 then refuseOut s x c word eff 0x45 p
    else
      let r := if kind = .azero then extChk s g p 0 u n (fun i => ((i * u : Nat) : Int)) 0 ((n * u : Nat) : Int) else contigChk s g p (n * u) 0
      match r with
      | .wait w => stallOut s g w
      | .bad a => addrOut s x c word eff .capability a
      | .ok _ =>
        let m := { freshCmd s x eff kind with acc := extKey r, n := n, reg := (((opdRegs g (v f) 1).head?).getD 0), sn := f.sn, resvs := resvIds s g (unitPtrs p u n) }
        let y := qDone x c f 2 0
        if kind = .azero then .next (putCmd s (putGM s y) m)
        else .next (putCmd s (putGM s { y with g := cntInc y.g 4 }) m))

/-- R360: AZERO. -/
def execAzero (f : FormQ) (s : State) : Out := moveIssue 0xBC .azero 16384 FormQ.d f s
/-- R361: AMOV. -/
def execAmov (f : FormQ) (s : State) : Out := moveIssue 0xBD .amov 256 FormQ.d f s
/-- R361: AINS. -/
def execAins (f : FormQ) (s : State) : Out := moveIssue 0xBE .ains 256 FormQ.b f s

/-! ## The order of commands (R366-R368) -/

/-- A matrix command by its number. -/
def getCmd (s : State) (i : Nat) : Option MCmd := s.mcmds.find? (fun c => c.id == i)

/-- Whether a context's pool image is in its core's pool (R214, R366). -/
def ctxHere (s : State) (ctx : Nat) : Bool :=
  match getC s ctx with
  | some c => c.evicted == 0
  | none => true

/-- The bytes of accumulator memory that a command touches (DEDUCED, log 46). -/
def accSpan (c : MCmd) : Nat :=
  match c.kind with
  | .mma | .adrain => 16384
  | .azero => 16384 * c.n
  | .amov | .ains => 256 * c.n

/-- Whether two commands touch one tile. -/
def shareTile (a b : MCmd) : Bool :=
  decide (a.acc / 16384 ≤ (b.acc + accSpan b - 1) / 16384) && decide (b.acc / 16384 ≤ (a.acc + accSpan a - 1) / 16384)

/-- R366-R368: whether an earlier command keeps a later one from beginning: set aside or stopped on a page, it keeps its own context's only. -/
def keepsOff (s : State) (c e : MCmd) : Bool :=
  if (!ctxHere s e.ctx || e.state == .stopped) && e.ctx != c.ctx then e.kind == .adrain && e.clr && shareTile c e
  else match e.kind with
    | .mma => e.state != .stepsDone || e.suspect || (c.kind != .mma && shareTile c e)
    | .azero | .amov | .ains => true
    | .adrain => e.state != .begun || decide (e.step < drainRows e) || (e.clr && shareTile c e)

/-- Whether a context's core stands in a veer's pause, in which its engines stop (R344, R373, R483). -/
def ctxPaused (s : State) (ctx : Nat) : Bool := (coreAt s (coreOfCtx s ctx)).paused

/-- Whether a command may begin or go on: its context is resident, its core in no veer's pause and no earlier command keeps it off (R366, R373). -/
def cmdTurn (s : State) (c : MCmd) : Bool :=
  ctxHere s c.ctx && !ctxPaused s c.ctx && (cmdQueue s (coreOfCtx s c.ctx)).all (fun e => decide (c.id ≤ e.id) || !keepsOff s c e)

/-- Whether an earlier MMA or ADRAIN of the context has still to make its update (R366). -/
def updatesBefore (s : State) (c : MCmd) : Bool :=
  s.mcmds.any (fun e => e.ctx == c.ctx && decide (e.id < c.id) && (e.kind == .mma || e.kind == .adrain))

/-- Groups that no command in flight reads any longer forget what their registers held (R147). -/
def endReads (s : State) : State :=
  if s.groups.all (fun g => g.readBy.isEmpty) then s
  else { s with groups := s.groups.map (fun g =>
    let rs := g.readBy.filter (fun r => s.mcmds.any (fun c => c.id == r.1))
    { g with readBy := rs, regPast := if rs.isEmpty then [] else g.regPast }) }

/-- A command removed. -/
def delCmd (s : State) (i : Nat) : State := endReads { s with mcmds := s.mcmds.filter (fun c => c.id != i) }

/-- The engine that works on a command: it releases at team scope (R370). -/
def cmdEng (s : State) (c : MCmd) : Eng := engOf s .team c.id c.g c.lane c.team c.ctx c.part .team

/-- The sender of a command's accesses: the matrix die of its stack (R12, R22). -/
def cmdSrc (s : State) (c : MCmd) : Sender := (coreDie (coreOfCtx s c.ctx) + 1, c.inc)

/-- What bytes at a place meet for a command. -/
def cmdPlace (s : State) (c : MCmd) (l : Loc) (n : Nat) : Reach := enginePlace s (cmdSrc s c) c.team c.ctx l n

/-- The FLAGS byte written and the barrier update made; the command leaves the queue (R359, R364). -/
def cmdReport (s : State) (c : MCmd) (flagsAt : Nat) (item : UpdItem) : State :=
  let s := engineWr s (cmdEng s c) (.pool (c.blk + flagsAt)) c.flags
  let s := match c.bar with
    | some k => sendUpd s k item (engineParty s .team c.id c.team c.ctx c.part .team)
    | none => s
  delCmd s c.id

/-- R359: the FLAGS bit of an uncorrectable memory error (R371). -/
def merrFlag : BitVec 8 := 0x80

/-! ## MMA (R349-R351, R358, R359, R367) -/

/-- What a register word of a group was before its i newest noted writes (R147). -/
def regBefore (x : GM) (past : List (Nat × W32)) (i off : Nat) : W32 :=
  match (past.take i).reverse.find? (fun e => e.1 == off) with
  | some e => e.2
  | none => readReg x (off / (4 * x.g.width)) (off / 4 % x.g.width)

/-- The moments at which a command may read an operand element at some bytes: memory now or as it stood, or the registers behind them as they are or were since the command's issue (R133, R147). -/
inductive ReadTime where
  | now
  | stamp (t : Nat)
  | reg (i : Nat)
  deriving DecidableEq, Repr

/-- The noted writes of a group since a command's issue, newest first. -/
def regSince (g : Group) (id : Nat) : List (Nat × W32) :=
  match g.readBy.find? (fun r => r.1 == id) with
  | some r => g.regPast.take (g.regPast.length - r.2)
  | none => []

/-- R147: the moments that an element at n bytes of a place may be read at. -/
def readTimes (s : State) (c : MCmd) (l : Loc) (n : Nat) : List ReadTime :=
  let ws := ((raceKey l).map (fun k => unitWrites s (engAcc (cmdEng s c)) true k n)).getD []
  let m := ((frameGroup s l).map (fun g => (regSince g c.id).length)).getD 0
  .now :: (ws.flatMap (fun e => [.stamp e.stamp, .stamp (e.stamp - 1)]) ++ (if m = 0 then [] else (List.range (m + 1)).map .reg))

/-- A byte of an operand read at a moment. -/
def byteThen (s : State) (c : MCmd) (l : Loc) (t : ReadTime) : Byte :=
  let b := (locRd s l 1).headD 0
  match t, raceKey l with
  | .now, _ | _, none => b
  | .stamp t, some k =>
    let es := writesOf s k
    if freeRead s (engAcc (cmdEng s c)) es then byteAt (sinceLanding es).1 t b else b
  | .reg i, some k => match frameGroup s l with
    | some g => BitVec.ofNat 8 ((regBefore (gmOf s g) (regSince g c.id) i (k % 2 ^ 64 / 4 * 4)).toNat >>> (8 * (k % 4)))
    | none => b

/-- R147: the bytes that a command reads of an operand for its element k: all of one moment, chosen for the element (DESIGN CHOICE, log 95). -/
def elemByte (s : State) (c : MCmd) (l : Loc) (n k : Nat) : Nat → Nat :=
  let ts := readTimes s c l n
  let t := nth ts (Config.raceChoice s.fresh (((raceKey l).getD 0) * 2 ^ 8 + k) % ts.length) .now
  fun i => (byteThen s c (locUp l i) t).toNat

/-- The elements of row r of step st of an operand, decoded with their scales (R350, R351); those of a word with an uncorrectable error, or under a scale of one, are NaN (R371). -/
def operandRow (s : State) (m : MCmd) (x : Loc) (sc : Option Loc) (d st r : Nat) : List FVal :=
  let K := mK d
  let at' := locUp x ((64 * st + r) * mRB d)
  let n := scaleBytes d K
  let sat := sc.map (fun y => locUp y ((64 * st + r) * n))
  match fmOf (descFmt d) with
  | none => []
  | some f => (List.range K).map (fun k =>
      let q := k / blkLen (descBlk d)
      if !s.poison.isEmpty && (elemOfRun f K (fun b => if badLine s (locUp at' b) 1 then 255 else 0) k != 0 || sat.any (fun y => badLine s (locUp y q) 1)) then
        .nan false
      else descDec d (elemOfRun f K (elemByte s m at' (mRB d) k) k) ((sat.map (fun y => elemByte s m y n q q)).getD 0))

/-- R345, R371: n words of the accumulator, those with an uncorrectable error read as the default NaN. -/
def accWords (s : State) (acc n : Nat) : List Nat :=
  (List.range n).map (fun w => if badKey s (acc + 4 * w) 4 then ffNaN .f32 else memRdV s.mem (acc + 4 * w) 4)

/-- R345: the tile's words. -/
def tileWords (s : State) (acc : Nat) : List Nat := accWords s acc 4096

/-- Whether one step of an MMA reads a word with an uncorrectable error (R371). -/
def stepBad (s : State) (c : MCmd) : Bool :=
  (stepPlaces c c.step (c.step + 1)).any (fun x => badLine s x.1 x.2) || (!(c.zero && c.step == 0) && badKey s c.acc 16384)

/-- R358: one step: the new words of the tile, with the flags raised. -/
def mmaStepWords (s : State) (c : MCmd) : List (Nat × Flags) :=
  let as' := (List.range 64).map (operandRow s c c.asrc c.ascl c.adesc c.step)
  let bs := (List.range 64).map (operandRow s c c.bsrc c.bscl c.bdesc c.step)
  let old := if c.zero && c.step == 0 then List.replicate 4096 0 else tileWords s c.acc
  old.zipIdx.map (fun x => mmaChunks (mK c.adesc / 16) ((nth as' (x.2 / 64) []).zip (nth bs (x.2 % 64) [])) x.1)

/-- Words written to a tile. -/
def tileWr (s : State) (acc : Nat) (ws : List Nat) : State := { s with mem := memWrN s.mem acc (ws.flatMap (leBytes 4)) }

/-- R367: whether the next step of an MMA may run: its turn, its last step not suspect (R372), its operands' lines present, its lane's earlier accesses done. -/
def stepDue (s : State) (c : MCmd) : Bool :=
  c.kind == .mma && (c.state == .queued || c.state == .begun) && !c.suspect && cmdTurn s c &&
    (stepPlaces c c.step (c.step + 1)).all (fun x => locPresent s x.1 x.2 && !engineBehind s .team c.g c.id c.lane x.1 x.2)

/-- Whether a command's core is within a squall's window (R476). -/
def squalling (s : State) (c : MCmd) : Bool := (coreAt s (coreOfCtx s c.ctx)).squall

/-- R358, R367: MMA_STEP; all the words of one step are read by one event (R147; DESIGN CHOICE, log 95). In a squall's window the step is suspect (R476). -/
def execMmaStep (cmd : Nat) (s : State) : Out :=
  match getCmd s cmd with
  | none => .next s
  | some c =>
    if !stepDue s c then .next s
    else
      let ws := mmaStepWords s c
      let fl : Flags := ws.foldl (fun f w => f ||| w.2) 0
      let err : BitVec 8 := if stepBad s c then merrFlag else 0
      let s1 := (engineRds s (cmdEng s c) true 1 (stepPlaces c c.step (c.step + 1))).1
      .next (modCmd (tileWr s1 c.acc (ws.map (·.1))) cmd (fun c =>
        { c with step := c.step + 1, suspect := squalling s c, flags := c.flags ||| fl.setWidth 8 ||| err, state := if c.step + 1 = c.steps then .stepsDone else .begun }))

/-- R359, R367: MMA_RESULTS: FLAGS and the arrival, in the context's order (R366). -/
def execMmaResults (cmd : Nat) (s : State) : Out :=
  match getCmd s cmd with
  | none => .next s
  | some c =>
    if c.kind == .mma && c.state == .stepsDone && !c.suspect && ctxHere s c.ctx && !ctxPaused s c.ctx && !updatesBefore s c then
      .next (cmdReport s c 18 ⟨true, 0, 0, c.flags.getLsbD 7, 0, false⟩)
    else .next s

/-! ## Tile moves (R360, R361, R368) -/

/-- R368: MATRIX_COMMAND_BEGIN: AZERO clears its tiles, AMOV and ADRAIN read the accumulator. -/
def execMatrixCommandBegin (cmd : Nat) (s : State) : Out :=
  match getCmd s cmd with
  | none => .next s
  | some c =>
    if c.state != .queued || !cmdTurn s c then .next s
    else
      let begin' := fun (s : State) (tile : List Nat) => modCmd s cmd (fun c => { c with state := .begun, tile := tile })
      match c.kind with
      | .mma => .next s
      | .azero => .next (begin' { s with mem := memZero s.mem c.acc (accSpan c) } [])
      | .amov => .next (begin' s (accWords s c.acc (64 * c.n)))
      | .ains => .next (begin' s [])
      | .adrain => .next (modCmd (begin' s (tileWords s c.acc)) cmd (fun c =>
          { c with flags := c.flags ||| (if badKey s c.acc 16384 then merrFlag else 0) }))

/-- R361: the words of an AMOV written to the frame, as loaded values are, under a spill-now mark through to it (R66, R223). -/
def amovWords (x : GM) (c : MCmd) : GM :=
  c.tile.zipIdx.foldl (fun x w => putReg x (c.reg + w.2 / x.g.width) (w.2 % x.g.width) (BitVec.ofNat 32 w.1) c.sn) x

/-- R361: the words of an AINS read from the frame by the one event of its finish, each as it stands or as it was since the issue (R147; DESIGN CHOICE, log 95), those with an uncorrectable error as the default NaN (R371). -/
def ainsWords (s : State) (g : Group) (c : MCmd) : List Nat :=
  (List.range (64 * c.n)).map (fun w =>
    let k := frameKey g.id (regOff g.width (c.reg + w / g.width) (w % g.width))
    if badKey s k 4 then ffNaN .f32 else packElems 8 ((List.range 4).map (elemByte s c (.pool k) 4 0)))

/-- R360, R361: MATRIX_COMMAND_FINISH: the words of AMOV and AINS moved and d4 decremented; the command leaves the queue. -/
def execMatrixCommandFinish (cmd : Nat) (s : State) : Out :=
  match getCmd s cmd with
  | none => .next s
  | some c =>
    if c.state != .begun || !ctxHere s c.ctx then .next s
    else match c.kind, getG s c.g with
      | .azero, _ => .next (delCmd s cmd)
      | .amov, some _ => .next (delCmd (modGM s c.g (fun x => let y := amovWords x c
          { y with g := cntDec y.g 4 })) cmd)
      | .ains, some g => .next (delCmd (modG (tileWr { s with fresh := s.fresh + 1 } c.acc (ainsWords s g c)) c.g (fun g => cntDec g 4)) cmd)
      | _, _ => .next s

/-- R372, R476: MATRIX_STEP_REEXECUTE: a step or a row executed again from the staged words gives what a single execution gives; a suspect step counts in SQCNT and is executed again until it is not suspect (DESIGN CHOICE, log 73). -/
def execMatrixStepReexecute (cmd : Nat) (s : State) : Out :=
  match getCmd s cmd with
  | none => .next s
  | some c => .next (if c.suspect then modCmd { s with sqcnt := s.sqcnt + 1 } cmd (fun c => { c with suspect := false }) else s)

/-! ## Drains (R363-R365, R369, R371) -/

/-- R363: a row encoded under a descriptor: its bytes, its scale bytes, the flags raised. -/
def encRow (d : Nat) (ws : List Nat) : List Byte × List Byte × Flags :=
  match fmOf (descFmt d) with
  | none => ([], [], 0)
  | some f =>
    let vs := ws.map (fun w => fdec .f32 w)
    let pack := fun (cs : List Nat) => (runOfElems f cs).map (fun b => BitVec.ofNat 8 b.2)
    if descBlk d = 0 then
      let es := vs.map (fmEnc f)
      (pack (es.map (·.1)), [], es.foldl (fun a e => a ||| e.2) 0)
    else
      let L := blkLen (descBlk d)
      let bs := (List.range (64 / L)).map (fun q => encBlock d ((vs.drop (q * L)).take L))
      (pack (bs.flatMap (fun b => b.2.1.map (·.1))), bs.map (fun b => BitVec.ofNat 8 b.1),
        bs.foldl (fun a b => b.2.1.foldl (fun a e => a ||| e.2) (a ||| b.2.2)) 0)

/-- The tile's words that a drain's row holds: row i, or column j (R363). -/
def rowWords (c : MCmd) (r : Nat) : List Nat :=
  (List.range 64).map (fun i => if r < 64 then nth c.tile (64 * r + i) 0 else nth c.tile (64 * i + (r - 64)) 0)

/-- The descriptor of a row. -/
def rowDesc (c : MCmd) (r : Nat) : Nat := if r < 64 then c.ddesc else c.xdesc

/-- A produced byte joined to its line (R364). -/
def joinByte (ls : List CopyLine) (id : Nat) (b : Loc × Byte) : List CopyLine :=
  if ls.any (fun l => l.bytes.any (fun x => locLine x.1 == locLine b.1)) then
    ls.map (fun l => if l.bytes.any (fun x => locLine x.1 == locLine b.1) then { l with bytes := l.bytes ++ [b] } else l)
  else ls ++ [{ id := id, bytes := [b] }]

/-- The places of a row's bytes, in the order in which a drain produces them (R363, R371). -/
def drainBytesAt (c : MCmd) (r : Nat) : List Loc := (rowPlaces c r).flatMap (fun x => (List.range x.2).map (locUp x.1))

/-- Whether a byte yet to be produced, of the next row or of a later one, writes a line (DESIGN CHOICE, log 48). -/
def rowsAhead (c : MCmd) (line : Loc) : Bool :=
  (List.range (drainRows c - c.step)).any (fun j =>
    ((drainBytesAt c (c.step + j)).drop (if j = 0 then c.made else 0)).any (fun b => locLine b == line))

/-- The line of a produced line's bytes. -/
def lineAt (l : CopyLine) : Option Loc := l.bytes.head?.map (fun b => locLine b.1)

/-- The granule that a drain must ask for: under a line it has produced, or under the next byte that it produces (R371). -/
def cmdPage (s : State) (c : MCmd) : Option Nat :=
  let rs := c.lines.flatMap (fun l => l.bytes.map (fun b => cmdPlace s c b.1 1)) ++
    ((drainBytesAt c c.step)[c.made]?).toList.map (fun b => cmdPlace s c b 1)
  match worstReach rs with
  | .page g => if c.kind = .adrain ∧ c.state = .begun then some g else none
  | .ready | .held | .host => none

/-- Whether an engine may write a place now. -/
def writable (s : State) (c : MCmd) (l : Loc) (n : Nat) : Bool :=
  match cmdPlace s c l n with
  | .ready | .host => true
  | .held | .page _ => false

/-- What a drain produces for its next row: under ADD its words as they are (R365), else its encoding with the flags raised (R363). -/
def drainRow (c : MCmd) : List Byte × List Byte × Flags :=
  let ws := rowWords c c.step
  if c.add then (ws.flatMap (leBytes 4), [], 0) else encRow (rowDesc c c.step) ws

/-- A drain that produces nothing further: whole lines already produced stay. -/
def stopDrain (s : State) (c : MCmd) : MCmd :=
  let whole := fun (l : CopyLine) => !((lineAt l).map (rowsAhead c)).getD true && l.bytes.all (fun b => writable s c b.1 1) &&
    !(c.add && l.bytes.any (fun b => (hostFrame s b.1).isSome))
  let ls := c.lines.filter whole
  { c with step := drainRows c, made := 0, lines := ls, pageAt := none, state := .begun,
           absent := ls.foldl (fun a l => l.bytes.foldl (fun a b => markAbsent a b.1 1) a) [] }

/-- R371: a drain aborted: nothing further is produced, whole lines already produced stay, the tile is not cleared. -/
def abortDrain (s : State) (cmd : Nat) : State :=
  modCmd s cmd (fun c =>
    if c.kind == .adrain && (c.state == .begun || c.state == .stopped) then { stopDrain s c with flags := c.flags ||| 0x40 } else c)

/-- R369, R371: DRAIN_ROW: the next row encoded, its bytes joined to their lines, up to the first line that cannot be written yet; one in host memory over a link that is down aborts the drain (R441). -/
def execDrainRow (cmd : Nat) (s : State) : Out :=
  match getCmd s cmd with
  | none => .next s
  | some c =>
    if !(c.kind == .adrain && c.state == .begun && decide (c.step < drainRows c) && ctxHere s c.ctx && !ctxPaused s c.ctx) then .next s
    else
      let (es, scs, fl) := drainRow c
      let left := (((rowPlaces c c.step).zip [es, scs]).flatMap (fun x => placed x.1.1 x.2)).drop c.made
      let bs := left.takeWhile (fun b => writable s c b.1 1)
      if left.head?.any (fun b => linkLost s c.part b.1) then .next (abortDrain s cmd)
      else if bs.isEmpty && !left.isEmpty then .next s
      else
        let ls := bs.zipIdx.foldl (fun ls b => joinByte ls (s.nextId + b.2) b.1) c.lines
        .next (modCmd { s with nextId := s.nextId + bs.length } cmd (fun c =>
          if bs.length = left.length then { c with step := c.step + 1, made := 0, lines := ls, flags := c.flags ||| fl.setWidth 8 }
          else { c with made := c.made + bs.length, lines := ls }))

/-- R365: F32 words added into a line, one indivisible update that reads what stands there; an old word with an uncorrectable error is the default NaN (DESIGN CHOICE, log 43). -/
def addLine (e : Eng) : List (Loc × Byte) → State × Flags → State × Flags
  | a :: b :: c :: d :: rest, (s, fl) =>
    let s := pastL1 s e a.1 4
    let old := if badLine s a.1 4 then ffNaN .f32 else leValue (locRd s a.1 4)
    let x := leValue [a.2, b.2, c.2, d.2]
    let (v, f) := finish .f32 .rne false (addVal .rne (fdec .f32 old) (fdec .f32 x))
    let s := (placed a.1 (leBytes 4 v)).foldl (fun s y => engineWr s e y.1 y.2) s
    addLine e rest (s, fl ||| f)
  | _, x => x

/-- R369: whether a produced line may be performed: no later row writes it, the lane's earlier accesses and earlier engines' bytes for it are done (DESIGN CHOICE, log 48). -/
def lineDue (s : State) (c : MCmd) (l : CopyLine) : Bool :=
  ctxHere s c.ctx && !((lineAt l).map (rowsAhead c)).getD true &&
    l.bytes.all (fun b => writable s c b.1 1 && !engineBehind s .team c.g c.id c.lane b.1 1 && (match b.1 with
      | .pool k => !(hasPresence k && absentBefore s c.id (poolLine k))
      | .uni _ _ | .lat _ _ _ | .peer _ _ _ | .mcast _ _ _ => true))

/-- R364, R365, R369: DRAIN_LINE_PERFORMED; an add-on-store to a host frame aborts the drain (R427) (DESIGN CHOICE, log 48). -/
def execDrainLinePerformed (cmd line : Nat) (s : State) : Out :=
  match getCmd s cmd with
  | none => .next s
  | some c =>
    match c.lines.find? (fun l => l.id == line) with
    | none => .next s
    | some l =>
      let e := cmdEng s c
      if l.bytes.any (fun b => linkLost s c.part b.1) && ctxHere s c.ctx then .next (abortDrain s cmd)
      else if !lineDue s c l then .next s
      else if c.add && l.bytes.any (fun b => (hostFrame s b.1).isSome) then .next (abortDrain s cmd)
      else if c.add && l.bytes.any (fun b => (staleAt s (cmdSrc s c) b.1 1).isSome) then
        .next (modCmd (l.bytes.foldl (fun s b => sendByte s (cmdSrc s c) e b.1 b.2) s) cmd (fun c => { c with lines := c.lines.filter (fun e => e.id != line) }))
      else
        let (s1, fl) := if c.add then addLine e l.bytes (s, 0) else (l.bytes.foldl (fun s b => sendByte s (cmdSrc s c) e b.1 b.2) s, 0)
        let err : BitVec 8 := if c.add && l.bytes.any (fun b => badLine s b.1 1) then merrFlag else 0
        .next (modCmd s1 cmd (fun c => { c with
          lines := c.lines.filter (fun e => e.id != line), absent := l.bytes.foldl (fun a b => clearAbsent a b.1 1) c.absent,
          flags := c.flags ||| fl.setWidth 8 ||| err }))

/-- R364, R368, R371: DRAIN_COMPLETE: the tile cleared under CLR, FLAGS, and the update with every T, P and F byte. -/
def execDrainComplete (cmd : Nat) (s : State) : Out :=
  match getCmd s cmd with
  | none => .next s
  | some c =>
    if c.killed then .next (if c.lines.isEmpty then delCmd s cmd else s)
    else if c.kind == .adrain && c.state == .begun && c.step == drainRows c && c.lines.isEmpty && ctxHere s c.ctx && !ctxPaused s c.ctx && !updatesBefore s c then
      let s1 := if c.clr && !c.flags.getLsbD 6 then { s with mem := memZero s.mem c.acc 16384 } else s
      .next (cmdReport s1 c 12 ⟨true, 0, c.credit, c.flags.getLsbD 6 || c.flags.getLsbD 7, 0, false⟩)
    else .next s

/-- R371: DRAIN_PAGE_RESUME. -/
def execDrainPageResume (cmd : Nat) (s : State) : Out :=
  match getCmd s cmd with
  | none => .next s
  | some c =>
    match c.state, c.pageAt with
    | .stopped, some n =>
      let g := granAt (partAt s c.part) n
      .next (if !granNone g && g.moving.isNone then modCmd s cmd (fun c => { c with state := .begun, pageAt := none }) else s)
    | _, _ => .next s

/-- R371: DRAIN_ABORT: a failed page or a reset target (DESIGN CHOICE, log 43). -/
def execDrainAbort (cmd : Nat) (s : State) : Out := .next (abortDrain s cmd)

end Sys2Proof.Machine
end

