-- ==== Sys2Proof/Machine/Fabric.lean ====
section
/-! DEFINITION. Sys2Proof/Machine/Fabric.lean: accesses to peers and multicast groups, XFENCE, XQRY and collectives (R398-R413). -/

namespace Sys2Proof.Machine

/-! ## X and M accesses (R400-R403) -/

/-- A multicast group's members, in ascending number (R399). -/
def membersOf (p : Part) (num : Nat) : List Nat := ((p.groups.find? (fun g => g.num == num)).map MGroup.members).getD []

/-- The members that a place names (R116, R402). -/
def fabTargets (p : Part) (l : Loc) : List Nat :=
  match l with
  | .peer m _ _ => [m]
  | .mcast g _ _ => membersOf p g
  | .pool _ | .uni _ _ | .lat _ _ _ => []

/-- Whether a place is reached through the fabric. -/
def isFabric (l : Loc) : Bool :=
  match l with
  | .peer _ _ _ | .mcast _ _ _ => true
  | .pool _ | .uni _ _ | .lat _ _ _ => false

/-- Whether a kind returns a value (R401). -/
def returnsValue (k : OpKind) : Bool :=
  match k with
  | .ld _ _ _ | .ldb _ _ | .atom _ | .acas => true
  | _ => false

/-- The number of a partition's own member; none outside a domain. -/
def isMe (s : State) (part m : Nat) : Bool := (partAt s part).member == some m

/-- R401: one lane accepted at a fabric port: a store or reduction leaves the group's counter, a load or atomic waits for its value. -/
def portLane (id : Nat) (s : State) (lane : Nat) : State :=
  match getOp s id with
  | none => s
  | some o =>
    match getG s o.g, o.lanes.find? (fun x => x.lane == lane) with
    | some g, some x =>
      if isFabric x.loc && orderFree s o x && (returnsValue o.kind || isWrite o.kind) then
        let s := if relOrder o.order && wideScope o.scope then releaseAct s g else s
        if returnsValue o.kind then setLane s id lane (fun x => { x with st := .peer })
        else
          let part := partOf s g
          let ms := fabTargets (partAt s part) x.loc
          let p := laneParty g.id lane
          let red := match o.kind with
            | .red op => some op
            | _ => none
          let w : PeerWrite :=
            { id := s.nextId, op := id, g := o.g, part := part, loc := x.loc, size := o.size, red := red, data := wordsValue x.data, party := p,
              src := partyOf s g o.scope, rels := ownRels s (accOf s g o lane) (relOrder o.order), strong := isStrong o, members := ms,
              pending := ms.filter (fun m => !isMe s part m), own := ms.any (isMe s part), failed := false }
          opEnd (setLane { s with nextId := s.nextId + 1, pwrites := s.pwrites ++ [w] } id lane (fun x => { x with st := .performed })) id
      else s
    | _, _ => s

/-- R401: FABRIC_PORT_ACCEPT. -/
def execFabricPortAccept (op : Nat) (s : State) : Out :=
  match getOp s op with
  | none => .next s
  | some o => .next (o.lanes.foldl (fun s x => portLane op s x.lane) s)

/-! ## Other members as parties (R124, R403) -/

/-- The party of another member: no lane or engine has its number (DESIGN CHOICE, log 51). -/
def outsideNo (part member : Nat) : Nat := 2 ^ 60 + 2 ^ 20 * part + member

/-- A party of another member, for the scope rules (R124) (DESIGN CHOICE, log 51). -/
def outsideParty (part member : Nat) (sc : Scope) : StrongRec :=
  { word := 0, group := 2 ^ 41 + member, team := 2 ^ 41 + member, stack := 2 ^ 41, part := part + outsideBase * (member + 1), scope := sc, view := [], vscope := sc }

/-- The host and its agents, in system scope only (R124). -/
def hostParty (part : Nat) : StrongRec := outsideParty part hostBase .sys

/-- The number under which the host accesses this member: no member has it (DESIGN CHOICE, log 51). -/
def hostMember : Nat := 512

/-- The party that an access from outside comes from: the host, or another member (R124). -/
def memberParty (part member : Nat) (sc : Scope) : StrongRec := if member = hostMember then hostParty part else outsideParty part member sc

/-- The command front, in the device scope of the partition (R124). -/
def frontParty (part : Nat) : StrongRec := { hostParty part with part := part }

/-- What a member's release carries for those who acquire it here: what other members have written here (DESIGN CHOICE, log 51). -/
def outsideView (s : State) (part : Nat) : View :=
  if s.past.isEmpty then [] else (partAt s part).peers.map (fun q => (outsideNo part q.member, s.stamp))

/-- A peer as a partition knows it. -/
def peerAt (s : State) (part member : Nat) : Option Peer := (partAt s part).peers.find? (fun q => q.member == member)

/-- R403: whether a packet of a member is stale: its incarnation is not the member's, or, in an answer, not that of this member. -/
def fabStale (s : State) (part member incarn : Nat) (req : Option Nat) : Bool :=
  (peerAt s part member).any (fun q => q.incarn != incarn) || req.any (fun r => r != (partAt s part).myIncarn.toNat)

/-- R403: a stale packet dropped and counted. -/
def dropStale (s : State) (part : Nat) : State := modP s part (fun p => { p with staleFab := p.staleFab + 1 })

/-- R138: a scope mismatch that a peer met sets the flag of the group whose access is an atomic, a reduction or an acquire. -/
def fabFlag (s : State) (gid : Nat) (counts mism : Bool) : State :=
  if counts && mism && ((getG s gid).any (fun g => (partAt s (partOf s g)).scopemis)) then modG s gid (fun g => { g with scopeflag := true }) else s

/-- R127, R128, R400: what a value that a peer returned synchronises with: an acquire at a scope with the peer learns what the peer's releases carry, a relaxed strong read keeps it for a later fence (DESIGN CHOICE, log 51). -/
def fabricSync (s : State) (g : Group) (o : Op) (lane m : Nat) : State :=
  let part := partOf s g
  let r : StrongRec := { outsideParty part m .fab with view := outsideView s part }
  if !(isStrong o && EngLevel.fab.within o.scope) || r.view.isEmpty then s
  else if acqOrder o.order then learn s (laneParty g.id lane) r.view
  else modKnow s (laneParty g.id lane) (fun k => { k with seen := r :: k.seen })

/-- R401, R403: PEER_ACCESS_REPLY: status 0 a value, 1 a peer that has reset, else a peer that refuses; a stale answer is dropped. -/
def execPeerAccessReply (op lane status : Nat) (value : FabValue) (s : State) : Out :=
  match getOp s op with
  | none => .next s
  | some o =>
    match getG s o.g, o.lanes.find? (fun x => x.lane == lane) with
    | some g, some x =>
      let part := partOf s g
      let m := ((fabTargets (partAt s part) x.loc).head?).getD 0
      if x.st != .peer || !frameHere s o.g then .next s
      else if status = 1 then .next (failLane s o lane 0x10 0)
      else if fabStale s part m value.tag.incarn (some value.tag.req) then .next (dropStale s part)
      else if status = 0 then
        let s := fabFlag s o.g (isRmw o.kind || acqOrder o.order) value.tag.mism
        let s := if acqOrder o.order && wideScope o.scope then acquireAct s g else s
        let s := fabricSync s g o lane m
        let ws := laneReturns o (wordBytes o.size value.vals)
        .next (opEnd (setLane (returnValue s o lane ws) op lane (fun x => { x with st := .performed, val := ws })) op)
      else .next (failLane s o lane 0x10 2)
    | _, _ => .next s

/-- A write that a member lost or refused, counted for its group (R403, R406) (DEDUCED, log 49). -/
def failWrite (s : State) (w : PeerWrite) : State :=
  modG s w.g (fun g => { g with xf := g.xf ++ [{ op := w.op, members := w.members, byAll := false, byOne := [] }] })

/-- A write of the fabric port by its number. -/
def getWrite (s : State) (i : Nat) : Option PeerWrite := s.pwrites.find? (fun w => w.id == i)

/-- A write changed; once every target has acknowledged it and its own copy is made it is over, and counted where it failed (R401-R403). -/
def stepWrite (s : State) (i : Nat) (f : PeerWrite → PeerWrite) : State :=
  match (getWrite s i).map f with
  | none => s
  | some w =>
    if w.pending.isEmpty && !w.own then
      let s1 := { s with pwrites := s.pwrites.filter (fun v => v.id != i) }
      if w.failed then failWrite s1 w else s1
    else { s with pwrites := modBy PeerWrite.id s.pwrites i (fun _ => w) }

/-- R401, R403, R406: PEER_WRITE_ACK: a target acknowledges a write or refuses it; a stale answer is dropped. -/
def execPeerWriteAck (write : Nat) (ack : FabAck) (s : State) : Out :=
  match getWrite s write with
  | none => .next s
  | some w =>
    if !w.pending.contains ack.member then .next s
    else if fabStale s w.part ack.member ack.tag.incarn (some ack.tag.req) then .next (dropStale s w.part)
    else .next (stepWrite (fabFlag s w.g w.red.isSome ack.tag.mism) write (fun w =>
      { w with pending := w.pending.filter (· != ack.member), failed := w.failed || ack.failed }))

/-! ## Updates that reach this member (R400, R402) -/

/-- Whether unified bytes can be read and written now. -/
def uniHere (s : State) (part ua n : Nat) : Bool :=
  match uniReach s part ua n with
  | .ready | .host => true
  | .held | .page _ => false

/-- A write performed at this member's home slice by a party that does not pass its L1 ways, remembered for racing reads with the releases that it carries (R127, R131, R133); a strong one is recorded (R138). -/
def fabricWrite (s : State) (a : Acc) (own : List StrongRec) (part ua : Nat) (bs : List Byte) : State :=
  let l := Loc.uni part ua
  let s1 := raceWrite s a own l (uniRd s part ua bs.length) bs
  uniSet (if a.strong then recordStrong s1 l bs.length a.me else s1) part ua bs

/-- What a multicast update does to a place: an object's bytes, a reduction's operation, the value (R402). -/
structure McastDo where
  obj : Nat
  off : Nat
  size : Nat
  red : Option (BitVec 4)
  data : Nat
  deriving DecidableEq, Repr

/-- An own write as what it does (R402). -/
def ownDo (w : PeerWrite) : McastDo :=
  match w.loc with
  | .mcast _ o off | .peer _ o off => ⟨o, off, w.size, w.red, w.data⟩
  | .pool _ | .uni _ _ | .lat _ _ _ => ⟨0, 0, w.size, w.red, w.data⟩

/-- R402: several reductions of one word combined into one, in the order listed. -/
def mcastJoin : List McastDo → Option McastDo
  | [] => none
  | d :: ds => some (ds.foldl (fun a b => { a with data := atomNew ((a.red.getD 0).toNat) a.size a.data b.data }) d)

/-- R402: whether updates may reach a member combined: one alone, or reductions of one word by one operation. -/
def combines (ds : List McastDo) : Bool :=
  match ds with
  | [] => false
  | [_] => true
  | d :: ds => d.red.isSome && ds.all (fun e => e.obj == d.obj && e.off == d.off && e.size == d.size && e.red == d.red)

/-- An update put among others at a place that the switch chooses (R8, R402). -/
def insertAt (k : Nat) (d : McastDo) (ds : List McastDo) : List McastDo := ds.take (k % (ds.length + 1)) ++ d :: ds.drop (k % (ds.length + 1))

/-- Whether an earlier write of the same lane to the same bytes has still to be made here (R126). -/
def ownBefore (s : State) (w : PeerWrite) : Bool :=
  s.pwrites.any (fun v => v.own && v.party == w.party && decide (v.id < w.id) && locOverlap v.loc v.size w.loc w.size)

/-- The access of another member's update for the rules of races. -/
def outsideAcc (u : FabricUpdate) : Acc :=
  { party := outsideNo u.part u.member, op := 0, me := outsideParty u.part u.member u.scope, strong := u.strong, rmw := u.red.isSome }

/-- What a release of another member carries (DESIGN CHOICE, log 51). -/
def outsideRel (s : State) (a : Acc) (part : Nat) (o : Order) : List StrongRec :=
  if relOrder o then [{ relNow s a.party a.me a.me.scope with view := viewJoin (fullView s a.party) (outsideView s part) }] else []

/-- The access of an own write for the rules of races. -/
def ownAcc (w : PeerWrite) : Acc := { party := w.party, op := w.op, me := w.src, strong := w.strong, rmw := w.red.isSome }

/-- R138, R401: an own reduction that meets a scope mismatch at this home slice sets its group's flag. -/
def ownFlag (part ua : Nat) (s : State) (w : PeerWrite) : State :=
  fabFlag s w.g w.red.isSome (mismatch s w.src w.strong w.red.isSome (.uni part ua) w.size)

/-- What this member answers another one's update with: whether it was made, and whether it met a scope mismatch (R401, R403). -/
def answerUpdate (s : State) (made mism : Bool) (u : FabricUpdate) : State :=
  { s with fabOut := s.fabOut ++ [⟨u.part, u.member, u.incarn, made, [], mism⟩] }

/-- Updates delivered together performed as one write of the value, or refused: the flags, the write, the own copies made, the other member answered (R401-R403). -/
def mcastPerform (s : State) (part ua n : Nat) (v : Nat) (ok : Bool) (us : List FabricUpdate) (ws : List PeerWrite) : State :=
  let l := Loc.uni part ua
  let mism := ok && us.any (fun u => mismatch s (outsideAcc u).me u.strong u.red.isSome l n)
  let s0 := if ok then ws.foldl (fun s w => ownFlag part ua s w) { s with fresh := s.fresh + 1 } else s
  let s1 := match ok, us.map outsideAcc ++ ws.map ownAcc with
    | true, a :: _ => fabricWrite s0 a (us.flatMap (fun u => outsideRel s0 (outsideAcc u) part u.order) ++ ws.flatMap PeerWrite.rels) part ua (leBytes n v)
    | _, _ => s0
  us.foldl (fun s u => answerUpdate s ok mism u) (ws.foldl (fun s w => stepWrite s w.id (fun w => { w with own := false, failed := w.failed || !ok })) s1)

/-- R402: MULTICAST_APPLY: what the switches deliver to this member: another member's update, own writes, or reductions combined; a stale one is dropped, one that its table does not grant is refused (R403) (DESIGN CHOICE, log 51). -/
def execMulticastApply (dlv : FabricDelivery) (s : State) : Out :=
  let ws := dlv.own.filterMap (getWrite s)
  let part := match dlv.upd with
    | some u => u.part
    | none => ((ws.head?).map PeerWrite.part).getD 0
  let foreign := dlv.upd.toList.filter (fun u => (partAt s part).member.any (fun me => (membersOf (partAt s part) u.group).contains me) &&
    (peerAt s part u.member).isSome)
  if foreign.any (fun u => fabStale s part u.member u.incarn none) then .next (dropStale s part)
  else
    let ds := match foreign with
      | [] => ws.map ownDo
      | u :: _ => insertAt (Config.raceChoice s.fresh 0) ⟨u.obj, u.off, u.size, u.red, u.data⟩ (ws.map ownDo)
    match mcastJoin ds with
    | none => .next s
    | some d =>
      let e := objTable s part d.obj
      let ua := e.ubase + d.off
      let ok := entGrants e d.off d.size (if d.red.isSome then 10 else 2)
      if foreign.length != dlv.upd.toList.length || !combines ds || ws.length != dlv.own.length || ws.any (fun w => !w.own || ownBefore s w || w.part != part) ||
          (ok && !uniHere s part ua d.size) then .next s
      else
        let old := leValue (uniRd s part ua d.size)
        let v := match d.red with
          | some op => atomNew op.toNat d.size old d.data
          | none => d.data
        .next (mcastPerform s part ua d.size v ok foreign ws)

/-- The rights that a peer's access needs (R246). -/
def accessRights (k : FabricKind) : BitVec 4 :=
  match k with
  | .read => 1
  | .write _ => 2
  | .atom _ _ | .acas _ _ => 11

/-- The value a peer's access writes over an old one, where it writes (R400). -/
def accessValue (k : FabricKind) (n old : Nat) : Option Nat :=
  match k with
  | .read => none
  | .write d => some d
  | .atom op d => some (atomNew op.toNat n old d)
  | .acas c d => if old = c then some d else none

/-- Whether a peer's access reads and writes at once. -/
def accessRmw (k : FabricKind) : Bool :=
  match k with
  | .atom _ _ | .acas _ _ => true
  | .read | .write _ => false

/-- A peer's access made here, with the value it reads and whether it met a scope mismatch (R132, R137, R138). -/
def fabricAccess (s : State) (acc : FabricAccess) (ua : Nat) : State × List Byte × Bool :=
  let p := outsideNo acc.part acc.member
  let l := Loc.uni acc.part ua
  let rmw := accessRmw acc.kind
  let a : Acc := { party := p, op := 0, me := memberParty acc.part acc.member acc.scope, strong := acc.strong, rmw := rmw }
  let mism := mismatch s a.me acc.strong (rmw || acqOrder acc.order) l acc.size
  let old := uniRd s acc.part ua acc.size
  let q := match acc.kind with
    | .write _ => (s, old.map (fun b => (b, none)))
    | .read | .atom _ _ | .acas _ _ => raceRead s a false l old
  let bs := q.2.map (·.1)
  let s1 := if acc.strong && acqOrder acc.order then learn q.1 p (acquired a.me acc.scope (relsOf a.me true (q.2.map (·.2)))) else q.1
  match accessValue acc.kind acc.size (leValue bs) with
  | some v => (fabricWrite s1 a (outsideRel s1 a acc.part acc.order) acc.part ua (leBytes acc.size v), bs, mism)
  | none => (s1, bs, mism)

/-- R400, R403: INBOUND_FABRIC_ACCESS: a peer's access performed here and answered; a stale one is dropped and counted, one without rights refused (DESIGN CHOICE, log 51). -/
def execInboundFabricAccess (acc : FabricAccess) (s : State) : Out :=
  match peerAt s acc.part acc.member with
  | none => .next s
  | some _ =>
    let e := objTable s acc.part acc.obj
    let ua := e.ubase + acc.off
    let answer := fun (s : State) (made : Bool) (val : List Byte) (mism : Bool) =>
      (.next { s with fabOut := s.fabOut ++ [⟨acc.part, acc.member, acc.incarn, made, val, mism⟩] } : Out)
    if fabStale s acc.part acc.member acc.incarn none then .next (dropStale s acc.part)
    else if !entGrants e acc.off acc.size (accessRights acc.kind) then answer s false [] false
    else if !uniHere s acc.part ua acc.size then .next s
    else
      let r := fabricAccess s acc ua
      answer r.1 true (match acc.kind with
        | .write _ => []
        | .read | .atom _ _ | .acas _ _ => r.2.1) r.2.2

/-! ## XFENCE and XQRY (R406, R407) -/

/-- Whether writes of a group before an operation wait for an acknowledgement, all of them or those sent to one member (R406). -/
def xWaits (s : State) (g : Group) (id : Nat) (member : Option Nat) : Bool :=
  let goes := fun (ms : List Nat) => match member with
    | none => true
    | some m => ms.contains m
  s.pwrites.any (fun w => w.g == g.id && decide (w.op < id) && goes w.members) ||
  s.ops.any (fun o => o.g == g.id && decide (o.id < id) && isWrite o.kind && !returnsValue o.kind &&
    o.lanes.any (fun x => isFabric x.loc && !laneOver x && goes (fabTargets (partAt s (partOf s g)) x.loc)))

/-- Whether an XFENCE counts a failed write: earlier, of its extent, and not counted by one of the same extent (DEDUCED, log 49). -/
def xCounts (id : Nat) (member : Option Nat) (x : XfFail) : Bool :=
  decide (x.op < id) && (match member with
    | none => !x.byAll
    | some m => x.members.contains m && !x.byOne.contains m)

/-- R406: XFENCE (DEDUCED, log 49). -/
def execXfence (f : FormM) (s : State) : Out :=
  let nA := if f.a = .zero then 0 else 2
  memIssue s 0xD1 f nA 0 1 (fun s x c word eff =>
    let l := (lowLane eff).getD 0
    let p := rdOpd x f.a .b64 l
    let x := ocWriteBackAll x
    if f.a != .zero && ptrSpace p != 9 then addrOut s x c word eff .capability p
    else if cntOf x.g 6 == 63 then stallOut s x.g .stall
    else if relOrder f.order && !fenceDrained s x.g f.scope then stallOut s x.g (.fence f.order f.scope)
    else
      let kind := OpKind.xfence (if f.a = .zero then none else some (ptrF1 p))
      let s1 := launchPlain s (memDone x c f 0 eff) kind 6 [valLane l []] (dstOf x.g f.d f.sn) eff word
      .next (if relOrder f.order then markHold (releaseAct s1 x.g) x.g.id else s1))

/-- R406: XFENCE_DONE: the number of failed writes, saturated. -/
def execXfenceDone (op : Nat) (s : State) : Out :=
  match getOp s op with
  | none => .next s
  | some o =>
    match o.kind, getG s o.g with
    | .xfence m, some g =>
      if xWaits s g op m || !frameHere s o.g then .next s
      else
        let n := (g.xf.filter (xCounts op m)).length
        let mark := fun x : XfFail => if !xCounts op m x then x else match m with
          | none => { x with byAll := true }
          | some k => { x with byOne := k :: x.byOne }
        .next (cmdReturn (modG s o.g (fun g => { g with xf := g.xf.map mark })) o [BitVec.ofNat 32 (min n 0xFFFFFFFF)])
    | _, _ => .next s

/-- R407: what XQRY reads, 0 for the incarnation of a member that cannot be reached; none where the manual states no value. -/
def xqryValue (p : Part) (field a : Nat) : Option Nat :=
  let grp := (p.groups.find? (fun g => g.num == ptrF1 a)).map MGroup.members
  let hops := fun (m : Nat) => (p.peers.find? (fun q => q.member == m)).map Peer.hops
  match field with
  | 0 => p.member
  | 1 => p.member.map (fun _ => p.peers.length + 1)
  | 2 => if ptrSpace a != 10 then some 0xFFFFFFFF else grp.bind (fun ms => p.member.bind (fun me => ms.findIdx? (· == me)))
  | 3 => if ptrSpace a != 10 then some 0xFFFFFFFF else grp.map List.length
  | 4 =>
    if ptrSpace a != 9 then some 0xFFFFFFFF
    else if p.member = some (ptrF1 a) then some p.myIncarn.toNat
    else some (((p.peers.find? (fun q => q.member == ptrF1 a && q.reach)).map Peer.incarn).getD 0)
  | _ =>
    if ptrSpace a = 9 then hops (ptrF1 a)
    else if ptrSpace a = 10 then grp.bind (fun ms => (ms.filterMap hops).max?)
    else some 0xFFFFFFFF

/-- R407: XQRY: the value at its issue (DEDUCED, log 44); one that no rule states is free (DESIGN CHOICE, log 2). -/
def execXqry (f : FormQ) (s : State) : Out :=
  let nA := if f.a = .zero then 0 else 2
  qIssue s 0xD2 f nA 0 1 (fun s x c word eff =>
    let l := (lowLane eff).getD 0
    if cntOf x.g 6 == 63 then stallOut s x.g .stall
    else
      let v := match xqryValue (partAt s (partOf s x.g)) f.sub.toNat (rdOpd x f.a .b64 l) with
        | some v => BitVec.ofNat 32 v
        | none => Config.freeWord s.fresh
      .next (launchPlain { s with fresh := s.fresh + 1 } (qDone x c f nA 0) (.xqry v.toNat) 6 [valLane l [v]] (dstOf x.g f.d f.sn) eff word))

/-- R407: FABRIC_QUERY_COMPLETE. -/
def execFabricQueryComplete (op : Nat) (s : State) : Out :=
  match getOp s op with
  | none => .next s
  | some o =>
    match o.kind with
    | .xqry v => .next (if frameHere s o.g then cmdReturn s o [BitVec.ofNat 32 v] else s)
    | _ => .next s

/-! ## Collectives (R405, R408-R411) -/

/-- A COLL descriptor (R408). -/
structure CollBlk where
  send : Nat
  recv : Nat
  count : Nat
  mgrp : Nat
  kind : Nat
  ty : Nat
  rop : Nat
  root : Nat
  seq : Nat
  deriving DecidableEq, Repr

/-- A descriptor from its 64 bytes. -/
def collBlkOf (w : Nat) : CollBlk :=
  { send := bits w 63 0, recv := bits w 127 64, count := bits w 159 128, mgrp := bits w 167 160, kind := bits w 171 168, ty := bits w 175 172,
    rop := bits w 179 176, root := bits w 187 180, seq := bits w 223 192 }

/-- Whether a kind takes a type and an operation (R408). -/
def collOpOk (kind ty rop : Nat) : Bool :=
  let isB := ty == 0 || ty == 8
  match kind with
  | 0 | 1 => decide (ty ≤ 8) && (if rop ≤ 2 then !isB else decide (rop ≤ 5) && isB)
  | 2 | 3 => decide (ty ≤ 8) && rop == 0
  | 4 => ty == 0 && rop == 0
  | _ => false

/-- What a buffer pointer lies in, with its first byte and past its last: overlap is of one scratchpad or one object. -/
def bufSpan (p n : Nat) : Nat × Nat × Nat × Nat := (if ptrSpace p = 1 then 0 else 1, ptrF1 p, ptrOff p, ptrOff p + n)

/-- R405: the refusals 0x82 to 0x86 in their order (DEDUCED, log 50). -/
def collRefusal (p : Part) (b : CollBlk) (w : Nat) (bar : Option Nat) : Option Nat :=
  let es := collBytes b.ty
  let ms := (p.groups.find? (fun g => g.num == b.mgrp)).map MGroup.members
  let n := (ms.map List.length).getD 1
  let inn := fun (q : Nat) => [1, 2, 3].contains (ptrSpace q)
  let s1 := bufSpan b.send (sendLen b.kind n b.count b.ty)
  let r1 := bufSpan b.recv (recvLen b.kind n b.count b.ty)
  let overlap := s1.1 == r1.1 && s1.2.1 == r1.2.1 && decide (s1.2.2.1 < r1.2.2.2) && decide (r1.2.2.1 < s1.2.2.2)
  if bits w 511 224 != 0 || bits w 191 188 != 0 || !collOpOk b.kind b.ty b.rop || decide (2 ^ 28 < b.count) || (b.kind != 4 && b.count == 0) ||
      (b.kind == 4 && (b.send != 0 || b.recv != 0)) || (b.kind != 4 && (ptrOff b.send % es != 0 || ptrOff b.recv % es != 0)) then some 0x82
  else if b.kind != 4 && (!inn b.send || !inn b.recv || (overlap && !(b.kind == 0 && s1 == r1))) then some 0x83
  else if (match ms, p.member with
      | some l, some me => !l.contains me
      | _, _ => true) then some 0x84
  else if n ≤ b.root then some 0x85
  else if (match bar with
      | some q => !isScratch q
      | none => false) then some 0x86
  else none

/-- The collectives in a core's fabric queue (R405): those that have not made their update. -/
def fabricQueue (s : State) (core : Nat) : List Coll := s.colls.filter (fun c => coreOfCtx s c.ctx == core && !c.sent)

/-- The check of a buffer; a barrier has none (R405). -/
def collExt (kind : Nat) (r : ExtRes) : ExtRes := if kind = 4 then .ok (.pool 0) else r

/-- What a member records of a collective it accepts (R405, R408). -/
def newColl (s : State) (g : Group) (lane : Nat) (sc : Scope) (b : CollBlk) (rS rR : ExtRes) (bar : Option Nat) : Coll :=
  let part := partOf s g
  let ms := membersOf (partAt s part) b.mgrp
  let opt := fun (r : ExtRes) => if b.kind = 4 then none else some (extLoc r)
  { id := s.nextId, g := g.id, lane := lane, ctx := g.ctx, part := part, team := g.team, scope := sc, mgrp := b.mgrp, seq := b.seq, kind := b.kind,
    ty := b.ty, rop := b.rop, root := b.root, count := b.count, n := ms.length, rank := ((partAt s part).member.bind (fun me => ms.findIdx? (· == me))).getD 0,
    send := opt rS, recv := opt rR, bar := bar, since := s.tick,
    absent := match opt rR with
      | some y => markAbsent [] y (recvLen b.kind ms.length b.count b.ty)
      | none => [],
    out := none, peers := [], own := none, staged := false, lines := [], sent := false }

/-- Whether two collectives of this member that are not complete share a group and a SEQ (R410). -/
def twins (a b : Coll) : Bool := a.id != b.id && a.part == b.part && a.mgrp == b.mgrp && a.seq == b.seq && !a.sent && !b.sent

/-- Whether every byte of a line has backing, or needs none. -/
def lineBacked (s : State) (l : CopyLine) : Bool :=
  l.bytes.all (fun b => match b.1 with
    | .uni p ua => !granNone (granAt (partAt s p) (ua / 4096))
    | .pool _ | .lat _ _ _ | .peer _ _ _ | .mcast _ _ _ => true)

/-- R410: a collective that ends with ERR: of the lines it has staged, any that can be are still written. -/
def collFail (s : State) (c : Coll) : Coll :=
  let ls := c.lines.filter (fun l => lineBacked s l && (Config.freeByte s.fresh l.id).getLsbD 0)
  if c.sent then c
  else { c with out := some true, lines := ls, absent := if c.staged then ls.foldl (fun a l => l.bytes.foldl (fun a b => markAbsent a b.1 1) a) [] else c.absent }

/-- The collectives of a condition end with ERR (R410). -/
def failColls (s : State) (sel : Coll → Bool) : State :=
  { s with colls := s.colls.map (fun c => if sel c then collFail s c else c), fresh := s.fresh + 1 }

/-- A collective accepted: D gets the free entries (R405); a second one of its SEQ ends both with ERR (R410). -/
def collAccept (s : State) (x : GM) (c : Clause) (f : FormQ) (nB : Nat) (eff : Mask) (m : Coll) : State :=
  let s0 := learn s (engineNo m.id) (cmdView s m.g m.lane .fab)
  let s0 := if (m.recv.map inPresence).getD false then learnLanes s0 x.g.id (lanesOf eff) [(engineNo m.id, allStamps)] else s0
  let s1 := putGM s0 (schedQ (qDone x c f 2 nB) x.g.pos 4 f 1 eff (7 - (fabricQueue s (coreOf s x.g)).length))
  let s2 := { s1 with nextId := s.nextId + 1, colls := s1.colls ++ [m] }
  if s.colls.any (twins m) then failColls s2 (fun e => e.id == m.id || twins m e) else s2

/-- Whether a collective of a core must wait for an entry (R405). -/
def collWait (s : State) (g : Group) : Bool :=
  decide (8 ≤ (fabricQueue s (coreOf s g)).length) || s.groups.any (fun h => waitsBefore s .fabric g h (waitSince s .fabric g))

/-- R405: COLL; a full d6 stalls it (R55) (DEDUCED, log 50). -/
def execColl (f : FormQ) (s : State) : Out :=
  let nB := if f.b = .zero then 0 else 2
  qIssue s 0xD0 f 2 nB 1 (fun s x c word eff =>
    let l := (lowLane eff).getD 0
    let g := x.g
    let p := rdOpd x f.a .b64 l
    let bar := if f.b = .zero then none else some (rdOpd x f.b .b64 l)
    if cntOf g 6 == 63 then stallOut s g .stall
    else if collWait s g then stallOut s g (.entryWait .fabric (waitSince s .fabric g))
    else match blockChk s g p (ownBlock s g) with
      | .refuse => refuseOut s x c word eff 0x81 p
      | .bad => addrOut s x c word eff .capability p
      | .wait w => stallOut s g w
      | .go k =>
        if earlierAt s g.id eff (.pool k) 64 then stallOut s g .stall
        else
          let w := memRdV s.mem k 64
          let b := collBlkOf w
          let s := consultAll s g [b.send, b.recv]
          match collRefusal (partAt s (partOf s g)) b w bar with
          | some sub => refuseOut s x c word eff sub p
          | none =>
            let n := (membersOf (partAt s (partOf s g)) b.mgrp).length
            let rS := collExt b.kind (contigChk s g b.send (sendLen b.kind n b.count b.ty) 1)
            let rR := collExt b.kind (contigChk s g b.recv (recvLen b.kind n b.count b.ty) 2)
            match rS, rR with
            | .wait w, _ => stallOut s g w
            | _, .wait w => stallOut s g w
            | .bad a, _ => addrOut s x c word eff .capability a
            | _, .bad a => addrOut s x c word eff .capability a
            | .ok _, .ok _ =>
              match barChk s g bar with
              | .wait w => stallOut s g w
              | .bad a => addrOut s x c word eff .capability a
              | .misaligned a => addrOut s x c word eff .misalignedAtomic a
              | .none => .next (collAccept s x c f nB eff (newColl s g l f.scope b rS rR none))
              | .go bk => .next (collAccept s x c f nB eff (newColl s g l f.scope b rS rR (some bk))))

/-- R409: op(acc, x) for a type and operation: integer add wraps, F32 add rounds each step, min and max follow FMINNUM and FMAXNUM. -/
def collOp (ty rop a b : Nat) : Nat :=
  let w := 8 * collBytes ty
  match ty with
  | 3 => if rop = 0 then (faddVal .f32 .rne false a b).1 else (fminmaxnumVal .f32 false (rop == 2) a b).1
  | 4 => (fminmaxnumVal .f16 false (rop == 2) a b).1
  | 5 => (fminmaxnumVal .bf16 false (rop == 2) a b).1
  | _ =>
    let v := fun (x : Nat) => if ty = 1 ∨ ty = 6 then sext x w else (x : Int)
    match rop with
    | 0 => (a + b) % 2 ^ w
    | 1 => if v b < v a then b else a
    | 2 => if v a < v b then b else a
    | 3 => a &&& b
    | 4 => a ||| b
    | _ => a ^^^ b

/-- R409: a half-precision sum: exact operands, accumulated in F32, rounded once. -/
def halfSum (f : FF) : List Nat → Nat
  | [] => 0
  | x :: xs =>
    let up := fun (a : Nat) => (finish .f32 .rne false (fdec f a, 0)).1
    (finish f .rne false (fdec .f32 (xs.foldl (fun acc y => (faddVal .f32 .rne false acc (up y)).1) (up x)), 0)).1

/-- R409: red over the ranks in ascending order. -/
def collRed (ty rop : Nat) (xs : List Nat) : Nat :=
  if ty = 4 ∧ rop = 0 then halfSum .f16 xs
  else if ty = 5 ∧ rop = 0 then halfSum .bf16 xs
  else match xs with
    | [] => 0
    | x :: xs => xs.foldl (collOp ty rop) x

/-- R409: the elements of RECV from the SEND bytes of every rank. -/
def collResult (c : Coll) (sends : List (List Byte)) : List Nat :=
  let es := collBytes c.ty
  let el := fun (bs : List Byte) (i : Nat) => leValue ((bs.drop (i * es)).take es)
  match c.kind with
  | 0 => (List.range c.count).map (fun i => collRed c.ty c.rop (sends.map (fun b => el b i)))
  | 1 => (List.range c.count).map (fun i => collRed c.ty c.rop (sends.map (fun b => el b (c.rank * c.count + i))))
  | 2 => sends.flatMap (fun b => (List.range c.count).map (el b))
  | 3 => (List.range c.count).map (el (nth sends c.root []))
  | _ => []

/-- A collective of this member by its number. -/
def getColl (s : State) (i : Nat) : Option Coll := s.colls.find? (fun c => c.id == i)

/-- A collective changed. -/
def modColl (s : State) (i : Nat) (f : Coll → Coll) : State := { s with colls := modBy Coll.id s.colls i f }

/-- The engine that works on a collective: the fabric engine of the base die beneath its stack. -/
def collEng (s : State) (c : Coll) : Eng := engOf s .fab c.id c.g c.lane c.team c.ctx c.part c.scope

/-- What bytes at a place meet for a collective: nothing of a context moves while its pool image is out (R413). -/
def collPlace (s : State) (c : Coll) (l : Loc) (n : Nat) : Reach :=
  enginePlace s (senderNow s (baseDie (coreOfCtx s c.ctx / Config.coresPerStack))) c.team c.ctx l n

/-- Whether the engine may access n bytes at a place now, after the lane's earlier accesses there (R145). -/
def collHere (s : State) (c : Coll) (l : Loc) (n : Nat) : Bool :=
  !engineBehind s .fab c.g c.id c.lane l n && (match collPlace s c l n with
    | .ready | .host => true
    | .held | .page _ => false)

/-- The place of SEND that this member reads, with its length: on a broadcast only the root's (R409). -/
def ownSend (c : Coll) : Option (Loc × Nat) :=
  if c.kind = 3 ∧ c.rank ≠ c.root then none else c.send.map (fun l => (l, sendLen c.kind c.n c.count c.ty))

/-- The peers of a report whose packets are not stale, member r of the group being its rank r (R403). -/
def freshPeers (s : State) (c : Coll) (peers : List PeerColl) : List PeerColl :=
  peers.filter (fun q => !fabStale s c.part (nth (membersOf (partAt s c.part) c.mgrp) q.rank 256) q.incarn none)

/-- R410: how a collective ends by what its peers have accepted: with ERR where one's fields differ or some two accepted too far apart, without once all have accepted, else not yet. -/
def collMatch (c : Coll) (peers : List PeerColl) : Option Bool :=
  let ts := c.since :: peers.map PeerColl.since
  if peers.any (fun q => !q.agrees) || ts.any (fun t => ts.any (fun u => decide (t + 2 ^ 30 < u))) then some true
  else if (List.range c.n).all (fun r => r == c.rank || peers.any (fun q => q.rank == r)) then some false else none

/-- The SEND bytes of every rank. -/
def collSends (c : Coll) (own : List Byte) : List (List Byte) :=
  (List.range c.n).map (fun r => if r = c.rank then own else ((c.peers.find? (fun q => q.rank == r)).map PeerColl.send).getD [])

/-- R410: a byte that a collective with ERR wrote, if it wrote it: a value the manual leaves open (DESIGN CHOICE, log 2). -/
def errByte (stamp i : Nat) : Option Byte := if (Config.freeByte stamp (2 * i)).getLsbD 0 then some (Config.freeByte stamp (2 * i + 1)) else none

/-- Bytes for RECV put into the lines that they land with (R411). -/
def collLines (id : Nat) (bs : List (Loc × Byte)) : List CopyLine := bs.zipIdx.foldl (fun ls b => joinByte ls (id + b.2) b.1) []

/-- R411: this member's SEND bytes read, each element old or new as a whole. -/
def collRead (s : State) (c : Coll) : State :=
  match ownSend c with
  | some x =>
    let r := engineRdU s (collEng s c) false (collBytes c.ty) x.1 x.2
    modColl r.1 c.id (fun c => { c with own := some r.2 })
  | none => modColl s c.id (fun c => { c with own := some [] })

/-- R411: a collective that has matched and read SEND prepares RECV; one with ERR leaves any of its bytes written. -/
def collStage (s : State) (c : Coll) (err : Bool) : State :=
  let n := recvLen c.kind c.n c.count c.ty
  let out := match c.recv with
    | none => []
    | some l =>
      if err then (List.range n).filterMap (fun i => (errByte s.fresh i).map (fun b => (locUp l i, b)))
      else placed l ((collResult c (collSends c (c.own.getD []))).flatMap (leBytes (collBytes c.ty)))
  let ls := (collLines s.nextId out).filter (fun l => !err || lineBacked s l)
  modColl { s with fresh := s.fresh + 1, nextId := s.nextId + out.length + 1 } c.id (fun c => { c with
    staged := true, lines := ls, absent := if err then ls.foldl (fun a l => l.bytes.foldl (fun a b => markAbsent a b.1 1) a) [] else c.absent })

/-- Whether a line of RECV may land: its places are there, and earlier copies' bytes for its pool lines have landed (R143, R411). -/
def collLandable (s : State) (c : Coll) (l : CopyLine) : Bool :=
  l.bytes.all (fun b => collHere s c b.1 1 && (match b.1 with
    | .pool k => !(hasPresence k && absentBefore s c.id (poolLine k))
    | .uni _ _ | .lat _ _ _ | .peer _ _ _ | .mcast _ _ _ => true))

/-- The line of RECV that lands next: any of those that may (R8, R411). -/
def collNext (s : State) (c : Coll) : Option CopyLine :=
  let ls := c.lines.filter (collLandable s c)
  (ls[Config.raceChoice s.fresh c.id % ls.length]?).or ls.head?

/-- R411: one line of RECV lands. -/
def collLand (s : State) (c : Coll) (l : CopyLine) : State :=
  modColl (l.bytes.foldl (fun s b => engineWr s (collEng s c) b.1 b.2) { s with fresh := s.fresh + 1 }) c.id (fun c =>
    { c with lines := c.lines.filter (fun e => e.id != l.id), absent := l.bytes.foldl (fun a b => clearAbsent a b.1 1) c.absent })

/-- The bytes of T and P that a collective credits, all of RECV also with ERR (R411) (DEDUCED, log 50). -/
def collCredit (c : Coll) : Nat :=
  match c.recv with
  | some (.pool k) => if hasPresence k then recvLen c.kind c.n c.count c.ty else 0
  | _ => 0

/-- Whether two collectives make their updates in the order in which they were accepted: those of one issuing group, and those of one multicast group (R411) (DEDUCED, log 50). -/
def collOrdered (a b : Coll) : Bool := a.g == b.g || (a.part == b.part && a.mgrp == b.mgrp)

/-- R411: a collective whose lines have landed makes its update, a release for its buffers only (R149); it is over once that is performed. -/
def collReport (s : State) (c : Coll) (err : Bool) : State :=
  let src := { engineParty s .fab c.id c.team c.ctx c.part c.scope with view := [(engineNo c.id, s.stamp)] }
  match c.bar with
  | some k => modColl (sendUpd s k ⟨true, 0, collCredit c, err, 0, false⟩ src) c.id (fun c => { c with sent := true })
  | none => { s with colls := s.colls.filter (fun e => e.id != c.id) }

/-- A report of peers without its stale packets, which are dropped and counted (R403). -/
def takePeers (s : State) (c : Coll) (peers : List PeerColl) : State × List PeerColl :=
  let qs := freshPeers s c peers
  ((List.range (peers.length - qs.length)).foldl (fun s _ => dropStale s c.part) s, qs)

/-- R411: whether a collective that has not ended with ERR may read its SEND bytes. -/
def sendDue (s : State) (c : Coll) : Bool := c.own.isNone && !ctxOut s c.ctx && (ownSend c).all (fun x => collHere s c x.1 x.2)

/-- R411, R426: whether it can read them now, no byte of them in host memory. -/
def readDue (s : State) (c : Coll) : Bool := sendDue s c && (hostLines s (ownSend c).toList).isEmpty

/-- What a collective that has ended one way does next: it reads SEND, prepares RECV, lands a line, makes its update, or has made it (R411). -/
def collGo (s : State) (c : Coll) (err : Bool) : State :=
  if c.sent then (if creditOut s c.id then s else { s with colls := s.colls.filter (fun e => e.id != c.id) })
  else if !err && c.own.isNone then (if readDue s c then collRead s c else s)
  else if !c.staged then (if ctxOut s c.ctx then s else collStage s c err)
  else match collNext s c with
    | some l => collLand s c l
    | none => if !c.lines.isEmpty || ctxOut s c.ctx || s.colls.any (fun e => decide (e.id < c.id) && collOrdered e c && !(e.sent && !creditOut s e.id)) then s
      else collReport s c err

/-- What a collective does next (R410, R411): without a report of its peers it reads SEND or goes on; by a report it matches, or ends with ERR, also after it has matched and before it is complete. -/
def collStep (s : State) (c : Coll) (peers : List PeerColl) : State :=
  let t := takePeers s c peers
  match c.out with
  | none =>
    if peers.isEmpty && c.n != 1 then (if readDue s c then collRead s c else s)
    else match collMatch c t.2 with
      | some true => failColls t.1 (fun e => e.id == c.id)
      | some false => modColl t.1 c.id (fun c => { c with out := some false, peers := t.2 })
      | none => t.1
  | some false => if !c.sent && t.2.any (fun q => !q.agrees) then failColls t.1 (fun e => e.id == c.id) else collGo t.1 c false
  | some true => collGo t.1 c true

/-- R426, R427: HOST_COMPLETION of SEND bytes in host memory: SEND is read with what the host's memory held, or the collective ends with ERR (DEDUCED, log 34). -/
def hostSend (s : State) (c : Coll) (ok : Bool) (vals : List W32) : State :=
  let ls := hostLines s (ownSend c).toList
  if c.out == some true || !sendDue s c || ls.isEmpty then s
  else if ok then collRead (hostArrives s (ownSend c).toList vals) c
  else failColls s (fun e => e.id == c.id)

/-- R410, R411: COLLECTIVE_COMPLETE: a collective goes on by one of its steps: it matches, reads SEND, lands a line of RECV, makes its update (DEDUCED, log 50). -/
def execCollectiveComplete (coll : Nat) (peers : List PeerColl) (s : State) : Out :=
  match getColl s coll with
  | none => .next s
  | some c => .next (collStep s c peers)

/-- R410: COLLECTIVE_TIMEOUT: one not matched in time ends with ERR. -/
def execCollectiveTimeout (coll : Nat) (s : State) : Out :=
  match getColl s coll with
  | none => .next s
  | some c => .next (if c.out.isNone && decide (c.since + 2 ^ 30 < s.tick) then failColls s (fun e => e.id == coll) else s)

/-- R403, R410: PEER_RESET_LEARNED: requests outstanding to a member that has reset fail, its collectives end with ERR. -/
def execPeerResetLearned (part member incarn : Nat) (s : State) : Out :=
  let s1 := modP s part (fun p => { p with peers := p.peers.map (fun q => if q.member = member then { q with incarn := incarn } else q) })
  let mine := fun (g : Nat) => match getG s g with
    | some h => partOf s h == part
    | none => false
  let lost := s.ops.flatMap (fun o => if mine o.g then (o.lanes.filter (fun x => x.st == .peer && (match x.loc with
      | .peer m _ _ => m == member
      | _ => false))).map (fun x => (o.id, x.lane)) else [])
  let s2 := lost.foldl (fun s x => match getOp s x.1 with
    | some o => failLane s o x.2 0x10 0
    | none => s) s1
  let ws := s.pwrites.filter (fun w => w.part == part && w.pending.contains member)
  let s3 := ws.foldl (fun s w => stepWrite s w.id (fun w => { w with pending := w.pending.filter (· != member), failed := true })) s2
  .next (failColls s3 (fun c => c.part == part && (membersOf (partAt s part) c.mgrp).contains member))

end Sys2Proof.Machine
end

