-- ==== Sys2Proof/Machine/Kill.lean ====
section
/-! DEFINITION. Sys2Proof/Machine/Kill.lean: groups that leave their slots, teams that end, kills, and the throttle trap (R26, R270, R303, R480). -/

namespace Sys2Proof.Machine

/-! ## Leaving and ending (R211, R270) -/

/-- Granules of a lane stack segment (R211). -/
def stackGrans (width depth : Nat) : Nat := ceilDiv ((depth - 4) * 16 * width) 2048
/-- Granules of a fibre segment (R211). -/
def fibreGrans (width : Nat) : Nat := ceilDiv (32 * width) 2048

/-- Granules of a context given back to its core. -/
def freeGrans (s : State) (ctx n : Nat) : State :=
  match getC s ctx with
  | none => s
  | some c => modC (modCore s c.core (fun k => giveGrans k n)) ctx (fun c => { c with gran := c.gran - n })

/-- Whether a copy, a collective or a matrix command still names a group's frame (R344, R371). -/
def frameNamed (s : State) (g : Group) : Bool :=
  copiesIn s (frameKey g.id 0) (frameKey g.id (4 * g.frame * g.width)) ||
    s.mcmds.any (fun c => c.g == g.id && (c.kind == .amov || c.kind == .ains))

/-- A group taken off its slice's list of waiters for entry blocks. -/
def dropWaiter (s : State) (g : Group) : State :=
  match g.slot with
  | none => s
  | some a => modSlice s a.core a.slice (fun sl => { sl with waiters := sl.waiters.filter (· != g.id) })

/-- R270: GROUP_LEAVE_SLOT: an ended group whose counters read zero leaves; its set is written back (R219), and its register segment is freed once nothing pending names it. -/
def execGroupLeaveSlot (gid : Nat) (s : State) : Out :=
  match getG s gid with
  | none => .next s
  | some g =>
    let segment := fun (s : State) =>
      if frameNamed s g || g.frame = 0 then s
      else
        let s := freeGrans s g.ctx (frameGrans g.width g.frame)
        modG { s with mem := memZero s.mem (frameKey gid 0) (4 * g.frame * g.width) } gid (fun g => { g with frame := 0 })
    if g.left then .next (segment s)
    else if g.ended && cntZero g then
      let s := freeGrans (dropWaiter (modGM s gid ocRelease) g) g.ctx (stackGrans g.width g.depth + fibreGrans g.width)
      .next (segment (modG s gid (fun g => { g with left := true, slot := none, park := .none, armed := false, watch := none, halted := false })))
    else .next s

/-- Whether an engine still works for a team. -/
def teamBusy (s : State) (t : Team) : Bool :=
  let mine := fun (c : Nat) => teamOfCtx s c == t.id
  s.reqs.any (fun r => r.team == t.id) || s.mcmds.any (fun c => c.team == t.id) || s.colls.any (fun c => c.team == t.id) ||
    s.upds.any (fun u => mine u.ctx)

/-- A context that is no longer used: its granules, scratchpad and L1 ways given back, written L1 bytes written back (DESIGN CHOICE, log 52). -/
def freeCtx (s : State) (c : Ctx) : State :=
  let s := l1Act s (fun d => d.id == c.id) (fun _ => true) true (fun _ => none)
  let s := modCore s c.core (fun k => { giveGrans k (c.gran - c.evicted) with resvs := k.resvs.filter (fun r => r.ctx != c.id) })
  let s := modP s c.part (fun p => giveSpill p c.spill)
  modC { s with mem := memZero s.mem (scrKey c.id 0) c.scratch } c.id
    (fun c => { c with state := .free, gran := 0, evicted := 0, spill := [], scratch := 0, l1 := [], faulted := false, haltReq := false, saveReq := false, imaging := false })

/-- R26, R270, R346: TEAM_END: when the last group has ended the team ends and its reservations are released; once its groups have left and its commands have completed, its contexts are free (DESIGN CHOICE, log 52). -/
def execTeamEnd (team : Nat) (s : State) : Out :=
  match getT s team with
  | none => .next s
  | some t =>
    let gs := s.groups.filter (fun g => g.team == team)
    if !gs.all (fun g => g.ended) then .next s
    else
      let s1 := if t.ended then s
        else modGrid (modT { s with nextId := s.nextId + 1, cores := s.cores.map (fun c => { c with resvs := c.resvs.map (fun r =>
              if r.team = team then { r with releasing := r.releasing.or (some s.nextId) } else r) }) } team (fun t => { t with ended := true }))
            t.grid (fun gr => { gr with endedTeams := gr.endedTeams + 1, progress := s.tick })
      let cs := s1.ctxs.filter (fun c => c.team == team && c.state == .running)
      if gs.all (fun g => g.left && g.frame == 0) && !teamBusy s1 t && !s1.cores.any (fun c => c.resvs.any (fun r => r.team == team)) then
        .next (agentEvent (cs.foldl freeCtx s1) (fun k => cs.any (fun c => c.core == k)))
      else .next s1

/-! ## Kill (R303) -/

/-- Operations that a kill lets complete: stores, atomics and reductions, and lattice changes. -/
def survivesKill (k : OpKind) : Bool := isWrite k || k == .jst || k == .jadd || k == .jtrade

/-- R303 step 2: an operation of a killed group: its lanes held for pages are not performed, loaded values are discarded. -/
def killOp (o : Op) : Option Op :=
  let ls := o.lanes.filter (fun x => x.st != .page && !laneOver x)
  if survivesKill o.kind && !ls.isEmpty then some { o with lanes := ls } else none

/-- R303 step 3: a streamer request of a killed context: not started, it is dropped; else its lines already read land. -/
def killReq (s : State) (r : Req) : Option Req :=
  if r.next = 0 && r.lines.isEmpty && (r.state == .queued || r.state == .bulkSent) then none
  else
    let ls := r.lines.filter (fun l => l.bytes.all (fun b => match reqPlace s r b.1 1 with
      | .page _ => false
      | .ready | .held | .host => true))
    some { r with killed := true, next := reqUnits r, state := if r.bulk then .bulk else .issued, pageAt := none, lines := ls,
                  absent := ls.foldl (fun a l => l.bytes.foldl (fun a b => markAbsent a b.1 1) a) [] }

/-- R303 step 3, R371: a matrix command of a killed context: a drain in progress keeps the whole lines it has produced (DEDUCED, log 53). -/
def killCmd (s : State) (c : MCmd) : Option MCmd :=
  if c.kind == .adrain && (c.state == .begun || c.state == .stopped) then some { stopDrain s c with killed := true } else none

/-- A group that a kill stops: no fibre, no write to come, its set given up. -/
def killGroup (g : Group) : Group :=
  { g with cur := none, fibres := [], conts := [], firing := [], pend := [], phase := .asleep, park := .none, waitEntry := false, swDue := false,
           pendTraps := [], held := none, trapDue := none, watch := none, oc := none, trapped := none, ended := true, armed := false }

/-- R303 step 5, R490: the kill record at the head of a context's save area. -/
def killRecord (s : State) (c : Ctx) (r : TrapRec) : State :=
  match saveAt s c 2 with
  | some ua => uniWr s c.part ua (trapBytes r)
  | none => s

/-- R462, R466: an agent's reservation released: its granules are free again. -/
def dropResv (s : State) (core : Nat) : State :=
  match (coreAt s core).agent.resv with
  | none => s
  | some r =>
    let s1 := r.grans.foldl (fun s (x : Nat × Nat) => modCore s x.1 (fun k => giveGrans k x.2)) s
    modCore s1 core (fun k => { k with agent := { k.agent with resv := none } })

/-- R466: the reservations held for a grid released. -/
def dropGridResv (s : State) (grid : Nat) : State :=
  (List.range s.cores.length).foldl (fun s core => if (coreAt s core).agent.resv.any (fun r => r.grid == grid) then dropResv s core else s) s

/-- R486: a veer still deferred on a unit that holds one of some contexts is abandoned. -/
def abandonVeers (s : State) (cs : List Ctx) : State :=
  { s with veers := s.veers.map (fun v => v.filter (fun v => v.stage != .deferred || !cs.any (fun c => (v.hot ++ v.lee).contains c.core))) }

/-- R473: cores that a kill has a context halt on no longer run at full speed. -/
def boostsOver (s t : State) (cs : List Ctx) : State := (cs.map Ctx.core).eraseDups.foldl (fun t core => boostOver s t core) t

/-- THE KILL of a grid (R303): every context of it on every core becomes KILLING; its work stops at the points that R303 gives. -/
def killGrid (s : State) (gid : Nat) : State :=
  match getGrid s gid with
  | none => s
  | some gr =>
    let cs := s.ctxs.filter (fun c => c.grid == gid && c.state != .free)
    let ids := cs.map Ctx.id
    let mine := fun (c : Nat) => ids.contains c
    let gs := (s.groups.filter (fun g => mine g.ctx)).map Group.id
    let s1 := cs.foldl (fun s c => killRecord s c (gr.rec1.getD TrapRec.zero)) s
    let s2 := dropGridResv ((s1.groups.filter (fun g => mine g.ctx)).foldl dropWaiter s1) gid
    let s3 := { modGrid s2 gid (fun gr => { gr with killed := true, killDue := false, killAt := gr.killAt.or (some s.tick) }) with
      ctxs := s2.ctxs.map (fun c => if mine c.id then { c with state := .killing, faulted := false, haltReq := false, saveReq := false, imaging := false } else c)
      groups := s2.groups.map (fun g => if mine g.ctx then killGroup g else g)
      cores := s2.cores.map (fun c => { c with alloc := c.alloc.filter (fun r => !gs.contains r.g), stalled := c.stalled.filter (fun r => !gs.contains r.g) })
      ops := s2.ops.filterMap (fun o => if gs.contains o.g then killOp o else some o)
      reqs := s2.reqs.filterMap (fun r => if mine r.ctx then killReq s r else some r)
      mcmds := s2.mcmds.filterMap (fun c => if mine c.ctx then killCmd s c else some c)
      colls := s2.colls.filter (fun c => !mine c.ctx)
      upds := s2.upds.filter (fun u => !mine u.ctx) }
    boostsOver s (abandonVeers (endReads s3) cs) cs

/-- R303: GRID_KILL. -/
def execGridKill (grid : Nat) (s : State) : Out :=
  match getGrid s grid with
  | none => .next s
  | some gr => .next (if gr.killDue && !gr.killed then killGrid s grid else s)

/-- R295, R303: KILL_COMPLETE: what was issued has landed; the context's segments and reservations are freed, its incarnation rises. -/
def execKillComplete (ctx : Nat) (s : State) : Out :=
  match getC s ctx with
  | none => .next s
  | some c =>
    let gs := s.groups.filter (fun g => g.ctx == ctx)
    let busy := s.ops.any (fun o => gs.any (fun g => g.id == o.g)) || s.reqs.any (fun r => r.ctx == ctx) || s.mcmds.any (fun m => m.ctx == ctx)
    if c.state == .killing && !busy then
      let s1 := gs.foldl (fun s g => { s with mem := memZero s.mem (frameKey g.id 0) (4 * g.frame * g.width) }) s
      let s2 := { s1 with groups := s1.groups.map (fun g => if g.ctx = ctx then { g with left := true, slot := none, frame := 0, halted := false } else g) }
      let s3 := agentEvent (modC (freeCtx s2 c) ctx (fun c => { c with incarn := c.incarn + 1 })) (· == c.core)
      let done := s3.ctxs.all (fun d => d.team != c.team || d.state == .free)
      .next (if done then modT s3 c.team (fun t => { t with ended := true }) else s3)
    else .next s

/-! ## The throttle trap (R285, R480) -/

/-- Whether a group may take a trap at a clause boundary. -/
def atBoundary (s : State) (g : Group) : Bool := mayStart s g && g.cur.isSome

/-- The throttle trap taken by a group at the boundary where it stands; without its mask bit it is discarded (R283) (DEDUCED, log 26; DEDUCED, log 54). -/
def takeThrottle (s : State) (g : Group) (sub : Nat) : State :=
  match g.cur with
  | none => s
  | some f => if g.hMask.getLsbD 18 then takeTrap s g.id 0x12 sub f.pred 0 (fetchAt s g f.pc) f.pc f.pc none else s

/-- R480: a throttle trap delivered, or discarded: the team has seen ACTIVE as it stands (DEDUCED, log 54). -/
def deliverThrottle (s : State) (team : Nat) (g : Group) (active : Bool) : State :=
  takeThrottle (modT (modG s g.id (fun g => { g with held := none })) team (fun t => { t with lastSeen := active })) g (if active then 0 else 1)

/-- R285, R480: THROTTLE_TRAP: a due trap is taken at the boundary where the group stands, held while it is in handler mode, and withdrawn where ACTIVE has returned. -/
def execThrottleTrap (team : Nat) (s : State) : Out :=
  match throttleGroup s team with
  | none => .next s
  | some g =>
    let active := (partAt s (partOf s g)).thr.active
    if !throttleDue s team (partOf s g) then .next (modG s g.id (fun g => { g with held := none }))
    else if g.hMode then .next (modG s g.id (fun g => { g with held := some (if active then 0 else 1) }))
    else if atBoundary s g then .next (deliverThrottle s team g active)
    else .next s

end Sys2Proof.Machine
end

