-- ==== Sys2Proof/Machine/Pages.lean ====
section
/-! DEFINITION. Sys2Proof/Machine/Pages.lean: pages of a unified range: their placement and moves, page requests and answers, the host agent's requests, device accesses to host memory (R426-R440). -/

namespace Sys2Proof.Machine

/-! ## Links and signals (R414, R436, R441) -/

/-- Whether a link is trained. -/
def linkUp (s : State) (l : Nat) : Bool := nth s.links l true

/-- An MSI-X signal of a function (0 the physical one, p + 1 partition p's), held while its link is down or its vectors are masked (R418, R436, R441) (DESIGN CHOICE, log 59). -/
def signal (s : State) (func vec link : Nat) : State :=
  if linkUp s link && (func == 0 || !(partAt s (func - 1)).masked) then { s with msix := s.msix ++ [(func, vec)] } else { s with heldMsix := s.heldMsix ++ [(func, vec)] }

/-- The link of a function. -/
def funcLink (s : State) (func : Nat) : Nat := if func = 0 then 0 else (partAt s (func - 1)).link

/-- R441: LINK_RETRAIN: the link is up; what was held for it is sent. -/
def execLinkRetrain (link : Nat) (s : State) : Out :=
  let here := fun x : Nat × Nat => funcLink s x.1 == link
  .next { s with links := s.links.set link true, msix := s.msix ++ s.heldMsix.filter here, heldMsix := s.heldMsix.filter (fun x => !here x) }

/-! ## Placement (R428, R431) -/

/-- Whether an entry's object covers a unified address. -/
def entCovers (e : ObjEnt) (ua : Nat) : Bool := e.valid && decide (e.ubase ≤ ua) && decide (ua < e.ubase + e.len)

/-- The memory processor's entry for an address: its own copy, else the table's (R430). -/
def mpEntry (s : State) (part ua : Nat) : Option ObjEnt :=
  let p := partAt s part
  (p.mpCache.find? (fun e => entCovers e ua)).or
    ((List.range p.otcnt.toNat).findSome? (fun o => let e := objTable s part o; if entCovers e ua then some e else none))

/-- The memory processor keeps the entry it has looked up. -/
def mpKeep (s : State) (part : Nat) (e : Option ObjEnt) : State :=
  match e with
  | none => s
  | some e => modP s part (fun p => if p.mpCache.contains e then p else { p with mpCache := e :: p.mpCache })

/-- 4 KiB granules of a half's second-tier bank that a partition was granted and that back nothing. -/
def tierFree (p : Part) (h : Nat) : Nat :=
  512 * nth p.grant (Config.numHbm + h) 0 - (p.grans.filter (fun g => g.state == .tier2 h || g.moving == some (.tier2 h))).length

/-- The stack of a half with the most free granules, the lowest of equals, where some hold k. -/
def fullestStack (p : Part) (half k : Nat) : Option Nat :=
  ((List.range Config.numHbm).filter (fun i => hbmHalf i == half && decide (k ≤ hbmFree p i))).foldl (fun b i =>
    match b with
    | none => some i
    | some j => if hbmFree p j < hbmFree p i then some i else some j) none

/-- R431: where k granules of a page go on a half; none where the grant has no room. -/
def placeOn (p : Part) (half k : Nat) (hint : Option Nat) : Option GranState :=
  match hint.filter (fun i => decide (i < Config.numHbm) && hbmHalf i == half && decide (k ≤ hbmFree p i)) with
  | some i => some (.hbm i)
  | none =>
    match fullestStack p half k with
    | some i => some (.hbm i)
    | none => if k ≤ tierFree p half then some (.tier2 half) else none

/-- Whether a partition holds stacks on a half. -/
def holdsHalf (p : Part) (half : Nat) : Bool := (stacksOf p).any (fun k => halfOfStack k == half)

/-- R431: the half of a host first touch. -/
def hostHalf (p : Part) : Nat := if holdsHalf p 0 then 0 else 1

/-- A granule's bytes set to zero. -/
def zeroGran (s : State) (part n : Nat) : State := { s with mem := memZero s.mem (uniKey part (4096 * n)) 4096 }

/-- The page size of a granule: its record's where it has backing, else its object's (R428). -/
def sizeOfPage (s : State) (part n : Nat) : Nat :=
  let g := granAt (partAt s part) n
  if g.state == .none then ((mpEntry s part (4096 * n)).map ObjEnt.psize).getD 0 else g.psize

/-- R431: the page that holds a NONE granule backed with zeros on a half; none where the grant has no room. -/
def backPage (s : State) (part n half : Nat) : Option State :=
  let e := mpEntry s part (4096 * n)
  let ps := (e.map ObjEnt.psize).getD 0
  let ns := pageOf ps n
  match placeOn (partAt s part) half ns.length (e.bind ObjEnt.hint) with
  | none => none
  | some st => some (ns.foldl (fun s m =>
      modP (zeroGran s part m) part (fun p => modGran p m (fun g => { g with state := st, psize := ps }))) (mpKeep s part e))

/-! ## Page requests (R436, R437) -/

/-- What a lane's access asks of a page: write, execute, atomic. -/
def laneAsks (k : OpKind) : Bool × Bool × Bool := (isWrite k, false, isRmw k)

/-- The granule that an instruction fetch of a group meets in state NONE (R436). -/
def fetchPage (s : State) (g : Group) : Option Nat :=
  match g.cur, gridOf s g with
  | some f, some gr =>
    let e := (codeEnt s (coreOf s g) gr).getD (objTable s gr.part (codeObj gr))
    let reach := fun (n : Nat) => match uniReach s gr.part (e.ubase + f.pc) n with
      | .page x => some x
      | .ready | .held | .host => none
    if !mayStart s g || !codeOk e f.pc then none
    else match reach 8 with
      | some x => some x
      | none => match headerOf (codeWord s gr e f.pc).toNat with
        | some h => if (headerCheck e g f.pc (codeWord s gr e f.pc).toNat).isNone then reach (8 * (h.cnt + 1)) else none
        | none => none
  | _, _ => none

/-- The places that a collective still reads or writes: the buffers until it has staged RECV, then the lines left. -/
def collNeeds (c : Coll) : List (Loc × Nat) :=
  if c.staged then c.lines.flatMap (fun l => l.bytes.map (fun b => (b.1, 1))) else if c.out == some true then [] else collPlaces c

/-- The granule that a collective waits for (DESIGN CHOICE, log 51). -/
def collPage (s : State) (c : Coll) : Option Nat :=
  match worstReach ((collNeeds c).map (fun x => collPlace s c x.1 x.2)) with
  | .page g => some g
  | .ready | .held | .host => none

/-- R437: whether a copy that meets a granule with no backing is to write it: under a line that waits to land, or under the destination of its next run. -/
def copyWrites (s : State) (r : Req) (gran : Nat) : Bool :=
  r.lines.any (fun l => l.bytes.any (fun b => reqPlace s r b.1 1 == .page gran)) || !(runReads r).any (fun x => reqPlace s r x.1 x.2 == .page gran)

/-- R437: whether a collective that meets one is to write it: under RECV. -/
def collWrites (s : State) (c : Coll) (gran : Nat) : Bool := c.staged || !c.send.any (fun l => collPlace s c l (sendLen c.kind c.n c.count c.ty) == .page gran)

/-- Whether an asker stands at a granule with no backing, with its context and what it asks: write, execute, atomic, engine. -/
def askerAt (s : State) (part gran : Nat) (a : PageAsker) : Option (Nat × Bool × Bool × Bool × Bool) :=
  match a with
  | .lane op lane =>
    match getOp s op with
    | none => none
    | some o => match getG s o.g, o.lanes.find? (fun x => x.lane == lane) with
      | some g, some x =>
        if partOf s g == part && orderFree s o x && laneReach s o x == .page gran then some (g.ctx, (laneAsks o.kind).1, false, (laneAsks o.kind).2.2, false) else none
      | _, _ => none
  | .fetch gid => match getG s gid with
    | some g => if partOf s g == part && fetchPage s g == some gran then some (g.ctx, false, true, false, false) else none
    | none => none
  | .copy req =>
    match getReq s req, getColl s req with
    | some r, _ =>
      if r.part == part && (r.state == .active || r.state == .issued || r.state == .bulk) && !r.err && reqPage s r == some gran then
        some (r.ctx, copyWrites s r gran, false, false, true)
      else none
    | none, some c => if c.part == part && collPage s c == some gran then some (c.ctx, collWrites s c gran, false, false, true) else none
    | none, none => none
  | .drain cmd => match getCmd s cmd with
    | some c => if c.part == part && cmdPage s c == some gran then some (c.ctx, true, false, c.add, true) else none
    | none => none

/-- The asker waits: a lane for its page, with its context FAULTED and asked to halt; a copy or drain stops (R238, R295, R343, R371). -/
def askerWaits (s : State) (gran ctx : Nat) (a : PageAsker) : State :=
  let halt := fun (s : State) => modC s ctx (fun c => { c with faulted := true, haltReq := c.haltReq || c.state == .running })
  match a with
  | .lane op lane => halt (setLane s op lane (fun x => { x with st := .page }))
  | .fetch _ => halt s
  | .copy req => modReq s req (fun r => { r with state := .stopped, pageAt := some gran })
  | .drain cmd => modCmd s cmd (fun c => { c with state := .stopped, pageAt := some gran })

/-- R437: a request record. -/
def requestRec (s : State) (part : Nat) (r : PageReq) : List Byte :=
  let c := getC s r.ctx
  leBytes 32 (4096 * r.gran + r.rid % 2 ^ 32 * 2 ^ 64 + part % 8 * 2 ^ 96 + (c.map Ctx.stack).getD 0 % 8 * 2 ^ 99 + (c.map Ctx.num).getD 0 % 1024 * 2 ^ 102 +
    r.cinc.toNat * 2 ^ 112 + b2n r.write * 2 ^ 128 + b2n r.exec * 2 ^ 129 + b2n r.atom * 2 ^ 130 + b2n r.eng * 2 ^ 131)

/-- R437: a notice that returns a host frame. -/
def noticeRec (part hpa : Nat) : List Byte := leBytes 32 (hpa + part % 8 * 2 ^ 96 + 2 ^ 132)

/-- Records that the page-request ring holds (R416, R436). -/
def ringSize (p : Part) : Nat := 2 ^ (p.prqbase.toNat % 16 + 6)
/-- Whether the ring has room for a record. -/
def ringRoom (p : Part) : Bool := decide ((p.prqTail - p.prqHead).toNat < ringSize p)

/-- R436: a record written at the ring's tail, then the vector signalled. -/
def writeRec (s : State) (part : Nat) (bs : List Byte) : State :=
  let p := partAt s part
  let at' := p.prqbase.toNat / 4096 * 4096 + 32 * (p.prqTail.toNat % ringSize p)
  signal (modP { s with mem := memWrN s.mem (hostKey at') bs } part (fun p => { p with prqTail := p.prqTail + 1 })) 0 0 0

/-- A record written, or held while the ring is full (R436). -/
def pushRec (s : State) (part : Nat) (bs : List Byte) : State :=
  let p := partAt s part
  if p.heldRecs.isEmpty && ringRoom p then writeRec s part bs else modP s part (fun p => { p with heldRecs := p.heldRecs ++ [bs] })

/-- Held records written while the ring has room. -/
def drainRecs : List (List Byte) → State → Nat → State
  | [], s, part => modP s part (fun p => { p with heldRecs := [] })
  | b :: bs, s, part =>
    if ringRoom (partAt s part) then drainRecs bs (writeRec s part b) part else modP s part (fun p => { p with heldRecs := b :: bs })

/-- Whether a request for a granule is outstanding (R436). -/
def asksFor (p : Part) (gran : Nat) : Bool := p.preqs.any (fun r => r.gran == gran && !r.dead)

/-- A request made for a granule: its record, and its place among those outstanding. -/
def newPageReq (s : State) (part gran ctx : Nat) (w x a e : Bool) (joined : List PageAsker) : State :=
  let p := partAt s part
  let r : PageReq :=
    { rid := p.nextRid % 2 ^ 32, gran := gran, cinc := ((getC s ctx).map Ctx.incarn).getD 0, ctx := ctx, write := w, exec := x, atom := a, eng := e,
      joined := joined, dead := false }
  pushRec (modP s part (fun p => { p with nextRid := p.nextRid + 1, preqs := p.preqs ++ [r] })) part (requestRec s part r)

/-- R436: PAGE_REQUEST: an access to a granule with no backing asks for it, or joins the request that is out. -/
def execPageRequest (part gran : Nat) (asker : PageAsker) (s : State) : Out :=
  match askerAt s part gran asker with
  | none => .next s
  | some (ctx, w, x, a, e) =>
    if (partAt s part).preqs.any (fun r => r.joined.contains asker) then .next s
    else
      let s1 := askerWaits s gran ctx asker
      if asksFor (partAt s part) gran then
        .next (modP s1 part (fun p => { p with preqs := p.preqs.map (fun r => if r.gran = gran ∧ ¬r.dead then { r with joined := r.joined ++ [asker] } else r) }))
      else .next (newPageReq s1 part gran ctx w x a e [asker])

/-- R416, R436: PRQPTR_HEAD_WRITE. -/
def execPrqptrHeadWrite (part head : Nat) (s : State) : Out :=
  let s1 := modP s part (fun p => { p with prqHead := BitVec.ofNat 16 head })
  .next (drainRecs (partAt s1 part).heldRecs s1 part)

/-! ## Page answers (R438, R439) -/

/-- The context whose lane or fetch asks; engines ask for none that halts. -/
def askerCtx (s : State) (a : PageAsker) : Option Nat :=
  match a with
  | .lane op _ => (getOp s op).bind (fun o => (getG s o.g).map Group.ctx)
  | .fetch g => (getG s g).map Group.ctx
  | .copy _ | .drain _ => none

/-- The context that an asker works for, where it is still there. -/
def askerAlive (s : State) (a : PageAsker) : Option Nat :=
  let live := fun (c : Nat) => if (getC s c).any (fun x => x.state != .free && x.state != .killing) then some c else none
  match a with
  | .lane op lane => match getOp s op with
    | some o => if o.lanes.any (fun x => x.lane == lane && x.st == .page) then (getG s o.g).bind (fun g => live g.ctx) else none
    | none => none
  | .fetch g => (getG s g).bind (fun h => live h.ctx)
  | .copy req => match getReq s req, getColl s req with
    | some r, _ => live r.ctx
    | none, some c => live c.ctx
    | none, none => none
  | .drain cmd => (getCmd s cmd).bind (fun c => live c.ctx)

/-- R439 FAIL: a joined lane takes the translation fault, a joined copy or drain aborts (DEDUCED, log 56). -/
def failAsker (s : State) (a : PageAsker) : State :=
  match a with
  | .lane op lane => match getOp s op with
    | some o => if o.lanes.any (fun x => x.lane == lane && x.st == .page) then failLane s o lane 0x0F 0 else s
    | none => s
  | .fetch g => match (getG s g).bind (fun h => h.cur.map (fun f => (h, f))), getG s g with
    | some (_, f), some h =>
      let p := BitVec.ofNat 64 (((gridOf s h).map (fun gr => gr.lr.code.toNat)).getD 0 + f.pc)
      modG s g (fun h => { h with pendTraps := h.pendTraps ++ [{ kept := false, cause := 0x0F, sub := 0, lanes := f.pred, addr := p, word := 0 }] })
    | _, _ => s
  | .copy req => match getColl s req with
    | some _ => failColls s (fun c => c.id == req)
    | none => modReq s req (abortReq s)
  | .drain cmd => abortDrain s cmd

/-- A joined lane goes on once its granule is backed (R238, R439) (DEDUCED, log 56). -/
def resumeAsker (s : State) (a : PageAsker) : State :=
  match a with
  | .lane op lane => setLane s op lane (fun x => if x.st = .page then { x with st := .sent } else x)
  | .fetch _ | .copy _ | .drain _ => s

/-- R295, R306, R439: FAULTED cleared where no request of the context's lanes is left; one that was HALTED for it runs on, unless its image is being written or read (R299). -/
def clearFaulted (s : State) (ctx : Nat) : State :=
  match getC s ctx with
  | none => s
  | some c =>
    let left := (partAt s c.part).preqs.any (fun r => r.joined.any (fun a => askerCtx s a == some ctx))
    if left || !c.faulted then s
    else if c.state == .halted && !c.imaging then
      agentEvent (resumeHalted (modC s ctx (fun c => { c with faulted := false, saveReq := false })) ctx) (· == c.core)
    else modC s ctx (fun c => { c with faulted := false, haltReq := c.haltReq && c.saveReq })

/-- A request answered: its askers dealt with, its contexts looked at (DEDUCED, log 56). -/
def settle (s : State) (part : Nat) (r : PageReq) (f : State → PageAsker → State) : State :=
  let cs := (r.joined.filterMap (askerCtx s)).eraseDups
  let s1 := modP s part (fun p => { p with preqs := p.preqs.filter (fun q => q.rid != r.rid) })
  cs.foldl clearFaulted (r.joined.foldl f s1)

/-- R439: a request whose first context was killed: those of other contexts ask again (DEDUCED, log 55). -/
def reAsk (s : State) (part : Nat) (r : PageReq) : State :=
  let s1 := modP s part (fun p => { p with preqs := p.preqs.filter (fun q => q.rid != r.rid) })
  let alive := r.joined.filter (fun a => (askerAlive s a).isSome)
  match alive.head?.bind (askerAlive s) with
  | none => s1
  | some c => newPageReq s1 part r.gran c r.write r.exec r.atom r.eng alive

/-- The half of the context that touched a page first (R431). -/
def touchHalf (s : State) (r : PageReq) : Nat := halfOfStack (((getC s r.ctx).map Ctx.stack).getD 0)

/-- R426: a granule's bytes as they come from a host frame, which holds what the host put there (a free value; log 34). -/
def fromHost (s : State) (part n : Nat) : State := { s with mem := memWrN s.mem (uniKey part (4096 * n)) ((List.range 4096).map (Config.freeByte s.fresh)), fresh := s.fresh + 1 }

/-- R439: backing for a granule that an answer gives: a page that an earlier answer for another of its granules has backed keeps it (DEDUCED, log 55). -/
def backFor (s : State) (part : Nat) (r : PageReq) : Option State :=
  if (granAt (partAt s part) r.gran).state == .none then backPage s part r.gran (touchHalf s r) else some s

/-- R439: an answer applied to its request, by STATUS (DEDUCED, log 55). -/
def applyAnswer (s : State) (part : Nat) (r : PageReq) (status hpa : Nat) : State :=
  match status with
  | 0 => match backFor s part r with
    | some t => settle t part r resumeAsker
    | none => reAsk s part r
  | 1 => match backFor s part r with
    | some t => settle (pushRec (fromHost t part r.gran) part (noticeRec part hpa)) part r resumeAsker
    | none => reAsk (pushRec s part (noticeRec part hpa)) part r
  | 2 =>
    if (granAt (partAt s part) r.gran).state != .none then settle (pushRec s part (noticeRec part hpa)) part r resumeAsker
    else
      let ps := sizeOfPage s part r.gran
      let ns := pageOf ps r.gran
      let t := modP s part (fun p => ns.foldl (fun p n => modGran p n (fun g =>
        { g with state := .host (hpa + 4096 * n - 4096 * r.gran), psize := ps })) p)
      settle t part r resumeAsker
  | _ => settle s part r failAsker

/-- R438, R439: an answer by its two registers. -/
def pageAnswer (s : State) (lo hi : Nat) : State :=
  let part := bits lo 47 45
  let status := bits lo 44 42
  let hpa := hi / 4096 * 4096
  match (partAt s part).preqs.find? (fun r => r.rid == bits lo 31 0) with
  | none => { s with discarded := s.discarded + 1 }
  | some r =>
    let back := fun (s : State) => if status = 1 ∨ status = 2 then pushRec s part (noticeRec part hpa) else s
    if 4 ≤ status || bits lo 41 32 != 0 || hi % 4096 != 0 then { s with discarded := s.discarded + 1 }
    else if r.dead then modP (back s) part (fun p => { p with preqs := p.preqs.filter (fun q => q.rid != r.rid) })
    else if (getC s r.ctx).map Ctx.incarn != some (BitVec.ofNat 16 (bits lo 63 48)) then reAsk (back s) part r
    else applyAnswer s part r status hpa

/-- An answer written to ANSW0 and ANSW1, where its STATUS is the one its row names or none. -/
def answerOf (want : Nat) (ans : PageAnswer) (s : State) : Out :=
  let st := bits ans.lo.toNat 44 42
  .next (if st = want || 4 ≤ st then { pageAnswer s ans.lo.toNat ans.hi.toNat with answ0 := ans.lo, answ1 := ans.hi } else s)

/-- R439: PAGE_ANSWER_ZERO. -/
def execPageAnswerZero (ans : PageAnswer) (s : State) : Out := answerOf 0 ans s
/-- R439: PAGE_ANSWER_COPY. -/
def execPageAnswerCopy (ans : PageAnswer) (s : State) : Out := answerOf 1 ans s
/-- R439: PAGE_ANSWER_MAP. -/
def execPageAnswerMap (ans : PageAnswer) (s : State) : Out := answerOf 2 ans s
/-- R439: PAGE_ANSWER_FAIL. -/
def execPageAnswerFail (ans : PageAnswer) (s : State) : Out := answerOf 3 ans s

/-! ## The host agent's requests (R440) -/

/-- R440: the checks that come before a command, on the page that holds a granule: 2 beyond ULIM, 1 with a request outstanding, or pinned where it matters (DEDUCED, log 57). -/
def hreqRefuse (s : State) (part gran : Nat) (pinMatters : Bool) : Option Nat :=
  let p := partAt s part
  let ns := pageOf (sizeOfPage s part gran) gran
  if p.ulim.toNat ≤ 4096 * gran then some 2
  else if ns.any (asksFor p) || (pinMatters && ns.any (fun n => (granAt p n).pinned)) then some 1
  else none

/-- A command done with a result. -/
def hreqDone (s : State) (code : Nat) : State := { s with hres := BitVec.ofNat 64 code, hcmd := none }

/-- HRES while a command is in progress. -/
def hresBusy : W64 := BitVec.ofNat 64 (2 ^ 63)

/-- A command that goes on: HRES bit 63 reads 1 until it is done. -/
def hreqGoes (s : State) (c : HreqCmd) : State := { s with hres := hresBusy, hcmd := some c }

/-- The granules of the page that a command names. -/
def hreqPage (s : State) (c : HreqCmd) : List Nat := pageOf (sizeOfPage s c.part c.gran) c.gran

/-- R440: QUERY: what a granule's record says. -/
def hreqQuery (s : State) (c : HreqCmd) : State :=
  let g := granAt (partAt s c.part) c.gran
  let v := match g.state with
    | .none => 0
    | .hbm k => 1 * 2 ^ 8 + k * 2 ^ 16 + hbmHalf k * 2 ^ 20
    | .tier2 h => 2 * 2 ^ 8 + h * 2 ^ 20
    | .host _ => 3 * 2 ^ 8
  hreqDone s (v + b2n g.pinned * 2 ^ 21)

/-- Granules' pin marks. -/
def setPins (s : State) (part : Nat) (ns : List Nat) (b : Bool) : State :=
  modP s part (fun p => ns.foldl (fun p n => modGran p n (fun g => { g with pinned := b })) p)

/-- R440: PIN: a NONE page gets backing first. -/
def hreqPin (s : State) (c : HreqCmd) : State :=
  if (granAt (partAt s c.part) c.gran).state == .none then
    match backPage s c.part c.gran (hostHalf (partAt s c.part)) with
    | some t => hreqDone (setPins t c.part (hreqPage s c) true) 0
    | none => hreqDone s 3
  else hreqDone (setPins s c.part (hreqPage s c) true) 0

/-- R322: a page that migrates evicts the watches on it. -/
def evictWatches (s : State) (part : Nat) (ns : List Nat) : State :=
  { s with groups := s.groups.map (fun g => { g with watch := g.watch.map (fun w => match w.loc with
    | .uni p ua => if w.armed ∧ p = part ∧ ns.contains (ua / 4096) then { w with trig := w.trig.or (some 1) } else w
    | .pool _ | .lat _ _ _ | .peer _ _ _ | .mcast _ _ _ => w) }) }

/-- A page's granules set to move, each to its own new state (R433) (DEDUCED, log 55). -/
def startMove (s : State) (part : Nat) (ns : List Nat) (f : Nat → GranState) : State :=
  modP (evictWatches s part ns) part (fun p => ns.foldl (fun p n => modGran p n (fun g => { g with moving := some (f n) })) p)

/-- R440: TOHOST: done once every granule of the page has moved. -/
def hreqTohost (s : State) (c : HreqCmd) : State :=
  if (granAt (partAt s c.part) c.gran).state == .none then hreqDone s 0
  else hreqGoes (startMove s c.part (hreqPage s c) (fun n => .host (c.hpa / 4096 * 4096 + 4096 * n - 4096 * c.gran))) c

/-- R440: TODEV. -/
def hreqTodev (s : State) (c : HreqCmd) : State :=
  let p := partAt s c.part
  if !granHost (granAt p c.gran) then hreqDone s 0
  else match placeOn p (hostHalf p) (hreqPage s c).length ((mpEntry s c.part (4096 * c.gran)).bind ObjEnt.hint) with
    | some st => hreqGoes (startMove s c.part (hreqPage s c) (fun _ => st)) c
    | none => hreqDone s 3

/-- R440: DROP. -/
def hreqDrop (s : State) (c : HreqCmd) : State :=
  let s1 := (hreqPage s c).foldl (fun s n => zeroGran s c.part n) s
  hreqDone (modP s1 c.part (fun p => (hreqPage s c).foldl (fun p n => modGran p n (fun g => { g with state := .none })) p)) 0

/-- R440: a command performed: refused, or by its number. -/
def hreqRun (s : State) (c : HreqCmd) : State :=
  match hreqRefuse s c.part c.gran (decide (3 ≤ c.cmd)) with
  | some code => hreqDone s code
  | none => match c.cmd with
    | 0 => hreqQuery s c
    | 1 => hreqPin s c
    | 2 => hreqDone (setPins s c.part (hreqPage s c) false) 0
    | 3 => hreqTohost s c
    | 4 => hreqTodev s c
    | _ => hreqDrop s c

/-- Whether a granule of the page that a command names moves. -/
def hreqHeld (s : State) (c : HreqCmd) : Bool := (hreqPage s c).any (fun n => (granAt (partAt s c.part) n).moving.isSome)

/-- R440: a command submitted through HREQ0 and HREQ1; ignored while one is in progress; one whose page moves is performed once the page is at rest (R433, R441) (DEDUCED, log 57). -/
def hreq (part gran cmd hpa : Nat) (s : State) : Out :=
  let c : HreqCmd := { part := part, gran := gran, cmd := cmd, hpa := hpa, held := true }
  let s1 := { s with hreq0 := BitVec.ofNat 64 (4096 * gran + part % 8), hreq1 := BitVec.ofNat 64 (hpa / 4096 * 4096 + cmd) }
  .next (if s.hcmd.isSome then s else if hreqHeld s c then hreqGoes s1 c else hreqRun s1 { c with held := false })

/-- R440: HREQ_QUERY. -/
def execHreqQuery (part gran : Nat) (s : State) : Out := hreq part gran 0 0 s
/-- R440: HREQ_PIN. -/
def execHreqPin (part gran : Nat) (s : State) : Out := hreq part gran 1 0 s
/-- R440: HREQ_UNPIN. -/
def execHreqUnpin (part gran : Nat) (s : State) : Out := hreq part gran 2 0 s
/-- R440: HREQ_TOHOST. -/
def execHreqTohost (part gran hpa : Nat) (s : State) : Out := hreq part gran 3 hpa s
/-- R440: HREQ_TODEV. -/
def execHreqTodev (part gran : Nat) (s : State) : Out := hreq part gran 4 0 s
/-- R440: HREQ_DROP. -/
def execHreqDrop (part gran : Nat) (s : State) : Out := hreq part gran 5 0 s

/-! ## Moves (R432, R433) -/

/-- A command of the host agent goes on once its page is at rest: a held one is performed, a move is done (R440) (DEDUCED, log 57). -/
def hreqNext (s : State) : State :=
  match s.hcmd with
  | some c => if hreqHeld s c then s else if c.held then hreqRun s { c with held := false } else hreqDone s 0
  | none => s

/-- The base dies that a move of a granule crosses: the memory processor's, and those of its backing before and after (R12, R22). -/
def moveDies (s : State) (part gran : Nat) (st : GranState) : List Nat :=
  [homeDie s part gran, match st with
    | .hbm k => hbmHalf k
    | .tier2 h => h
    | .none | .host _ => homeDie s part gran]

/-- R433: PAGE_MOVE_STEP: one granule's bytes copied, from a host frame what the host put there, its new backing recorded; it waits while a die on its path has no table or announces (R23). -/
def execPageMoveStep (part gran : Nat) (s : State) : Out :=
  let g := granAt (partAt s part) gran
  match g.moving with
  | none => .next s
  | some st =>
    if !(moveDies s part gran st).all (mayReach s (senderNow s 0)) then .next s
    else
      let bs := if granHost g then (List.range 4096).map (Config.freeByte s.fresh) else uniRd s part (4096 * gran) 4096
      let s1 := modP (zeroGran { s with fresh := s.fresh + 1 } part gran) part (fun p => modGran p gran (fun g => { g with state := st, moving := none }))
      .next (hreqNext (uniPut s1 part (4096 * gran) bs))

/-- A saturating 16-bit count. -/
def satCount (n : Nat) : Nat := min n 65535

/-- R432: a granule's counters at an epoch's end: what its L2 misses added, which the model leaves free (DESIGN CHOICE, log 2), then halved. -/
def epochCount (stamp : Nat) (g : Gran) : Gran :=
  let free := fun (i : Nat) => (Config.freeWord (stamp + 2 * g.num + i)).toNat
  { g with missA := satCount (g.missA + free 0) / 2, missB := satCount (g.missB + free 1) / 2, hostAcc := g.hostAcc / 2 }

/-- R432: whether a granule may move: device backed, at rest, not pinned, no request out, no save area. -/
def mayMove (s : State) (part : Nat) (g : Gran) : Bool :=
  let p := partAt s part
  g.moving.isNone && !g.pinned && !asksFor p g.num && (match g.state with
    | .hbm _ | .tier2 _ => true
    | .none | .host _ => false) &&
  !s.ctxs.any (fun c => c.part == part && c.state != .free && (match saveSpan s c 0 with
    | some ua => (gransOf ua (saveBytes s c)).contains g.num
    | none => false))

/-- The pages whose granules all may move, by their first granules, with their counts (R428, R432). -/
structure PageStat where
  first : Nat
  ns : List Nat
  state : GranState
  a : Nat
  b : Nat
  host : Nat
  advice : Nat
  deriving DecidableEq, Repr

/-- The half a device state lies on. -/
def halfOfState (st : GranState) : Nat :=
  match st with
  | .hbm k => hbmHalf k
  | .tier2 h => h
  | .none | .host _ => 0

/-- The movable pages of a partition. -/
def pageStats (s : State) (part : Nat) : List PageStat :=
  let p := partAt s part
  let firsts := ((p.grans.filter (mayMove s part)).map (fun g => (pageOf g.psize g.num).headD g.num)).eraseDups
  firsts.filterMap (fun f =>
    let ns := pageOf (granAt p f).psize f
    let gs := ns.map (granAt p)
    if gs.all (mayMove s part) then
      some { first := f, ns := ns, state := (granAt p f).state, a := (gs.map Gran.missA).foldl (· + ·) 0, b := (gs.map Gran.missB).foldl (· + ·) 0,
             host := (gs.map Gran.hostAcc).foldl (· + ·) 0, advice := (granAt p f).advice }
    else none)

/-- A page's total count. -/
def PageStat.total (x : PageStat) : Nat := x.a + x.b + x.host

/-- Whether a state is in second-tier memory. -/
def isTier (st : GranState) : Bool :=
  match st with
  | .tier2 _ => true
  | .none | .hbm _ | .host _ => false

/-- R432 step 1 for one page. -/
def moveUp (part : Nat) (s : State) (x : PageStat) : State :=
  if isTier x.state && decide (64 ≤ x.total) then
    match fullestStack (partAt s part) (halfOfState x.state) x.ns.length with
    | some k => startMove s part x.ns (fun _ => .hbm k)
    | none => s
  else s

/-- R432 step 2 for one page. -/
def moveAcross (part : Nat) (s : State) (x : PageStat) : State :=
  let p := partAt s part
  let h := halfOfState x.state
  let own := if h = 0 then x.a else x.b
  let other := if h = 0 then x.b else x.a
  if 256 ≤ other ∧ 4 * own < other ∧ holdsHalf p (1 - h) then
    match placeOn p (1 - h) x.ns.length none with
    | some st => startMove s part x.ns (fun _ => st)
    | none => s
  else s

/-- HBM granules in use, and granted. -/
def hbmUse (p : Part) : Nat := (p.grans.filter (fun g => match g.moving.getD g.state with
  | .hbm _ => true
  | .none | .tier2 _ | .host _ => false)).length
/-- HBM granules granted. -/
def hbmGrant (p : Part) : Nat := 512 * (p.grant.take Config.numHbm).foldl (· + ·) 0

/-- R432 step 3 for one page. -/
def moveDown (part : Nat) (s : State) (x : PageStat) : State :=
  let p := partAt s part
  let h := halfOfState x.state
  if hbmGrant p - hbmGrant p / 64 < hbmUse p && x.ns.all (fun n => (granAt p n).moving.isNone) && decide (x.ns.length ≤ tierFree p h) then
    startMove s part x.ns (fun _ => .tier2 h) else s

/-- Pages with some advice first (R249, R432) (DEDUCED, log 24). -/
def advisedFirst (l : List PageStat) (adv : List Nat) : List PageStat := l.filter (fun x => adv.contains x.advice) ++ l.filter (fun x => !adv.contains x.advice)

/-- A page put among pages by rising total. -/
def insertPage (x : PageStat) : List PageStat → List PageStat
  | [] => [x]
  | y :: ys => if x.total ≤ y.total then x :: y :: ys else y :: insertPage x ys

/-- R432: EPOCH_END: counters halved, then pages set to move. -/
def execEpochEnd (part : Nat) (s : State) : Out :=
  let p := partAt s part
  if s.tick < (p.epoch + 1) * 2 ^ 20 then .next s
  else
    let s1 := modP { s with fresh := s.fresh + 1 } part (fun p => { p with epoch := s.tick / 2 ^ 20, grans := p.grans.map (epochCount s.fresh) })
    let near := fun (s : State) => advisedFirst (pageStats s part) [1, 4]
    let s1 := (near s1).foldl (moveUp part) s1
    let s2 := (near s1).foldl (moveAcross part) s1
    let hot := (pageStats s2 part).filter (fun x => match x.state with
      | .hbm _ => true
      | .none | .tier2 _ | .host _ => false)
    .next ((advisedFirst (hot.foldr insertPage []) [2]).foldl (moveDown part) s2)

/-! ## Device accesses to host memory (R426, R427) -/

/-- R427: whether an atomic or reduction can be sent to the host (DEDUCED, log 58). -/
def hostForm (o : Op) : Bool :=
  match o.kind with
  | .atom op | .red op => (op == 0 && (o.size == 4 || o.size == 8)) || (op == 8 && (match o.kind with
      | .atom _ => true
      | _ => false))
  | _ => true

/-- A lane's access made where it meets the host's frame: through the team's L1 as any other (R140), what it writes to the host remembered until the link is flushed (R426) (DEDUCED, log 58). -/
def hostPerform (s : State) (g : Group) (o : Op) (x : LaneOp) : State :=
  let s1 := if isWrite o.kind then (List.range o.size).foldl (fun s i => noteHost s o.g (locUp x.loc i)) s else s
  performUnits s1 g o x (unitsDue o x (BitVec.allOnes 32))

/-- R426: one lane sent over the link: a store is performed when it is sent; a load or atomic waits for the host; a form the host does not take is not made; so for a link that is down (R441) (DEDUCED, log 58). -/
def hostLane (id : Nat) (s : State) (lane : Nat) : State :=
  match getOp s id with
  | none => s
  | some o =>
    match getG s o.g, o.lanes.find? (fun x => x.lane == lane) with
    | some g, some x =>
      if orderFree s o x && laneReach s o x == .host then
        if !hostForm o then failLane s o lane 0x10 3
        else if !linkUp s (partAt s (partOf s g)).link then failLane s o lane 0x10 4
        else if o.kind == .st then hostPerform s g o x
        else setLane s id lane (fun x => { x with st := .host })
      else s
    | _, _ => s

/-- R426: HOST_MEMORY_REQUEST (DEDUCED, log 58). -/
def execHostMemoryRequest (op : Nat) (lanes : Mask) (s : State) : Out :=
  .next ((lanesOf lanes).foldl (hostLane op) s)

/-- R426, R427: what the host's memory held arrives for a lane that waits for it, or its access failed (DEDUCED, log 34). -/
def hostLaneEnd (s : State) (o : Op) (lane : Nat) (ok : Bool) (vals : List W32) : State :=
  match getG s o.g, o.lanes.find? (fun x => x.lane == lane) with
  | some g, some x =>
    if x.st != .host || !frameHere s o.g then s
    else if !ok then failLane s o lane 0x10 4
    else
      let s1 := match x.loc with
        | .uni p ua => uniPut s p ua (wordBytes o.size vals)
        | .pool _ | .lat _ _ _ | .peer _ _ _ | .mcast _ _ _ => s
      hostPerform s1 g o x
  | _, _ => s

/-- R426, R427: HOST_COMPLETION: of a lane, of a copy's source or index line, or of a collective's SEND bytes. -/
def execHostCompletion (op lane : Nat) (ok : Bool) (vals : List W32) (s : State) : Out :=
  .next (match getOp s op, getReq s op, getColl s op with
    | some o, _, _ => hostLaneEnd s o lane ok vals
    | none, some r, _ => hostLine s r ok vals
    | none, none, some c => hostSend s c ok vals
    | none, none, none => s)

/-- R426: SYSTEM_RELEASE_FLUSH: the completion of a zero-length read behind a group's writes to the host. -/
def execSystemReleaseFlush (g : Nat) (s : State) : Out := .next { s with hwrites := s.hwrites.filter (fun w => w.g != g) }

end Sys2Proof.Machine
end

