-- ==== Sys2Proof/Machine/HostPort.lean ====
section
/-! DEFINITION. Sys2Proof/Machine/HostPort.lean: inbound requests, object-table invalidation, partitions enabled and torn down, function level reset (R414-R425, R430, R441). -/

namespace Sys2Proof.Machine

/-! ## Inbound requests (R419-R425) -/

/-- R421: whether two requests of one link are related: the later without IDO, or one requester. -/
def related (earlier later : HostReq) : Bool := earlier.link == later.link && (!later.ido || earlier.rid == later.rid)

/-- R419: the unified address of a request's first byte. -/
def reqUa (s : State) (r : HostReq) : Nat := (partAt s r.part).uwin.toNat + r.off

/-- R414: whether a request reaches its partition's function. -/
def funcTakes (s : State) (r : HostReq) : Bool := (partAt s r.part).enable && (partAt s r.part).link == r.link

/-- The bytes of BAR2 (R416). -/
def barBytes : Nat := 2 ^ 38

/-- R416, R419: whether a request of n bytes lies within BAR2 and below ULIM. -/
def reqFits (s : State) (r : HostReq) (n : Nat) : Bool := decide (r.off + n ≤ barBytes) && decide (reqUa s r + n ≤ (partAt s r.part).ulim.toNat)

/-- R419, R420, R423: a completion sent to the host. -/
def complete (s : State) (r : HostReq) (status : Nat) (ep : Bool) (data : List Byte) : State := { s with cpls := s.cpls ++ [⟨r.link, r.rid, status, ep, data⟩] }

/-- R419, R420: an unsupported request logged. -/
def logUr (s : State) : State := { s with unsupported := s.unsupported + 1 }

/-- R417, R418, R430: a configuration error logged. -/
def logCfg (s : State) : State := { s with cfgErrors := s.cfgErrors + 1 }

/-- R419: the 128-byte lines that bytes from an address fall in. -/
def inbLines (ua : Nat) (data : List Byte) : List InbLine :=
  (((List.range ((ua + data.length + 127) / 128 - ua / 128)).map (· + ua / 128)).map (fun l =>
    let lo := max ua (128 * l)
    let hi := min (ua + data.length) (128 * l + 128)
    ({ id := l, ua := lo, data := (data.drop (lo - ua)).take (hi - lo), acked := false } : InbLine)))

/-- The base die of the port that serves a link (R414). -/
def portDie (link : Nat) : Nat := if link ≤ 1 then 0 else 1

/-- R419, R422: INBOUND_POSTED_WRITE: accepted and split into lines, or dropped and logged. -/
def execInboundPostedWrite (req : HostReq) (s : State) : Out :=
  if !linkUp s req.link then .next s
  else if funcTakes s req && reqFits s req req.data.length then
    .next { s with nextId := s.nextId + 1, inb := s.inb ++ [{ id := s.nextId, inc := (dieAt s (portDie req.link)).incarn, req := req, lines := inbLines (reqUa s req) req.data }] }
  else .next (logUr s)

/-- R425: an access of the host party: strong, at system scope, with its order. -/
def hostAccess (s : State) (part ua n : Nat) (o : Order) (k : FabricKind) : State × List Byte :=
  let r := fabricAccess s { part := part, member := hostMember, incarn := 0, strong := true, order := o, scope := .sys, obj := 0, off := 0, size := n, kind := k } ua
  (r.1, r.2.1)

/-- R420: what stands where an inbound access of a line goes: it may be performed in the state given, it is held, or it is refused. -/
inductive InbReach where
  | go (s : State)
  | held
  | refused

/-- R420: an inbound access's granule by its state; a NONE page gets zeros. It is held while a die between its port and its home slice has no table or announces (R23) (DEDUCED, log 60). -/
def inbReach (s : State) (w : Sender) (part ua : Nat) : InbReach :=
  let p := partAt s part
  let g := granAt p (ua / 4096)
  if g.moving.isSome || !mayReach s w (homeDie s part (ua / 4096)) then .held
  else match g.state with
    | .hbm _ | .tier2 _ => .go s
    | .host _ => .refused
    | .none => match backPage s part (ua / 4096) (hostHalf p) with
      | some t => if mayReach t w (homeDie t part (ua / 4096)) then .go t else .held
      | none => .held

/-- R432: a host-port access counted at its granule. -/
def countHost (s : State) (part ua : Nat) : State :=
  modP s part (fun p => modGran p (ua / 4096) (fun g => { g with hostAcc := satCount (g.hostAcc + 1) }))

/-- R422: whether earlier writes let a write's lines go. -/
def mayRelease (s : State) (i : Inbound) : Bool :=
  !(s.inb.any (fun j => decide (j.id < i.id) && related j.req i.req && (!j.req.ro || !i.req.ro)))

/-- R422: a line acknowledged; a write all of whose lines are is done. -/
def ackLine (s : State) (req line : Nat) : State :=
  let upd := fun i : Inbound => if i.id = req then { i with lines := i.lines.map (fun l => if l.id = line then { l with acked := true } else l) } else i
  { s with inb := (s.inb.map upd).filter (fun i => i.lines.any (fun l => !l.acked)) }

/-- R420, R422, R425: INBOUND_LINE_ACK: a released line performed at its home slice and acknowledged; one that its home slice's die finds stale is dropped and counted there (R23) (DEDUCED, log 60). -/
def execInboundLineAck (req line : Nat) (s : State) : Out :=
  match s.inb.find? (fun i => i.id == req) with
  | none => .next s
  | some i =>
    match i.lines.find? (fun l => l.id == line && !l.acked), mayRelease s i with
    | some l, true =>
      let part := i.req.part
      let w : Sender := (portDie i.req.link, i.inc)
      if !(partAt s part).enable then .next (ackLine s req line)
      else match inbReach s w part l.ua with
        | .held => .next s
        | .refused => .next (logUr (ackLine s req line))
        | .go t =>
          let home := homeDie t part (l.ua / 4096)
          if reqStale t w home then .next (countStale (ackLine s req line) home)
          else .next (ackLine (hostAccess (countHost t part l.ua) part l.ua l.data.length (if i.req.ro then .rlx else .rel) (.write (leValue l.data))).1 req line)
    | _, _ => .next s

/-- R423: whether the writes before a read or AtomicOp let it be performed. -/
def readTurn (s : State) (r : HostReq) : Bool := !(s.inb.any (fun j => related j.req r && (!j.req.ro || !r.ro)))

/-- The lines of an inbound read, each an acquire load (R420, R423, R425): none where one is held, else the status, whether a line is poisoned, and the bytes; a NONE page gets zeros. -/
def readLines (s : State) (w : Sender) (part : Nat) (ep : Bool) (bs : List Byte) : List (Nat × Nat) → Option (State × Nat × Bool × List Byte)
  | [] => some (s, 0, ep, bs)
  | x :: xs => match inbReach s w part x.1 with
    | .held => none
    | .refused => some (s, 1, false, [])
    | .go t =>
      let r := hostAccess (countHost t part x.1) part x.1 x.2 .acq .read
      readLines r.1 w part (ep || badLine t (.uni part x.1) x.2) (bs ++ r.2) xs

/-- The parts of n bytes that lie in each 128-byte line, as first address and length (R419). -/
def linePieces (ua n : Nat) : List (Nat × Nat) :=
  ((List.range ((ua + n + 127) / 128 - ua / 128)).map (fun i =>
    let lo := max ua (128 * (ua / 128 + i))
    (lo, min (ua + n) (128 * (ua / 128 + i) + 128) - lo))).filter (fun x => x.2 != 0)

/-- R419, R420, R423: INBOUND_READ: completed with data, or with Unsupported Request where it is refused (DEDUCED, log 60). -/
def execInboundRead (req : HostReq) (s : State) : Out :=
  if !linkUp s req.link then .next s
  else if !(funcTakes s req && reqFits s req req.len) then .next (complete s req 1 false [])
  else if !readTurn s req then .next s
  else match readLines s (senderNow s (portDie req.link)) req.part false [] (linePieces (reqUa s req) req.len) with
    | none => .next s
    | some (t, status, ep, bs) => .next (complete t req status ep bs)

/-- R415: what an AtomicOp does: FetchAdd, Swap or CAS; none for others. -/
def atomicKind (r : HostReq) : Option FabricKind :=
  match r.atom with
  | none => some (.acas r.compare (leValue r.data))
  | some op => if op = 0 ∨ op = 8 then some (.atom op (leValue r.data)) else none

/-- R419, R420, R423: INBOUND_ATOMICOP: performed at its home slice at system scope, as the ATOM or ACAS of its operation, and completed with the old value; one that R415 does not name is refused (DEDUCED, log 60). -/
def execInboundAtomicop (req : HostReq) (s : State) : Out :=
  let ua := reqUa s req
  let n := req.data.length
  if !linkUp s req.link then .next s
  else if !(funcTakes s req && (n == 4 || n == 8) && ua % n == 0 && reqFits s req n) then .next (complete s req 1 false [])
  else match atomicKind req with
    | none => .next (complete s req 1 false [])
    | some k =>
      if !readTurn s req then .next s
      else match inbReach s (senderNow s (portDie req.link)) req.part ua with
        | .held => .next s
        | .refused => .next (complete s req 1 false [])
        | .go t =>
          if badLine t (.uni req.part ua) n then .next (complete t req 0 true (uniRd t req.part ua n))
          else
            let r := hostAccess (countHost t req.part ua) req.part ua n .ar k
            .next (complete r.1 req 0 false r.2)

/-! ## Object-table invalidation (R430) -/

/-- R430: OTINV_WRITE: an invalidation begins, or is ignored and logged while one runs. -/
def execOtinvWrite (part obj : Nat) (s : State) : Out :=
  if (partAt s part).otinvBusy then .next (logCfg s)
  else .next (modP s part (fun p => { p with otinvObj := obj % 2 ^ 24, otinvBusy := true }))

/-- Whether a core stands on a stack of a partition. -/
def coreOfPart (p : Part) (core : Nat) : Bool := p.stackBits.getLsbD (core / Config.coresPerStack)

/-- A partition's object caches without some entries. -/
def dropCached (s : State) (part : Nat) (bad : ObjEnt → Bool) : State :=
  let p := partAt s part
  { s with cores := s.cores.zipIdx.map (fun c => if coreOfPart p c.2 then { c.1 with objCache := c.1.objCache.filter (fun e => !bad e) } else c.1) }

/-- R430: OTINV_COMPLETE: every cached copy of the entry is gone. -/
def execOtinvComplete (part : Nat) (s : State) : Out :=
  let p := partAt s part
  if !p.otinvBusy then .next s
  else
    let bad := fun e : ObjEnt => e.key == ObjKey.g p.otinvObj
    .next (modP (dropCached s part bad) part (fun p => { p with otinvBusy := false, mpCache := p.mpCache.filter (fun e => !bad e) }))

/-! ## Partitions (R417, R418, R441) -/

/-- Every grid of a partition that still lives is to be killed (R303, R418, R441). -/
def killPart (s : State) (part : Nat) : State :=
  { s with grids := s.grids.map (fun g => if g.part = part ∧ ¬g.killed then { g with killDue := true } else g) }

/-- Queues with empty intakes; LAST and QCSEQ stay (R418, R466). -/
def emptyIntakes (s : State) (part : Nat) (disable : Bool) : State :=
  modP s part (fun p => { p with queues := p.queues.map (fun q =>
    { q with intake := [], inBatch := false, committed := false, batchBy := none, enable := q.enable && !disable }) })

/-- Whether STACKS names a stack of another enabled partition. -/
def stackClash (s : State) (part : Nat) (bits8 : BitVec 8) : Bool :=
  s.parts.zipIdx.any (fun p => p.2 != part && p.1.enable && (p.1.stackBits &&& bits8) != 0)

/-- R417: the fields of PCFG that a write changes while ENABLE is 0. -/
def pcfgFields (val : W64) (p : Part) : Part :=
  { p with ways := val.extractLsb' 32 16, link := (val.extractLsb' 10 2).toNat, stackBits := val.extractLsb' 0 8, scopemis := val.getLsbD 8 }

/-- What the module has of a stack's or a bank's 2 MiB granules that no partition holds (R11, R39). -/
def leftOf (s : State) (i : Nat) : Nat :=
  (if i < Config.numHbm then Config.hbmGranules else Config.tierGranules) - (s.parts.map (fun p => nth p.grant i 0)).foldl (· + ·) 0

/-- A grant of 2 MiB granules, stack by stack and bank by bank, as far as the module has them (R11) (DESIGN CHOICE, log 8). -/
def grantOf (s : State) (grant : List Nat) : List Nat := (List.range (Config.numHbm + 2)).map (fun i => min (nth grant i 0) (leftOf s i))

/-- A partition made to run with the capacity that system software grants it (R38, R39; DESIGN CHOICE, log 8). -/
def pcfgStart (grant : List Nat) (p : Part) : Part := { p with enable := true, grant := grant, masked := false }

/-- R418: the steps of a teardown that take effect at once (DEDUCED, log 62). -/
def teardown (s : State) (part : Nat) : State :=
  let s1 := emptyIntakes (killPart s part) part true
  let s2 := modP s1 part (fun p => { p with
    enable := false, teardown := true, masked := true, myIncarn := nextIncarn p.myIncarn,
    preqs := p.preqs.map (fun r => { r with joined := [], dead := true }) })
  { s2 with
    runs := s2.runs.map (fun r => if r.part = part then { r with done := true } else r)
    inb := s2.inb.filter (fun i => i.req.part != part)
    heldMsix := s2.heldMsix.filter (fun x => x.1 != part + 1) }

/-- R417, R418: a write of PCFG. -/
def pcfgWrite (s : State) (part : Nat) (val : W64) (grant : List Nat) : State :=
  let p := partAt s part
  let on := val.getLsbD 9
  if p.enable then
    let s1 := modP s part (fun p => { p with scopemis := val.getLsbD 8 })
    if on then s1 else teardown s1 part
  else if p.teardown then (if on then logCfg s else modP s part (fun p => { p with scopemis := val.getLsbD 8 }))
  else
    let s1 := modP s part (pcfgFields val)
    let q := partAt s1 part
    if !on then s1
    else if q.ways = 0 ∨ stackClash s1 part q.stackBits then logCfg s1
    else modP s1 part (fun p => pcfgStart (grantOf (modP s1 part (fun p => { p with grant := [] })) grant) p)

/-- R417: PARTITION_ENABLE: a write of PCFG that does not clear a set ENABLE. -/
def execPartitionEnable (part : Nat) (val : W64) (grant : List Nat) (s : State) : Out :=
  if (partAt s part).enable && !val.getLsbD 9 then .next s else .next (pcfgWrite s part val grant)

/-- R418: PARTITION_TEARDOWN: ENABLE cleared. -/
def execPartitionTeardown (part : Nat) (s : State) : Out :=
  if (partAt s part).enable then .next (teardown s part) else .next s

/-- Whether every context of a partition is free and nothing of it is under way. -/
def partQuiet (s : State) (part : Nat) : Bool :=
  s.ctxs.all (fun c => c.part != part || c.state == .free) && s.grids.all (fun g => g.part != part || !g.killDue) &&
    s.reqs.all (fun r => r.part != part) && s.mcmds.all (fun c => c.part != part) && s.colls.all (fun c => c.part != part)

/-- The memory of a partition's unified range given up. -/
def dropUni (s : State) (part : Nat) : State := { s with mem := memZero s.mem (uniKey part 0) (2 ^ 64) }

/-- R418: TEARDOWN_COMPLETE: regions destroyed, every granule NONE, grants returned; PCFG's fields accept writes again (DEDUCED, log 62). -/
def execTeardownComplete (part : Nat) (s : State) : Out :=
  if !(partAt s part).teardown || !partQuiet s part then .next s
  else
    let s1 := dropUni (dropCached s part (fun _ => true)) part
    let s2 := modP s1 part (fun p => { p with
      teardown := false, faulted := false, grans := [], regions := [], mpCache := [], grant := List.replicate 14 0, otinvBusy := false })
    let mine := s2.hcmd.any (fun c => c.part == part)
    let s3 := dropPkts s2 (fun k => k.part == part)
    .next { s3 with
      hres := if mine then BitVec.ofNat 64 (Config.freeByte s2.fresh 0).toNat else s2.hres,
      hcmd := if mine then none else s2.hcmd,
      fresh := s2.fresh + 1,
      grids := s2.grids.filter (fun g => g.part != part), runs := s2.runs.filter (fun r => r.part != part),
      strong := s2.strong.filter (fun r => r.part % outsideBase != part),
      cellCache := s2.cellCache.map (fun l => l.filter (fun c => c.part != part)),
      cores := s2.cores.zipIdx.map (fun c => if coreOfPart (partAt s part) c.2 then
        { c.1 with regionCache := c.1.regionCache.filter (fun r => r / 4096 != part) } else c.1) }

/-- R441, R466: a reset of a partition's virtual function: its inbound requests are dropped, its intakes emptied, its grids killed; its runs complete with STATUS 4. -/
def resetPart (s : State) (part : Nat) : State :=
  let s1 := emptyIntakes (killPart s part) part false
  let s2 := modP s1 part (fun p => { p with preqs := p.preqs.map (fun r => { r with joined := [], dead := true }) })
  { s2 with
    inb := s2.inb.filter (fun i => i.req.part != part)
    runs := s2.runs.map (fun r => if r.part = part ∧ ¬r.done then
      { r with status := 4, nodes := r.nodes.map (fun n => if n.state = .waiting then { n with state := .skipped } else n) } else r) }

/-- R415, R441: FUNCTION_LEVEL_RESET of the physical function, 0, or of partition p's virtual function, p + 1; of the first the manual states no effect, and the signals held for it are lost (DEDUCED, log 62). -/
def execFunctionLevelReset (func : Nat) (s : State) : Out :=
  if func = 0 then .next { s with heldMsix := s.heldMsix.filter (fun x => x.1 != 0) }
  else .next (if (partAt s (func - 1)).enable then resetPart s (func - 1) else s)

end Sys2Proof.Machine
end

