-- ==== Sys2Proof/Machine/Launch.lean ====
section
/-! DEFINITION. Sys2Proof/Machine/Launch.lean: command packets, launch records and graph tables, and what validation says of them (R378, R446-R455). -/

namespace Sys2Proof.Machine

/-! ## Reading objects (R429) -/

/-- Where n bytes at a G pointer stand, when its object grants rights to them. -/
def gPlace (s : State) (part p n : Nat) (rights : BitVec 4) : Option Nat :=
  let e := objTable s part (ptrF1 p)
  if ptrSpace p == 1 && entGrants e (ptrOff p) n rights then some (e.ubase + ptrOff p) else none

/-- The value of n bytes of the unified range. -/
def uniVal (s : State) (part ua n : Nat) : Nat := leValue (uniRd s part ua n)

/-! ## Packets (R446) -/

/-- A command packet's fields. -/
structure CmdPkt where
  seq : Nat
  kind : Nat
  arg0 : Nat
  arg1 : Nat
  arg2 : Nat
  clean : Bool
  deriving DecidableEq, Repr

/-- R446: a packet read from its 64 bytes; clean where no reserved bit is set. -/
def cmdPkt (raw : List Byte) : CmdPkt :=
  let w := leValue raw
  { seq := bits w 31 0, kind := bits w 35 32, arg0 := bits w 127 64, arg1 := bits w 191 128, arg2 := bits w 255 192,
    clean := bits w 63 36 == 0 && bits w 511 320 == 0 }

/-! ## The launch record (R449) -/

/-- Lanes of a width code; 0 where it is reserved. -/
def widthOf (code : Nat) : Nat := if code ≤ 4 then 8 * 2 ^ code else 0

/-- R449: role r of a launch record. -/
def roleOf (w r : Nat) : Role :=
  let x := bits w (128 * r + 639) (128 * r + 512)
  { entry := bits x 31 0, frame := bits x 39 32, groups := bits x 47 40, width := widthOf (bits x 50 48), depth := bits x 76 64, feed := bit x 51 }

/-- R449: the roles that a record names. -/
def roleCount (w : Nat) : Nat := bits w 230 229 + 1

/-- R449: a launch record read from its 256 bytes. -/
def launchOf (w : Nat) : Launch :=
  { stamp := bits w 447 416, savep := BitVec.ofNat 64 (bits w 383 320), l1w := bits w 292 288, scratch := bits w 287 256, nstacks := bits w 235 232,
    pair := bit w 231, teams := bits w 223 192, argp := BitVec.ofNat 64 (bits w 191 128), data := BitVec.ofNat 64 (bits w 127 64),
    code := BitVec.ofNat 64 (bits w 63 0), roles := (List.range (roleCount w)).map (roleOf w) }

/-- R449: whether a record's reserved bits are zero. -/
def launchClean (w : Nat) : Bool :=
  bits w 511 448 == 0 && bits w 415 384 == 0 && bits w 319 293 == 0 && bits w 255 236 == 0 && bits w 228 224 == 0 && bits w 2047 1536 == 0 &&
  (List.range 4).all (fun r =>
    let x := bits w (128 * r + 639) (128 * r + 512)
    if roleCount w ≤ r then x == 0 else bits x 127 77 == 0 && bits x 63 52 == 0) &&
  (List.range 8).all (fun d =>
    let x := bits w (64 * d + 1087) (64 * d + 1024)
    bits x 63 40 == 0 && bits x 14 11 == 0 && bits x 7 4 == 0)

/-- R26, R27: the roles of a team's groups in group order, with their numbers. -/
def teamGroups (lr : Launch) : List (Nat × Role) := lr.roles.zipIdx.flatMap (fun r => List.replicate r.1.groups (r.2, r.1))

/-- Groups per team. -/
def groupsPerTeam (lr : Launch) : Nat := (lr.roles.map Role.groups).foldl (· + ·) 0

/-- R26: the groups of a team on the core of a rank: alternating on a pair. -/
def rankGroups (lr : Launch) (rank : Nat) : List ((Nat × Role) × Nat) := (teamGroups lr).zipIdx.filter (fun g => !lr.pair || g.2 % 2 == rank)

/-- R211: the scratchpad bytes of a rank: half of them on each core of a pair (DEDUCED, log 68). -/
def rankScratch (lr : Launch) : Nat := if lr.pair then lr.scratch / 2 else lr.scratch

/-- R211: the granules of a role's group. -/
def groupGrans (r : Role) : Nat := frameGrans r.width r.frame + stackGrans r.width r.depth + fibreGrans r.width

/-- R211, R213: the granules of one team on the core of a rank (DEDUCED, log 68). -/
def rankGrans (lr : Launch) (rank : Nat) : Nat :=
  ceilDiv (rankScratch lr) 2048 + 64 * lr.l1w + ((rankGroups lr rank).map (fun g => groupGrans g.1.2)).foldl (· + ·) 0

/-- R293, R449: bytes of one context's save area. -/
def saveStride (lr : Launch) : Nat := 256 + 9472 * groupsPerTeam lr

/-- R449: where the save area of a team's context at a rank lies from SAVEP. -/
def saveOffset (lr : Launch) (team rank : Nat) : Nat := (if lr.pair then 2 * team + rank else team) * saveStride lr

/-- R449, R379: whether the used lattice declarations name regions of their types with enough cells. -/
def declsOk (s : State) (part w argua : Nat) : Bool :=
  (List.range 8).all (fun d =>
    let x := bits w (64 * d + 1087) (64 * d + 1024)
    if !bit x 15 then true
    else
      let p := uniVal s part (argua + 8 * bits x 3 0) 8
      match (if ptrSpace p = 4 then regionAt s part (ptrF1 p) else none) with
      | some r => r.ty == bits x 10 8 && decide (bits x 39 16 ≤ r.cells)
      | none => false)

/-- The first of numbered conditions that holds; 0 where none does. -/
def firstCode (l : List (Nat × Bool)) : Nat := ((l.find? (fun x => x.2)).map (·.1)).getD 0

/-- R448, R449: whether a record's DATA is 0 or names a mapped object. -/
def dataOk (s : State) (part p : Nat) : Bool := p == 0 || (ptrSpace p == 1 && (objTable s part (ptrF1 p)).valid)

/-- R448: the first code that rejects a launch record, 0 where none does. -/
def launchCode (s : State) (part p : Nat) : Nat :=
  match gPlace s part p 256 1 with
  | none => 3
  | some ua =>
    let w := uniVal s part ua 256
    let lr := launchOf w
    let code := objTable s part (ptrF1 lr.code.toNat)
    let gpt := groupsPerTeam lr
    let saves := max 1 (lr.teams * saveStride lr * (if lr.pair then 2 else 1))
    let arg := gPlace s part lr.argp.toNat 128 1
    firstCode
      [(3, ptrSpace lr.code.toNat != 1 || !entGrants code 0 1 4 || arg.isNone || (gPlace s part lr.savep.toNat saves 3).isNone ||
          !dataOk s part lr.data.toNat),
       (5, !launchClean w || lr.teams == 0 || decide (2 ^ 24 < lr.teams) || decide (8 < lr.nstacks) || lr.l1w == 1 || decide (16 < lr.l1w) ||
          ptrOff lr.code.toNat != 0 || lr.roles.any (fun r => r.width == 0 || r.frame == 0 || decide (192 < r.frame) || r.groups == 0 ||
            decide (4096 < r.depth) || r.entry % 8 != 0 || decide (code.len ≤ r.entry))),
       (6, decide (1 < (lr.roles.filter Role.feed).length) || lr.roles.any (fun r => r.feed && r.groups != 1)),
       (7, decide ((if lr.pair then 128 else 64) < gpt)),
       (8, lr.stamp != Config.deviceStamp),
       (9, decide ((if lr.pair then 2 ^ 23 else 2 ^ 22) < lr.scratch)),
       (10, decide (Config.poolGranules < rankGrans lr 0) || (lr.pair && decide (Config.poolGranules < rankGrans lr 1))),
       (11, !declsOk s part w (arg.getD 0))]

/-! ## Graph tables (R453, R455) -/

/-- A node as its table gives it. -/
structure NodeRow where
  pred : Nat
  succ : List Nat
  lrec : Nat
  clean : Bool
  succOk : Bool
  deriving DecidableEq, Repr

/-- R453: node i of a table at an address. -/
def nodeRow (s : State) (part ua i : Nat) : NodeRow :=
  let w := uniVal s part (ua + 64 + 32 * i) 32
  let n := bits w 95 80
  let place := if n = 0 then some 0 else gPlace s part (bits w 191 128) (2 * n) 1
  { pred := bits w 79 64, succ := ((place.map (fun a => (List.range n).map (fun j => uniVal s part (a + 2 * j) 2))).getD []), lrec := bits w 63 0,
    clean := bits w 127 96 == 0 && bits w 255 192 == 0, succOk := place.isSome }

/-- Nodes that are left when those that no left node precedes are taken away, n times over. -/
def peel (rows : List NodeRow) : Nat → List Nat → List Nat
  | 0, left => left
  | n + 1, left => peel rows n (left.filter (fun i => left.any (fun j => (rows[j]?).any (fun r => r.succ.contains i))))

/-- R455: whether the successors make no cycle. -/
def acyclic (rows : List NodeRow) : Bool := (peel rows rows.length (List.range rows.length)).isEmpty

/-- How often a node stands in successor lists (R455). -/
def predCount (rows : List NodeRow) (i : Nat) : Nat := (rows.map (fun r => r.succ.count i)).foldl (· + ·) 0

/-- The rows of the table at a pointer, where it can be read. -/
def graphRows (s : State) (part p : Nat) : Option (List NodeRow) :=
  match gPlace s part p 64 1 with
  | none => none
  | some ua =>
    let n := uniVal s part ua 4
    (gPlace s part p (64 + 32 * n) 1).map (fun ua => (List.range n).map (nodeRow s part ua))

/-- R448, R453, R455: the first code that rejects a GRAPH packet. -/
def graphCode (s : State) (part : Nat) (c : CmdPkt) : Nat :=
  match gPlace s part c.arg0 64 1 with
  | none => 3
  | some ua =>
    let n := uniVal s part ua 4
    let badHead := decide (n = 0) || decide (65536 < n) || decide (uniVal s part ua 64 / 2 ^ 32 ≠ 0)
    let rows := if badHead then [] else (graphRows s part c.arg0).getD []
    let codes := rows.map (fun r => launchCode s part r.lrec)
    firstCode ([(3, (gPlace s part c.arg1 128 3).isNone || (!badHead && (graphRows s part c.arg0).isNone) || rows.any (fun r => !r.succOk) || codes.contains 3),
        (4, badHead || rows.any (fun r => !r.clean || r.succ.any (fun i => decide (rows.length ≤ i))) ||
          rows.zipIdx.any (fun r => r.1.pred != predCount rows r.2) || !acyclic rows)] ++
      ([5, 6, 7, 8, 9, 10, 11].map (fun k => (k, codes.contains k))))

/-! ## Region records (R378) -/

/-- R378, R448: whether RCREATE's record is refused. -/
def regionBad (p : Part) (w : Nat) : Bool :=
  !bit w 3 || bits w 95 72 != 0 || bits w 47 6 != 0 || bits w 5 4 == 3 || decide (bits w 127 96 < 1000) || bits w 71 48 == 0 ||
    (bits w 5 4 == 1 && !([1, 2, 4, 8].contains (stacksOf p).length))

/-- The 16-byte record of an RCREATE packet. -/
def regionRec (c : CmdPkt) : Nat := c.arg1 + 2 ^ 64 * c.arg2

/-- R448: the first code that rejects a packet; made holds the regions that earlier packets of its batch create. -/
def packetCode (s : State) (part : Nat) (made : List Nat) (c : CmdPkt) : Nat :=
  let region := c.arg0 % 4096
  let here := (regionAt s part region).isSome || made.contains region
  if !c.clean || 7 ≤ c.kind then 1
  else if c.kind = 3 then graphCode s part c
  else if c.kind = 4 then (if here || regionBad (partAt s part) (regionRec c) then 12 else 0)
  else if c.kind = 5 then (if here then 0 else 12)
  else 0

/-- R447, R448: the code of the first packet of a batch that is rejected, 0 where none is (DEDUCED, log 65). -/
def batchCode (s : State) (part : Nat) : List Nat → List CmdPkt → Nat
  | _, [] => 0
  | made, c :: cs =>
    match packetCode s part made c with
    | 0 => batchCode s part (if c.kind = 4 then c.arg0 % 4096 :: made else made) cs
    | k => k

end Sys2Proof.Machine
end

