-- ==== Sys2Proof/Machine/Front.lean ====
section
/-! DEFINITION. Sys2Proof/Machine/Front.lean: command queues, batches, runs and grids, firmware restart and the watchdog (R443-R447, R454-R459, R464-R466). -/

namespace Sys2Proof.Machine

/-- A choice that the manual leaves to the part, among those in a list (DESIGN CHOICE, log 2). -/
def pick (s : State) (l : List Nat) : Option Nat := l[(Config.freeWord s.fresh).toNat % l.length]?

/-- A queue changed. -/
def modQ (s : State) (part q : Nat) (f : Queue → Queue) : State := modP s part (fun p => { p with queues := p.queues.modify q f })

/-- A queue's record. -/
def queueAt (s : State) (part q : Nat) : Queue := nth (partAt s part).queues q Queue.reset

/-- The number of a run's or grid's record. -/
def getRun (s : State) (i : Nat) : Option Run := s.runs.find? (fun r => r.id == i)

/-! ## Submissions and queue registers (R443, R444) -/

/-- Whether a partition's virtual function takes register writes now. -/
def funcUp (s : State) (part : Nat) : Bool := linkUp s (partAt s part).link

/-- R444: the outcome of a packet by its distance from LAST. -/
def submit (q : Queue) (bytes : List Byte) : Queue :=
  let seq := (cmdPkt bytes).seq
  let d := (BitVec.ofNat 32 seq - BitVec.ofNat 32 q.last).toNat
  if d = 0 ∨ 2 ^ 31 ≤ d then q
  else if d ≠ 1 then { q with gap := true }
  else if 256 ≤ q.intake.length then { q with overf := true }
  else { q with last := seq, intake := q.intake ++ [{ raw := bytes, taken := none, started := false }] }

/-- An event for the agents of a partition's cores (R302) (DEDUCED, log 33). -/
def partEvent (s : State) (part : Nat) : State := agentEvent s (coreOfPart (partAt s part))

/-- R302, R444: QIN_SUBMISSION: the packet enters the intake or is refused; the partition's agents see a doorbell (DEDUCED, log 61). -/
def execQinSubmission (part queue : Nat) (bytes : List Byte) (s : State) : Out :=
  if !funcUp s part then .next s
  else if !(partAt s part).enable || bytes.length != 64 || !(queueAt s part queue).enable then .next (logUr s)
  else .next (partEvent (modQ s part queue (fun q => submit q bytes)) part)

/-- R443, R444: QCFG_ENABLE: QCFG written; ENABLE from 0 to 1 sets LAST and QCSEQ to 0. -/
def execQcfgEnable (part queue : Nat) (val : W64) (s : State) : Out :=
  if !funcUp s part then .next s
  else if !(partAt s part).enable then .next (logUr s)
  else .next (modQ s part queue (fun q =>
    let on := val.getLsbD 2
    let q1 := { q with vec := (val.extractLsb' 8 11).toNat, enable := on, prio := (val.extractLsb' 0 2).toNat }
    if on && !q.enable then { q1 with last := 0, qcseq := 0 } else q1))

/-- R443: QSTATUS_CLEAR: OVER and GAP cleared by ones. -/
def execQstatusClear (part queue : Nat) (val : W64) (s : State) : Out :=
  if !funcUp s part then .next s
  else if !(partAt s part).enable then .next (logUr s)
  else .next (modQ s part queue (fun q => { q with overf := q.overf && !val.getLsbD 31, gap := q.gap && !val.getLsbD 30 }))

/-! ## The next command of a queue (R446, R447) -/

/-- The first packet of an intake whose command has not begun. -/
def nextPkt (q : Queue) : Option Packet := q.intake.find? (fun p => !p.started)

/-- The packets from a batch's open BEGIN to its COMMIT that have not begun, and whether the COMMIT is there and all are taken. -/
def batchRest : List Packet → List CmdPkt × Bool
  | [] => ([], false)
  | p :: ps =>
    let c := cmdPkt p.raw
    if p.taken.isNone then ([], false)
    else if c.kind = 2 then ([c], true)
    else (c :: (batchRest ps).1, (batchRest ps).2)

/-- The rest of the batch at the head of a queue. -/
def headBatch (q : Queue) : List CmdPkt × Bool := batchRest (q.intake.filter (fun p => !p.started))

/-- R447: an intake full of one batch without its COMMIT (DEDUCED, log 65). -/
def batchFull (q : Queue) : Bool :=
  let cs := (q.intake.filter (fun p => !p.started)).map (fun p => cmdPkt p.raw)
  !q.committed && cs.length == 256 && (cs.headD (cmdPkt [])).kind == 1 && !cs.any (fun c => c.kind == 2)

/-- The first n packets that have not begun, marked as begun. -/
def markStarted : Nat → List Packet → List Packet
  | 0, l => l
  | _, [] => []
  | n + 1, p :: ps => if p.started then p :: markStarted (n + 1) ps else { p with started := true } :: markStarted n ps

/-- The next n commands of a queue have begun. -/
def begun (s : State) (part q n : Nat) : State := modQ s part q (fun x => { x with intake := markStarted n x.intake })

/-- Runs of a queue that have not completed, and regions that its RDESTROYs still wait for (DEDUCED, log 64). -/
def queueIdle (s : State) (part q : Nat) : Bool :=
  !(s.runs.any (fun r => r.part == part && r.queue == q && !r.done)) &&
    !((partAt s part).regions.any (fun r => r.dying.any (fun d => d.1 == q)))

/-- A run number that no run holds (R454) (DEDUCED, log 69). -/
def freeRuns (s : State) : List Nat := ((List.range 65535).map (· + 1)).filter (fun n => !(s.runs.any (fun r => r.num == n && !r.done)))

/-- Whether the GRAPH at the head of a queue would create a run: it is not rejected, and no run of its key is under way (R454). -/
def makesRun (s : State) (part q : Nat) (c : CmdPkt) : Bool :=
  ((queueAt s part q).inBatch || packetCode s part [] c == 0) &&
    !(s.runs.any (fun r => r.part == part && r.queue == q && r.seq == c.seq && !r.done))

/-- Whether a queue's next command could begin now (R447, R454); none of a partition stopped by a fault does (R41). -/
def cmdReady (s : State) (part q : Nat) : Bool :=
  let x := queueAt s part q
  match (if (partAt s part).faulted then none else nextPkt x) with
  | none => false
  | some p =>
    let k := (cmdPkt p.raw).kind
    p.taken.isSome &&
      (if x.inBatch && !x.committed then (headBatch x).2 || batchFull x
       else if k = 6 then queueIdle s part q
       else if k = 3 then !((freeRuns s).isEmpty) || !makesRun s part q (cmdPkt p.raw)
       else true)

/-- Places from a queue in rotation after the one whose turn was last (DEDUCED, log 66). -/
def rotTurn (last q : Nat) : Nat := (q + 63 - last) % 64

/-- R447: whether it is a queue's turn: ready, with no ready queue of higher priority, and first in rotation among its own. -/
def queueTurn (p : Part) (ready : Nat → Bool) (turn : List Nat) (q : Nat) : Bool :=
  let prio := fun (i : Nat) => (nth p.queues i Queue.reset).prio
  ready q && (List.range 64).all (fun r => !ready r || decide (prio r < prio q) ||
    (prio r == prio q && decide (rotTurn (nth turn (prio q) 63) q ≤ rotTurn (nth turn (prio q) 63) r)))

/-- The command that may begin at a queue, when it is its turn. -/
def cmdTurn? (s : State) (part q : Nat) : Option CmdPkt :=
  let p := partAt s part
  if queueTurn p (cmdReady s part) p.startTurn q then (nextPkt (queueAt s part q)).map (fun k => cmdPkt k.raw) else none

/-- The rotation of a priority moved to a queue. -/
def tookTurn (s : State) (part q : Nat) : State :=
  modP s part (fun p => { p with startTurn := p.startTurn.set (nth p.queues q Queue.reset).prio q })

/-- A command begun whose effect is f, when it is the queue's turn, its kind is as named, and it stands alone or in a batch that has been validated; alone it is validated first, and reject says what its rejection does. -/
def cmdStep (part q : Nat) (isKind : Nat → Bool) (reject : State → CmdPkt → Nat → State) (f : State → CmdPkt → State) (s : State) : Out :=
  let x := queueAt s part q
  match cmdTurn? s part q with
  | none => .next s
  | some c =>
    if !isKind c.kind || (x.inBatch && !x.committed) then .next s
    else
      let s1 := tookTurn (begun s part q 1) part q
      if x.inBatch then .next (f s1 c)
      else match packetCode s part [] c with
        | 0 => .next (f s1 c)
        | k => .next (reject s1 c k)

/-- R446: CMD_NOP; a packet of a reserved kind is rejected here (DEDUCED, log 64). -/
def execCmdNop (part queue : Nat) (s : State) : Out := cmdStep part queue (fun k => k == 0 || decide (7 ≤ k)) (fun s _ _ => s) (fun s _ => s) s

/-- R446: CMD_FENCE: its turn comes when every earlier command of the queue has completed (DEDUCED, log 64). -/
def execCmdFence (part queue : Nat) (s : State) : Out := cmdStep part queue (· == 6) (fun s _ _ => s) (fun s _ => s) s

/-! ## Completion records (R457) -/

/-- R457: a completion record; fields for which the rule gives no value in this case are free (DESIGN CHOICE, log 2) (DEDUCED, log 69). -/
def completionRec (s : State) (status : Nat) (code : Option Nat) (node : Option Nat) (t : Option TrapRec) : List Byte :=
  let free := (Config.freeWord s.fresh).toNat
  leBytes 16 (status * 2 ^ 8 + code.getD (free % 256) * 2 ^ 16 + node.getD (free / 2 ^ 16) % 2 ^ 16 * 2 ^ 32) ++ trapBytes (t.getD TrapRec.zero) ++ leBytes 32 0

/-- The command front's write of a record: a release at system scope of everything performed (R124, R457). -/
def frontWrite (s : State) (part ua : Nat) (bs : List Byte) : State :=
  let a : Acc := { party := outsideNo part 513, op := 0, me := frontParty part, strong := true, rmw := false }
  fabricWrite s a [{ a.me with view := [(0, s.stamp)] }] part ua bs

/-- R426, R457: a record written at a G pointer and the queue's vector signalled; a page with no backing gets zeros first. Where no record can be written (the pointer lacks the right) nothing is signalled (DEDUCED, log 69). -/
def writeCompletion (s : State) (part q p : Nat) (bs : List Byte) : State :=
  let s1 := { s with fresh := s.fresh + 1 }
  match gPlace s1 part p 128 2 with
    | none => s1
    | some ua =>
      let back := fun (s : State) (a : Nat) => if granNone (granAt (partAt s part) (a / 4096)) then (backPage s part (a / 4096) (hostHalf (partAt s part))).getD s else s
      let s2 := back (back s1 ua) (ua + 127)
      signal (frontWrite s2 part ua bs) (part + 1) (queueAt s part q).vec (partAt s part).link

/-- R447: the records of rejected GRAPHs. -/
def rejectGraph (part q : Nat) (s : State) (c : CmdPkt) (code : Nat) : State :=
  if c.kind = 3 then writeCompletion s part q c.arg1 (completionRec s 1 (some code) none none) else s

/-! ## Batches (R447) -/

/-- R447: CMD_BEGIN: a batch opens; one that fills the intake without a COMMIT is rejected whole. -/
def execCmdBegin (part queue : Nat) (s : State) : Out :=
  let x := queueAt s part queue
  match cmdTurn? s part queue with
  | none => .next s
  | some c =>
    let cs := (x.intake.filter (fun p => !p.started)).map (fun p => cmdPkt p.raw)
    let s1 := tookTurn s part queue
    if batchFull x then
      .next (cs.foldl (fun s c => rejectGraph part queue s c 2) (modQ (begun s1 part queue 256) part queue (fun q => { q with inBatch := false })))
    else if c.kind = 1 ∧ ¬x.inBatch then .next (modQ s1 part queue (fun q => { q with inBatch := true, committed := false }))
    else .next s

/-- R447, R448: the code that rejects a batch, from its BEGIN to its COMMIT; 0 where none does (DEDUCED, log 65). -/
def wholeCode (s : State) (part : Nat) (cs : List CmdPkt) : Nat :=
  if cs.tail.any (fun c => c.kind == 1) then (if (cs.headD (cmdPkt [])).clean then 2 else 1) else batchCode s part [] cs

/-- R447: CMD_COMMIT: the batch that it closes is validated and its commands may begin, one by one; the COMMIT ends it. -/
def execCmdCommit (part queue : Nat) (s : State) : Out :=
  let x := queueAt s part queue
  match cmdTurn? s part queue with
  | none => .next s
  | some c =>
    let s1 := tookTurn s part queue
    if !x.inBatch then .next (if c.kind = 2 then begun s1 part queue 1 else s)
    else if x.committed then
      .next (if c.kind = 2 then modQ (begun s1 part queue 1) part queue (fun q => { q with inBatch := false, committed := false }) else s)
    else
      let cs := (headBatch x).1
      if !(headBatch x).2 then .next s
      else match wholeCode s part cs with
        | 0 => .next (modQ (begun s1 part queue 1) part queue (fun q => { q with committed := true }))
        | code =>
          let s2 := modQ (begun s1 part queue cs.length) part queue (fun q => { q with inBatch := false, committed := false })
          .next (cs.foldl (fun s c => rejectGraph part queue s c code) s2)

/-! ## Runs (R454, R456) -/

/-- R453, R454: the nodes of a run that begins. -/
def runNodes (s : State) (part p : Nat) : List Node :=
  ((graphRows s part p).getD []).map (fun r =>
    { pred := r.pred, ahead := 0, state := .waiting, succ := r.succ, lr := launchOf (((gPlace s part r.lrec 256 1).map (fun a => uniVal s part a 256)).getD 0) })

/-- R454: CMD_GRAPH: a run begins, or one of the same key is joined. -/
def execCmdGraph (part queue : Nat) (s : State) : Out :=
  cmdStep part queue (· == 3) (fun s c k => rejectGraph part queue s c k) (fun s c =>
    if s.runs.any (fun r => r.part == part && r.queue == queue && r.seq == c.seq && !r.done) then s
    else match pick s (freeRuns s) with
      | none => s
      | some n => { s with
          fresh := s.fresh + 1, nextId := s.nextId + 1,
          runs := s.runs ++ [{ id := s.nextId, num := n, part := part, queue := queue, seq := c.seq, nodes := runNodes s part c.arg0,
                               crec := BitVec.ofNat 64 c.arg1, status := 0, faultNode := 0, rec1 := none, done := false }] }) s

/-- R378: the HBM stacks of a half that back n more granules of a replica: each granule on any stack with room (DESIGN CHOICE, log 106). -/
def backGrans (p : Part) (half stamp : Nat) : Nat → List Nat → List Nat
  | 0, back => back
  | n + 1, back =>
    let ks := (hbmOn half).filter (fun k => decide (nth back k 0 < hbmFree p k))
    match ks[Config.raceChoice stamp n % ks.length]? with
    | some k => backGrans p half stamp n (back.modify k (· + 1))
    | none => back

/-- R378: the replicas of a new region, each on a stack of the partition, at bottom and with its backing. -/
def newReplicas (s : State) (p : Part) (ty cells : Nat) : List Replica :=
  (stacksOf p).foldl (fun reps k =>
    let q := { p with regions := p.regions ++ [{ num := 0, inst := 0, ty := ty, sched := 0, cells := cells, period := 0, reps := reps, taken := 0,
                                                 completed := 0, trade := none, lastInstant := 0, dying := none }] }
    reps ++ [{ Replica.new k with back := backGrans q (halfOfStack k) (s.fresh + k) (ceilDiv (cells * cellBytes ty) 4096) (List.replicate Config.numHbm 0) }]) []

/-- A region as its record makes it, every replica at bottom (R375, R378, R458). -/
def regionOf (s : State) (p : Part) (num w tick inst : Nat) : Region :=
  { num := num, inst := inst, ty := bits w 2 0, sched := bits w 5 4, cells := bits w 71 48, period := bits w 127 96,
    reps := newReplicas s p (bits w 2 0) (bits w 71 48), taken := 0, completed := 0, trade := none, lastInstant := tick, dying := none }

/-- R458: CMD_RCREATE. -/
def execCmdRcreate (part queue : Nat) (s : State) : Out :=
  cmdStep part queue (· == 4) (fun s _ _ => s) (fun s c =>
    modP { s with nextId := s.nextId + 1, fresh := s.fresh + 8 } part (fun p => { p with regions := p.regions ++ [regionOf s p (c.arg0 % 4096) (regionRec c) s.tick s.nextId] })) s

/-- A region that waits for no grid any more destroyed (R375, R458). -/
def dropDead (s : State) (part : Nat) : State :=
  modP s part (fun p => { p with regions := p.regions.filter (fun r => !(r.dying.any (fun d => d.2.isEmpty))) })

/-- R458: CMD_RDESTROY: takes effect when every grid started before it has completed. -/
def execCmdRdestroy (part queue : Nat) (s : State) : Out :=
  cmdStep part queue (· == 5) (fun s _ _ => s) (fun s c =>
    let live := (s.grids.filter (fun g => g.part == part)).map Grid.id
    dropDead (modRegion s part (c.arg0 % 4096) (fun r => { r with dying := r.dying.or (some (queue, live)) })) part) s

/-! ## Grids (R25, R456, R459) -/

/-- Teams of a partition resident on a stack. -/
def residentTeams (s : State) (stack : Nat) : Nat :=
  (s.teams.filter (fun t => t.stack == stack && !t.ended)).length

/-- R459: n of some stacks, those with the fewest resident teams first, the lower of equals. -/
def fewestStacks (s : State) : Nat → List Nat → List Nat
  | 0, _ => []
  | n + 1, ks =>
    match ks.foldl (fun (b : Option Nat) k => match b with
        | none => some k
        | some j => if residentTeams s k < residentTeams s j then some k else some j) none with
    | none => []
    | some k => k :: fewestStacks s n (ks.filter (· != k))

/-- R25, R459: the stacks of a grid's shares, ascending. -/
def gridShares (s : State) (part : Nat) (lr : Launch) : List Nat :=
  let ks := stacksOf (partAt s part)
  let n := min (min (if lr.nstacks = 0 then ks.length else lr.nstacks) ks.length) lr.teams
  ks.filter (fun k => (fewestStacks s n ks).contains k)

/-- A grid number that no live grid of the partition has (R459). -/
def freeGrids (s : State) (part : Nat) : List Nat :=
  (List.range 256).filter (fun n => !(s.grids.any (fun g => g.part == part && g.num == n)))

/-- A node of a run changed. -/
def modNode (s : State) (run i : Nat) (f : Node → Node) : State := modRun s run (fun r => { r with nodes := r.nodes.modify i f })

/-- R44: the code lines that running grids have fetched of a code object, given up at a launch on it. -/
def dropCode (s : State) (g : Grid) : State :=
  { s with grids := s.grids.map (fun h => if h.part = g.part ∧ codeObj h = codeObj g then { h with icache := [] } else h) }

/-- R44, R456, R459: GRID_START: a node whose counter reads 0 starts as a grid; it waits while all 256 numbers are in use. -/
def execGridStart (run node : Nat) (s : State) : Out :=
  match getRun s run with
  | none => .next s
  | some r =>
    match r.nodes[node]?, pick s (freeGrids s r.part) with
    | some n, some num =>
      if r.done || n.pred != 0 || n.state != .waiting || !(partAt s r.part).enable || (partAt s r.part).faulted then .next s
      else
        let g := freshGrid s.nextId num r.part run node n.lr (gridShares s r.part n.lr)
        let s1 := dropCode s g
        .next (modNode { s1 with fresh := s.fresh + 1, nextId := s.nextId + 1, grids := s1.grids ++ [{ g with progress := s.tick }] } run node (fun n => { n with state := .started }))
    | _, _ => .next s

/-- Whether everything that a grid does has ended (R456): its last team, its engines' work, and for a killed one the kill. -/
def gridOver (s : State) (g : Grid) : Bool :=
  let quiet := s.ctxs.all (fun c => c.grid != g.id || c.state == .free)
  let placed := g.ticket == g.lr.teams && g.returned.isEmpty && decide (g.lr.teams ≤ g.endedTeams) &&
    !(s.cores.any (fun c => c.agent.claim.any (fun x => x.1 == g.id)))
  quiet && !g.killDue && (g.killed || placed)

/-- R456: nodes that depend on one of a list, round by round. -/
def skipFrom : Nat → List Node → List Nat → List Node
  | 0, ns, _ => ns
  | n + 1, ns, bad =>
    let hit := (List.range ns.length).filter (fun i => (ns[i]?).any (fun x => x.state == .waiting) && bad.any (fun j => (ns[j]?).any (fun x => x.succ.contains i)))
    if hit.isEmpty then ns else skipFrom n (ns.zipIdx.map (fun x => if hit.contains x.2 then { x.1 with state := .skipped } else x.1)) hit

/-- R456, R463: the counters of a completed node's successors count down, in list order, ahead of the GDECs that their agent executes for it (DESIGN CHOICE, log 63). -/
def countDown (ns : List Node) (l : List Nat) : List Node := l.foldl (fun ns i => ns.modify i (fun x => { x with pred := x.pred - 1, ahead := x.ahead + 1 })) ns

/-- R456, R457, R465: a run after the grid of one of its nodes has completed; a watchdog's kill gives it STATUS 3 (DEDUCED, log 70). -/
def runAfter (r : Run) (g : Grid) : Run :=
  let ok := !g.killed
  let set := r.nodes.modify g.node (fun n => { n with state := if ok then .completed else .faulted })
  let nodes := if ok then countDown set (((r.nodes[g.node]?).map Node.succ).getD []) else skipFrom set.length set [g.node]
  if ok then { r with nodes := nodes }
  else if r.nodes.any (fun n => n.state == .faulted) then { r with nodes := nodes, status := if g.status = 3 ∧ r.status ≠ 4 then 3 else r.status }
  else { r with nodes := nodes, faultNode := g.node, rec1 := g.rec1, status := if r.status = 4 then 4 else if g.status = 3 then 3 else 2 }

/-- R456: GRID_COMPLETE (DESIGN CHOICE, log 63). -/
def execGridComplete (grid : Nat) (s : State) : Out :=
  match getGrid s grid with
  | none => .next s
  | some g =>
    if !gridOver s g then .next s
    else
      let ts := (s.teams.filter (fun t => t.grid == grid)).map Team.id
      let s1 := modRun s g.run (fun r => runAfter r g)
      let s2 := modP s1 g.part (fun p => { p with regions := p.regions.map (fun r => { r with dying := r.dying.map (fun d => (d.1, d.2.filter (· != grid))) }) })
      let s3 := partEvent (dropDead s2 g.part) g.part
      .next { s3 with
        groups := s3.groups.filter (fun h => !ts.contains h.team), teams := s3.teams.filter (fun t => t.grid != grid),
        grids := s3.grids.filter (fun h => h.id != grid),
        cur := s3.cur.filter (fun i => s3.groups.any (fun h => h.id == i && !ts.contains h.team)) }

/-- R456, R457: RUN_COMPLETE: when every node has completed, faulted or been skipped; its release waits for the writes to the host of grids that are over (R426; DESIGN CHOICE, log 63). -/
def execRunComplete (run : Nat) (s : State) : Out :=
  match getRun s run with
  | none => .next s
  | some r =>
    let ended := fun (n : Node) => n.state == .completed || n.state == .faulted || n.state == .skipped
    if r.done || !r.nodes.all ended || s.hwrites.any (fun w => (getG s w.g).isNone) then .next s
    else
      let fault := r.nodes.any (fun n => n.state == .faulted)
      let bs := completionRec s r.status none (if fault then some r.faultNode else none) r.rec1
      .next (writeCompletion { partEvent s r.part with runs := s.runs.filter (fun x => x.id != run) } r.part r.queue r.crec.toNat bs)

/-! ## Firmware restart (R445, R462, R466) -/

/-- R461, R466: a claim's index goes back to its grid's returned list. -/
def returnClaim (s : State) (core : Nat) : State :=
  match (coreAt s core).agent.claim with
  | none => s
  | some (grid, idx) =>
    modCore (modGrid s grid (fun g => { g with returned := g.returned ++ [idx] })) core (fun k => { k with agent := { k.agent with claim := none } })

/-- R445, R466: FIRMWARE_RESTART: packets taken and not acknowledged go back to the heads of their queues, claims and reservations are given back (DEDUCED, log 70). -/
def execFirmwareRestart (s : State) : Out :=
  let s1 := (List.range s.cores.length).foldl (fun s k => returnClaim (dropResv s k) k) s
  .next { s1 with
    restart := true,
    parts := s1.parts.map (fun p => { p with queues := p.queues.map (fun q =>
      { q with intake := q.intake.map (fun k => { k with taken := none }), batchBy := none }) }) }

/-- R445: FIRMWARE_RESTART_END. -/
def execFirmwareRestartEnd (s : State) : Out := .next { s with restart := false }

/-! ## Watchdog (R465) -/

/-- The queue that a grid was started from. -/
def gridQueue (s : State) (g : Grid) : Queue :=
  match getRun s g.run with
  | none => Queue.reset
  | some r => queueAt s r.part r.queue

/-- Whether a limit of 1,024-tick units has run out since a tick. -/
def ranOut (s : State) (limit since : Nat) : Bool := limit != 0 && decide (since + 1024 * limit ≤ s.tick)

/-- R465: WATCHDOG_PREEMPT: every running context of the grid gets a pre-emption request, once for each progress (DEDUCED, log 70). -/
def execWatchdogPreempt (grid : Nat) (s : State) : Out :=
  match getGrid s grid with
  | none => .next s
  | some g =>
    if g.preDone == some g.progress || !ranOut s (gridQueue s g).wPre g.progress then .next s
    else .next { modGrid s grid (fun g => { g with preDone := some g.progress }) with
      ctxs := s.ctxs.map (fun c => if c.grid = grid ∧ c.state = .running then { c with haltReq := true, saveReq := true } else c) }

/-- R465: WATCHDOG_KILL. -/
def execWatchdogKill (grid : Nat) (s : State) : Out :=
  match getGrid s grid with
  | none => .next s
  | some g =>
    if g.killed || g.killDue || !ranOut s (gridQueue s g).wKill g.progress then .next s
    else .next (modGrid s grid (fun g => { g with killDue := true, status := 3, killAt := g.killAt.or (some s.tick) }))

/-- R465: WATCHDOG_FENCE: cores that still hold a context of the killed grid are fenced. -/
def execWatchdogFence (grid : Nat) (s : State) : Out :=
  match getGrid s grid with
  | none => .next s
  | some g =>
    match g.killAt with
    | none => .next s
    | some t =>
      let cores := ((s.ctxs.filter (fun c => c.grid == grid && c.state != .free)).map Ctx.core).eraseDups
      if !ranOut s (gridQueue s g).wFence t then .next s else .next (cores.foldl fenceCore s)

end Sys2Proof.Machine
end

