-- ==== Sys2Proof/Machine/Agent.lean ====
section
/-! DEFINITION. Sys2Proof/Machine/Agent.lean: the agents' instructions TCLAIM, TPLACE, GDEC, QTAKE and QACK, and loads and atomics that return (R229, R234, R460-R464). -/

namespace Sys2Proof.Machine

/-! ## Shared parts (R460) -/

/-- How an agent instruction reads A and B and writes D. -/
def agentRd (a b : Rd) : LaneSpec := ⟨a, b, .no, .val 1, 4⟩

/-- What it returns is written to the lowest effective lane (DEDUCED, log 72). -/
def agentReturn (s : State) (o : Op) (v : Nat) : State :=
  match lowLane o.eff with
  | none => s
  | some l =>
    let s1 := modGM s o.g (fun x => putDst x o.dst [(l, [BitVec.ofNat 32 v])])
    opEnd (modOp s1 o.id (fun o => { o with lanes := o.lanes.map (fun y => { y with st := .performed }) })) o.id

/-- An agent instruction put in flight: kind is taken from A and B of the lowest effective lane. -/
def agentFly (op : Nat) (f : FormR) (sp : LaneSpec) (ctr : Nat) (kind : State → Nat → Nat → OpKind) (s : State) : Out :=
  onceR s op f sp (fun s x0 c word eff =>
    let x := touchSrc x0 f sp
    let l := (lowLane eff).getD 0
    if cntOf x.g ctr == 63 then stallOut s x.g .stall
    else .next (launchPlain s (onceDone x c f sp eff) (kind s (rdBy x sp.a f.a l) (rdBy x sp.b f.b l)) ctr [valLane l []] (dstOf x.g f.d f.sn) eff word))

/-- The partition that an agent's group works for. -/
def agentPart (s : State) (gid : Nat) : Nat := ((getG s gid).map (partOf s)).getD 0
/-- The core of an agent's group. -/
def agentCore (s : State) (gid : Nat) : Nat := ((getG s gid).map (coreOf s)).getD 0

/-- A partition's live grid by its number (R459). -/
def liveGrid (s : State) (part num : Nat) : Option Grid := s.grids.find? (fun g => g.part == part && g.num == num)

/-! ## TCLAIM (R461) -/

/-- R461: TCLAIM. -/
def execTclaim (f : FormR) (s : State) : Out := agentFly 0xE0 f (agentRd (.val .z32) .no) 2 (fun _ a _ => .tclaim a) s

/-- The lowest of a grid's returned indices, for a core whose stack holds a share of it. -/
def returnedIdx (g : Grid) (core : Nat) : Option Nat := if g.shares.contains (core / Config.coresPerStack) then g.returned.min? else none

/-- R302, R461: a claim: the team index and the state after it (DEDUCED, log 67). -/
def claim (s : State) (part core num : Nat) : State × Nat :=
  let none' := 2 ^ 32 - 1
  match liveGrid s part num with
  | none => (s, none')
  | some g =>
    let hold := fun (s : State) (i : Nat) => (modCore s core (fun k => { k with agent := { k.agent with claim := some (g.id, i) } }), i)
    if (coreAt s core).agent.claim.isSome || (coreAt s core).fenced then (s, none')
    else match returnedIdx g core with
      | some i => hold (modGrid s g.id (fun g => { g with returned := g.returned.filter (· != i) })) i
      | none => if g.ticket < g.lr.teams then hold (modGrid s g.id (fun g => { g with ticket := g.ticket + 1 })) g.ticket else (s, none')

/-! ## TPLACE (R462) -/

/-- The cores of a grid's team placed by an agent of a core, by rank: its own, or its pair, the even one first. -/
def teamCores (g : Grid) (core : Nat) : List Nat := if g.lr.pair then [core / 2 * 2, core / 2 * 2 + 1] else [core]

/-- Free slots for the groups of a rank, in an order that the manual leaves open (DESIGN CHOICE, log 2). -/
def slotChoice (s : State) (core n : Nat) : Option (List SlotAt) :=
  let l := freeSlots s core
  let k := (Config.freeWord s.fresh).toNat % (l.length + 1)
  if n ≤ l.length then some ((l.drop k ++ l.take k).take n) else none

/-- Context numbers that no context of a stack has (R293). -/
def freeNums (s : State) (stack : Nat) : List Nat :=
  (List.range 1024).filter (fun n => !(s.ctxs.any (fun c => c.stack == stack && c.num == n && c.state != .free)))

/-- Context numbers that the reservations held on a stack's cores are to get (R293, R462). -/
def promised (s : State) (stack : Nat) : Nat :=
  ((coresOfStack stack).map (fun c => (((coreAt s c).agent.resv).map (fun r => r.grans.length)).getD 0)).foldl (· + ·) 0

/-- R301, R462: room for one team on its cores: granules taken, slots chosen; none where it does not fit. -/
def reserve (s : State) (g : Grid) (agent : Nat) (cores : List Nat) : Option State :=
  let need := cores.zipIdx.map (fun c => (c.1, rankGrans g.lr c.2))
  let room := need.foldl (fun (t : Option State) x => t.bind (fun t => makeRoomFor t x.1 x.2 t.nextId)) (some s)
  let slots := cores.zipIdx.foldl (fun (l : Option (List SlotAt)) c => match l, slotChoice s c.1 (rankGroups g.lr c.2).length with
    | some l, some m => some (l ++ m)
    | _, _ => none) (some [])
  match room, slots with
  | some t, some l =>
    if cores.any (fun c => (coreAt s c).fenced) || decide ((freeNums s (agent / Config.coresPerStack)).length < promised s (agent / Config.coresPerStack) + cores.length) then none
    else
      let t1 := need.foldl (fun (t : State) x => modCore t x.1 (fun k => { k with free := k.free - x.2 })) t
      some { modCore t1 agent (fun k => { k with agent := { k.agent with resv := some { grid := g.id, grans := need, slots := l } } }) with fresh := t1.fresh + 1 }
  | _, _ => none

/-- R462: TPLACE .rsv: the state after it and the status (DEDUCED, log 67). -/
def placeRsv (s : State) (part core num : Nat) : State × Nat :=
  match liveGrid s part num with
  | none => (s, 3)
  | some g =>
    if !g.shares.contains (core / Config.coresPerStack) then (s, 2)
    else if (coreAt s core).agent.resv.isSome then (s, 4)
    else match reserve s g core (teamCores g core) with
      | some t => (t, 0)
      | none => (s, 1)

/-- R81, R449: a group's scalars at its start: the argument area in s0 to s31, the data pointer in s46 and s47 (DEDUCED, log 68). -/
def startScalars (s : State) (part : Nat) (lr : Launch) : List W32 :=
  let arg := gPlace s part lr.argp.toNat 128 1
  ((List.range 32).map (fun i => BitVec.ofNat 32 ((arg.map (fun a => uniVal s part (a + 4 * i) 4)).getD 0))) ++ List.replicate 14 0 ++
    [lr.data.extractLsb' 0 32, lr.data.extractLsb' 32 32]

/-- R293: the context of a rank; its number's earlier entry gives way, its incarnation goes on. -/
def bindCtx (s : State) (g : Grid) (team idx : Nat) (core rank gran : Nat) : State :=
  let stack := core / Config.coresPerStack
  let num := (pick s (freeNums s stack)).getD 0
  let old := s.ctxs.find? (fun c => c.stack == stack && c.num == num)
  let save := g.lr.savep + BitVec.ofNat 64 (saveOffset g.lr idx rank)
  let c := { freshCtx s.nextId num g.part stack core rank team g.id (rankScratch g.lr) g.lr.l1w gran save with incarn := (old.map Ctx.incarn).getD 0 }
  { s with nextId := s.nextId + 1, fresh := s.fresh + 1, ctxs := s.ctxs.filter (fun c => c.stack != stack || c.num != num) ++ [c] }

/-- The groups of a team at their roles' entries, in their slots (R27, R462). -/
def bindGroups (s : State) (g : Grid) (team : Nat) (slots : List SlotAt) : State :=
  let scal := startScalars s g.part g.lr
  let byRank := (List.range 2).flatMap (fun r => if r = 0 ∨ g.lr.pair then (rankGroups g.lr r).map (fun x => (r, x)) else [])
  (byRank.zip slots).foldl (fun (s : State) y =>
    let x := y.1.2
    let role := x.1.2
    let ctx := ((ctxAtRank s team y.1.1).map Ctx.id).getD 0
    let h := { freshGroup s.nextId ctx team x.2 x.1.1 role.width role.frame role.depth role.feed false (some y.2) role.entry with born := s.stamp }
    { s with nextId := s.nextId + 1, groups := s.groups ++ [{ h with scal := scal, ready := s.tick }] }) s

/-- R462: TPLACE .bind: the state after it and the context number of rank 0 (DEDUCED, log 67). -/
def placeBind (s : State) (part core num idx : Nat) : State × Nat :=
  let bad := (s, 2 ^ 32 - 1)
  let a := (coreAt s core).agent
  match liveGrid s part num, a.resv, a.claim with
  | some g, some r, some (cg, ci) =>
    if r.grid != g.id || cg != g.id || ci != idx then bad
    else
      let stack := core / Config.coresPerStack
      let team := s.nextId
      let share := (g.shares.findIdx? (· == stack)).getD 0
      let s1 := { s with nextId := s.nextId + 1, teams := s.teams ++ [freshTeam team g.id idx share stack g.lr.pair] }
      let s2 := r.grans.zipIdx.foldl (fun (s : State) x => bindCtx s g team idx x.1.1 x.2 x.1.2) s1
      let s3 := modCore (bindGroups s2 g team r.slots) core (fun k => { k with agent := { k.agent with claim := none, resv := none } })
      let s4 := modGrid (fillSlices s s3 r.slots) g.id (fun g => { g with bound := g.bound + 1, progress := s.tick })
      (if g.killed then killGrid s4 g.id else s4, ((ctxAtRank s2 team 0).map Ctx.num).getD (2 ^ 32 - 1))
  | _, _, _ => bad

/-- R462: TPLACE .free. -/
def placeFree (s : State) (core : Nat) : State × Nat := if (coreAt s core).agent.resv.isSome then (dropResv s core, 0) else (s, 1)

/-- R462: TPLACE; it waits while the allocators of its cores have requests to answer. -/
def execTplace (f : FormR) (s : State) : Out :=
  let sp := agentRd (.val .z32) (.val .z32)
  onceR s 0xE1 f sp (fun s x0 c _ eff =>
    let x := touchSrc x0 f sp
    let l := (lowLane eff).getD 0
    let core := coreOf s x.g
    let part := partOf s x.g
    let num := rdOpd x f.a .z32 l
    let cores := match liveGrid s part num with
      | some g => teamCores g core
      | none => [core]
    if cores.any (fun k => !(coreAt s k).alloc.isEmpty) then stallOut s x.g .stall
    else
      let r := match f.ext.toNat % 4 with
        | 0 => placeRsv (putGM s x) part core num
        | 1 => placeBind (putGM s x) part core num (rdOpd x f.b .z32 l)
        | _ => placeFree (putGM s x) core
      .next (modGM r.1 x.g.id (fun y => onceDone (schedAll y y.g.pos 4 f 1 (oneLane l) r.2) c f sp eff)))

/-! ## GDEC (R463) -/

/-- R463: GDEC. -/
def execGdec (f : FormR) (s : State) : Out := agentFly 0xE2 f (agentRd (.val .z32) .no) 2 (fun _ a _ => .gdec (a / 2 ^ 16) (a % 2 ^ 16)) s

/-- R463: a node's counter counted down: the state after it and the new count; one for a completion that has counted already (R456) lowers nothing again (DESIGN CHOICE, log 63). -/
def decNode (s : State) (part num node : Nat) : State × Nat :=
  let none' := (s, 2 ^ 32 - 1)
  match s.runs.find? (fun r => r.part == part && r.num == num && !r.done) with
  | none => none'
  | some r => match r.nodes[node]? with
    | none => none'
    | some n =>
      if 0 < n.ahead then (modNode s r.id node (fun n => { n with ahead := n.ahead - 1 }), n.pred + n.ahead - 1)
      else if n.pred = 0 then none'
      else (modNode s r.id node (fun n => { n with pred := n.pred - 1 }), n.pred - 1)

/-! ## QTAKE and QACK (R464) -/

/-- R464: QTAKE; its buffer is 64 bytes of the team's scratchpad (R117). -/
def execQtake (f : FormR) (s : State) : Out :=
  let sp := agentRd (.val .b64) .no
  onceR s 0xE3 f sp (fun s x0 c word eff =>
    let x := touchSrc x0 f sp
    let l := (lowLane eff).getD 0
    let p := rdOpd x f.a .b64 l
    if cntOf x.g 0 == 63 then stallOut s x.g .stall
    else match (if isScratch p then checkPtr s x.g p 64 2 false else .bad) with
      | .ok (.pool k) => .next (launchPlain s (onceDone x c f sp eff) (.qtake (BitVec.ofNat 64 p)) 0
          [{ valLane l [] with loc := .pool k }] (dstOf x.g f.d f.sn) eff word)
      | _ => trapOut (putGM s x) x.g c word .capability 0 eff (BitVec.ofNat 64 p))

/-- R464: QACK. -/
def execQack (f : FormR) (s : State) : Out := agentFly 0xE4 f (agentRd (.val .z32) (.val .z32)) 2 (fun _ a b => .qack a b) s

/-- The head packet of a queue: the first that no agent has taken. -/
def headPkt (q : Queue) : Option Packet := q.intake.find? (fun p => p.taken.isNone)

/-- Whether an agent may take from a queue: it is not empty, and its head lies in no batch that another takes (DEDUCED, log 66). -/
def mayTake (core : Nat) (q : Queue) : Bool := (headPkt q).isSome && (q.batchBy.isNone || q.batchBy == some core)

/-- R464: the queue that QTAKE takes from: the one whose batch the agent is taking, else by priority and rotation. -/
def takeFrom (p : Part) (core : Nat) : Option Nat :=
  let qs := List.range 64
  let at' := fun (i : Nat) => nth p.queues i Queue.reset
  (qs.find? (fun i => (at' i).batchBy == some core && (headPkt (at' i)).isSome)).or
    (qs.find? (fun i => queueTurn p (fun j => mayTake core (at' j)) p.takeTurn i))

/-- The first packet that no agent has taken, taken. -/
def takeFirst (core : Nat) : List Packet → List Packet
  | [] => []
  | p :: ps => if p.taken.isNone then { p with taken := some core } :: ps else p :: takeFirst core ps

/-- R445, R464: a packet taken into a buffer: the state after it and D's value (DEDUCED, log 66). -/
def takePkt (s : State) (part core : Nat) (loc : Loc) : State × Nat :=
  let p := partAt s part
  match (if s.restart then none else takeFrom p core) with
  | none => (s, 2 ^ 31)
  | some q =>
    let x := nth p.queues q Queue.reset
    match headPkt x with
    | none => (s, 2 ^ 31)
    | some k =>
      let kind := (cmdPkt k.raw).kind
      let s1 := modQ (locWr s loc k.raw) part q (fun y => { y with
        intake := takeFirst core y.intake, batchBy := if kind = 1 then some core else if kind = 2 then none else y.batchBy })
      (modP s1 part (fun p => { p with takeTurn := p.takeTurn.set x.prio q }), q)

/-- An intake without a taken packet and every taken packet before it. -/
def ackDrop (core seq : Nat) (l : List Packet) : List Packet :=
  match l.findIdx? (fun p => p.taken == some core && (cmdPkt p.raw).seq == seq) with
  | none => l
  | some i => (l.take i).filter (fun p => p.taken.isNone) ++ l.drop (i + 1)

/-- R464: a packet acknowledged: the state after it and the status. -/
def ackPkt (s : State) (part core q seq : Nat) : State × Nat :=
  if (queueAt s part q).intake.any (fun p => p.taken == some core && (cmdPkt p.raw).seq == seq) && decide (q < 64) then
    (modQ s part q (fun y => { y with intake := ackDrop core seq y.intake, qcseq := seq }), 0)
  else (s, 1)

/-- R460: QTAKE_QACK_COMPLETE. -/
def execQtakeQackComplete (op : Nat) (s : State) : Out :=
  match getOp s op with
  | none => .next s
  | some o =>
    let part := agentPart s o.g
    let core := agentCore s o.g
    match o.kind, o.lanes with
    | .qtake _, x :: _ => let r := takePkt s part core x.loc; .next (agentReturn r.1 o r.2)
    | .qack q seq, _ => let r := ackPkt s part core q seq; .next (agentReturn r.1 o r.2)
    | _, _ => .next s

/-! ## Values that return (R229, R234, R460) -/

/-- Loads and presence and object queries. -/
def retKind (k : OpKind) : Bool := isLoad k || k == .pres || isQuery k

/-- R229, R230, R322: POOL_LOAD_RETURN: loads and queries return; a WATCH reaches its watch point. -/
def execPoolLoadReturn (op : Nat) (acc : LaneBytes) (s : State) : Out :=
  match getOp s op with
  | none => .next s
  | some o => .next (if o.kind = .watch then watchDone s o else performLanes retKind op acc.lanes acc.bytes s)

/-- R234, R235, R460: ATOMIC_PERFORMED: atomics and reductions, and the agents' read-modify-writes at L2. -/
def execAtomicPerformed (op : Nat) (lanes : Mask) (s : State) : Out :=
  match getOp s op with
  | none => .next s
  | some o =>
    let part := agentPart s o.g
    match o.kind with
    | .tclaim num => let r := claim s part (agentCore s o.g) num; .next (agentReturn r.1 o r.2)
    | .gdec run node => let r := decNode s part run node; .next (agentReturn r.1 o r.2)
    | _ => .next (performLanes isRmw op lanes (BitVec.allOnes 32) s)

end Sys2Proof.Machine
end

