-- ==== Sys2Proof/Machine/FloatFn.lean ====
section
/-! DEFINITION. Sys2Proof/Machine/FloatFn.lean: the approximated functions (R199-R201): the exact cases, and the free bits wherever they lie within the bound. The fixed-point sums below only measure that bound (DESIGN CHOICE, log 4). -/

namespace Sys2Proof.Machine

/-- The eight approximated functions (R199). -/
inductive Fn where
  | rcp | rsq | exp2 | log2 | sin | cos | tanh | sigm
  deriving DecidableEq, Repr

/-- A function's number in the free value (DESIGN CHOICE, log 4). -/
def fnCode : Fn → Nat
  | .rcp => 0
  | .rsq => 1
  | .exp2 => 2
  | .log2 => 3
  | .sin => 4
  | .cos => 5
  | .tanh => 6
  | .sigm => 7

/-- Fraction bits of the reference arithmetic. -/
def fxP : Nat := 160
/-- One. -/
def fxOne : Nat := 2 ^ fxP
/-- ln 2, rounded down. -/
def fxLn2 : Nat := 1013035739299659071135698605846798551586536899366
/-- pi / 2, rounded down. -/
def fxHalfPi : Nat := 2295721403524109460692402599871655564227077512209
/-- log2 e, rounded down. -/
def fxLog2e : Nat := 2108501164428393954197770173035669514763056903505
/-- Product. -/
def fxMul (a b : Nat) : Nat := (a * b) >>> fxP

/-- Horner sum of the exponential series from term n down. -/
def expSum (x : Nat) : Nat → Nat → Nat
  | 0, r => r
  | n + 1, r => expSum x n (fxOne + fxMul x r / (n + 1))
/-- 2^f for a fraction f. -/
def fxExp2 (f : Nat) : Nat := expSum (fxMul f fxLn2) 45 fxOne

/-- Horner sum of the atanh series from term n down, on z squared. -/
def atanhSum (zz : Nat) : Nat → Nat → Nat
  | 0, r => r
  | n + 1, r => atanhSum zz n (fxOne / (2 * n + 1) + fxMul zz r)
/-- log2 m for m from 1 to 2. -/
def fxLog2 (m : Nat) : Nat :=
  let z := ((m - fxOne) <<< fxP) / (m + fxOne)
  fxMul (2 * fxMul z (atanhSum (fxMul z z) 60 0)) fxLog2e

/-- Horner sum of 1 - x^2/((2n-1+o)(2n+o)) (...) from term n down. -/
def trigSum (xx o : Nat) : Nat → Nat → Nat
  | 0, r => r
  | n + 1, r => trigSum xx o n (fxOne - fxMul xx r / ((2 * n + 1 + o) * (2 * n + 2 + o)))
/-- sin x for x from 0 to pi/2. -/
def fxSin (x : Nat) : Nat := fxMul x (trigSum (fxMul x x) 1 30 fxOne)
/-- cos x for x from 0 to pi/2. -/
def fxCos (x : Nat) : Nat := trigSum (fxMul x x) 0 30 fxOne

/-- sin (2 pi f) for a fraction f of a turn: sign and magnitude. -/
def fxTurnSin (f : Nat) : Bool × Nat :=
  let q := 4 * f / fxOne % 4
  let x := fxMul (4 * f % fxOne) fxHalfPi
  (decide (2 ≤ q), if q % 2 = 0 then fxSin x else fxCos x)

/-- e^x for x = m * 2^e up to some hundreds: the scaled significand and its binary exponent. -/
def fxExp (x : Nat) : Nat × Nat :=
  let y := fxMul x fxLog2e
  (fxExp2 (y % fxOne), y / fxOne)

/-- |a| = m * 2^e as a fixed-point number. -/
def fxOf (m : Nat) (e : Int) : Nat :=
  let s : Int := e + fxP
  if 0 ≤ s then m <<< s.toNat else m >>> (-s).toNat

/-- The function value of an operand below 2^-60, on the side of 1, 1/2 or the operand on which it lies: the ones whose value comes closer to a representable number than the sums below tell apart. -/
def fnNear (fn : Fn) (s : Bool) (m : Nat) (e : Int) : Option (Bool × Nat × Int) :=
  let beside := fun (up : Bool) (x : Int) => some (false, if up then 2 ^ 200 + 1 else 2 ^ 200 - 1, x - 200)
  match fn with
  | .exp2 => beside (!s) 0
  | .cos => beside false 0
  | .sigm => beside (!s) (-1)
  | .sin => some (s, 4 * fxHalfPi * m + 1, e - fxP)
  | .tanh => some (s, 2 ^ 200 * m - 1, e - 200)
  | .rcp | .rsq | .log2 => none

/-- The exact function value, to about 2^-100 of itself and on its side of every number in a bound of R199, as (sign, m, e) with a sticky last bit; for operands that R200 does not decide. -/
def fnRef (fn : Fn) (s : Bool) (m : Nat) (e : Int) : Bool × Nat × Int :=
  match if (bitLen m : Int) + e < -60 then fnNear fn s m e else none with
  | some r => r
  | none =>
  match fn with
  | .rcp => let (q, x) := quotSticky 1 m; (s, q, x - e)
  | .rsq =>
    let h := e % 2
    let k : Nat := 140
    (false, 2 * isqrt (2 ^ (2 * k) / (m <<< h.toNat)) + 1, -(k : Int) - (e - h) / 2 - 1)
  | .exp2 =>
    if 16 < (bitLen m : Int) + e then (false, 1, if s then -5000 else 5000)
    else
      let a := fxOf m e
      let i : Int := if s then -(ceilDiv a fxOne : Nat) else (a / fxOne : Nat)
      let f := if s then (fxOne - a % fxOne) % fxOne else a % fxOne
      if f = 0 then (false, 1, i) else (false, 2 * fxExp2 f + 1, i - fxP - 1)
  | .log2 =>
    let k : Int := (bitLen m : Int) - 1 + e
    let l : Int := k * (fxOne : Int) + (fxLog2 (m <<< (fxP + 1 - bitLen m)) : Int)
    (decide (l < 0), 2 * l.natAbs + 1, -(fxP : Int) - 1)
  | .sin | .cos =>
    let a := fxOf m e % fxOne
    let a := if s then (fxOne - a) % fxOne else a
    let (n, x) := fxTurnSin (if fn = .sin then a else a + fxOne / 4)
    (n, 2 * x + 1, -(fxP : Int) - 1)
  | .tanh =>
    if (bitLen m : Int) + e < -40 then (s, 2 ^ 100 * m - 1, e - 100)
    else
      let (g, k) := fxExp (2 * fxOf m e)
      let x := g <<< k
      (s, 2 * (((x - fxOne) <<< fxP) / (x + fxOne)) + 1, -(fxP : Int) - 1)
  | .sigm =>
    if 7 < (bitLen m : Int) + e then (false, 1, -180)
    else
      let (g, k) := fxExp (fxOf m e)
      let x := g <<< k
      if s then (false, 2 * (2 ^ (2 * fxP + 200) / (x + fxOne)) + 1, -(fxP : Int) - 201)
      else (false, 2 * ((x <<< fxP) / (x + fxOne)) + 1, -(fxP : Int) - 1)

/-- |a - b| ≤ c on signed dyadics. -/
def dyWithin (a : Int) (ea : Int) (b : Int) (eb : Int) (c : Nat) (ec : Int) : Bool :=
  let e := min (min ea eb) ec
  let x := a * (2 ^ (ea - e).toNat : Nat)
  let y := b * (2 ^ (eb - e).toNat : Nat)
  decide ((x - y).natAbs ≤ c <<< (ec - e).toNat)

/-- The exponent of one ulp of a value m * 2^e in a format: below the smallest normal, where R199 does not say what it is, the step of the denormal numbers, so that 2 ulp are never below 2^-148 in F32 (DESIGN CHOICE, log 99). -/
def ulpExp (f : FF) (m : Nat) (e : Int) : Int := max ((bitLen m : Int) - 1 + e) (ffEmin f) - ffM f

/-- The bound of R199 on a result c of an F32, F16 or BF16 function. -/
def fnBoundOk (f : FF) (fn : Fn) (am : Nat) (ae : Int) (s : Bool) (rm : Nat) (re : Int) (c : Nat) : Bool :=
  match fdec f c with
  | .nan _ => false
  | .inf _ => false
  | .fin cs cm ce =>
    match f with
    | .f32 =>
      let u := ulpExp .f32 rm re
      let within := dyWithin (sgn cs cm) ce (sgn s rm) re
      match fn with
      | .rcp | .rsq => within 1 u
      | .exp2 | .tanh => within 2 u
      | .sin | .cos => within 1 (-22)
      | .log2 => if dyLe' 1 (-1) am ae && dyLe' am ae 2 0 then within 1 (-22) else within 2 u
      | .sigm => within 1 (max (u + 1) (-149))
    | .f16 | .bf16 =>
      match fdec f (froundMag f .rne false s rm re).1 with
      | .nan _ => false
      | .inf _ => false
      | .fin ks km ke => dyWithin (sgn cs cm) ce (sgn ks km) ke 1 (ulpExp f km ke)
where
  /-- a * 2^x ≤ b * 2^y. -/
  dyLe' (a : Nat) (x : Int) (b : Nat) (y : Int) : Bool :=
    let e := min x y
    decide (a <<< (x - e).toNat ≤ b <<< (y - e).toNat)

/-- The result of an operand that R200 does not decide: the free bits of the operand's own bits (R64) where they keep R199's bound, else the correctly rounded value; inexact always, overflow and underflow as R201 says: a zero underflows where the exact value is tiny (R90). -/
def fnApprox (f : FF) (fn : Fn) (ftz : Bool) (a : Nat) (s : Bool) (m : Nat) (e : Int) : Nat × Flags :=
  let (rs, rm, re) := fnRef fn s m e
  let (cr, _) := froundMag f .rne false rs rm re
  if cr % 2 ^ ffSign f = ffInf f false then (cr, fOF ||| fIX)
  else
    let c := (Config.approxBits (fnCode fn) (match f with | .f32 => 3 | .f16 => 4 | .bf16 => 5) ftz (BitVec.ofNat 32 (a % 2 ^ (ffSign f + 1)))).toNat % 2 ^ (ffSign f + 1)
    let r := if fnBoundOk f fn m e rs rm re c then c else cr
    let below := fun (x : Nat) => decide (x % 2 ^ ffSign f < 2 ^ ffM f)
    let tiny := below r && (r % 2 ^ ffSign f != 0 || below cr)
    (if tiny && ftz then ffZero f (bit r (ffSign f)) else r, (if tiny then fUF else 0) ||| fIX)

/-- Whether m is a power of two. -/
def isPow2 (m : Nat) : Bool := m != 0 && m == 2 ^ Nat.log2 m

/-- R199-R201: an approximated function of one operand. -/
def fnVal (f : FF) (fn : Fn) (ftz : Bool) (a : Nat) : Nat × Flags :=
  let one := fun s => (froundMag f .rne false s 1 0).1
  match fdecZ f ftz a with
  | .nan q => (ffNaN f, snanFlag (.nan q))
  | .inf s =>
    match fn with
    | .rcp => (ffZero f s, 0)
    | .rsq => if s then (ffNaN f, fIV) else (ffZero f false, 0)
    | .exp2 => (if s then ffZero f false else ffInf f false, 0)
    | .log2 => if s then (ffNaN f, fIV) else (ffInf f false, 0)
    | .sin | .cos => (ffNaN f, fIV)
    | .tanh => (one s, 0)
    | .sigm => (if s then ffZero f false else one false, 0)
  | .fin s m e =>
    if m = 0 then
      match fn with
      | .rcp | .rsq => (ffInf f s, fDZ)
      | .exp2 | .cos => (one false, 0)
      | .log2 => (ffInf f true, fDZ)
      | .sin | .tanh => (ffZero f s, 0)
      | .sigm => ((froundMag f .rne false false 1 (-1)).1, 0)
    else
      let gen := fun (_ : Unit) => fnApprox f fn ftz a s m e
      let k : Int := (bitLen m : Int) - 1 + e
      match fn with
      | .rcp => if isPow2 m then froundMag f .rne ftz s 1 (-k) else gen ()
      | .rsq =>
        if s then (ffNaN f, fIV)
        else if isPow2 m && k % 2 == 0 then froundMag f .rne ftz false 1 (-(k / 2)) else gen ()
      | .exp2 =>
        if k < 16 ∧ (roundAt .rz s m e 0).2 = false then
          let i := sgn s (roundAt .rz s m e 0).1
          let x := froundMag f .rne ftz false 1 i
          if x.2 = 0 ∨ 0 < i then x else gen ()
        else gen ()
      | .log2 =>
        if s then (ffNaN f, fIV)
        else if isPow2 m then ((froundMag f .rne false (decide (k < 0)) k.natAbs 0).1, 0) else gen ()
      | .sin | .cos =>
        if (roundAt .rz s m (e + 2) 0).2 then gen ()
        else
          let q := (sgn s (roundAt .rz s m (e + 2) 0).1 + (if fn = .cos then 1 else 0)) % 4
          if q = 1 then (one false, 0) else if q = 3 then (one true, 0) else (ffZero f false, 0)
      | .tanh => if fle (.fin false 9 0) (.fin false m e) then (one s, 0) else gen ()
      | .sigm => if !s && fle (.fin false 17 0) (.fin false m e) then (one false, 0) else gen ()

end Sys2Proof.Machine
end

