-- ==== Sys2Proof/Machine/FloatUnit.lean ====
section
/-! DEFINITION. Sys2Proof/Machine/FloatUnit.lean: the float unit's instructions (R179-R209). -/

namespace Sys2Proof.Machine

/-- The format of a float type's elements. -/
def tyFF (ty : Ty) : FF :=
  match ty with
  | .f16 | .f16x2 => .f16
  | .bf16 | .bf16x2 => .bf16
  | .b32 | .s32 | .z32 | .f32 | .s64 | .z64 | .b64 | .s16x2 | .z16x2 | .s8x4 | .z8x4 => .f32

/-- The format of codes 0 to 2 (R87). -/
def codeFF (c : Nat) : FF :=
  match c with
  | 1 => .f16
  | 2 => .bf16
  | _ => .f32

/-- The rounding mode of MOD (R69). -/
def mdOf (f : FormR) : RMode := rmodeOf f.mod.toNat
/-- Flush-to-zero (R90). -/
def ftzOf (f : FormR) : Bool := f.mod.getLsbD 2

/-- An operation on each element of up to three operands; the exceptions of the elements are ORed (R179). -/
def elemF (ty : Ty) (g : FF → Nat → Nat → Nat → Nat × Flags) (a b c : Nat) : Nat × Flags :=
  let (w, n) := tyElems ty
  let rs := (List.range n).map (fun k => g (tyFF ty) ((a >>> (k * w)) % 2 ^ w) ((b >>> (k * w)) % 2 ^ w) ((c >>> (k * w)) % 2 ^ w))
  (packElems w (rs.map (·.1)), rs.foldl (fun x r => x ||| r.2) 0)

/-- The latency of FDIV and FSQRT (R182). -/
def divsqLat (div : Bool) (ty : Ty) : Nat := if div then (if ty = .f32 then 28 else 18) else (if ty = .f32 then 22 else 14)

/-- R188: one rounding per element. -/
def execFadd (f : FormR) (s : State) : Out :=
  runLane s 0x30 f noDyn (fun _ => spAB f.ty 6) (fun i => outF (elemF f.ty (fun t a b _ => faddVal t (mdOf f) (ftzOf f) a b) i.a i.b 0))

/-- R188: one rounding per element. -/
def execFsub (f : FormR) (s : State) : Out :=
  runLane s 0x31 f noDyn (fun _ => spAB f.ty 6) (fun i => outF (elemF f.ty (fun t a b _ => fsubVal t (mdOf f) (ftzOf f) a b) i.a i.b 0))

/-- R188: one rounding per element. -/
def execFmul (f : FormR) (s : State) : Out :=
  runLane s 0x32 f noDyn (fun _ => spAB f.ty 6) (fun i => outF (elemF f.ty (fun t a b _ => fmulVal t (mdOf f) (ftzOf f) a b) i.a i.b 0))

/-- R189: a times b plus c with one rounding. -/
def execFfma (f : FormR) (s : State) : Out :=
  runLane s 0x33 f noDyn (fun _ => spABC f.ty 6) (fun i => outF (elemF f.ty (fun t a b c => ffmaVal t (mdOf f) (ftzOf f) (f.ext.getLsbD 0) (f.ext.getLsbD 1) a b c) i.a i.b i.c))

/-- R190: per element. -/
def execFmin (f : FormR) (s : State) : Out :=
  runLane s 0x34 f noDyn (fun _ => spAB f.ty 6) (fun i => outF (elemF f.ty (fun t a b _ => fminmaxVal t (ftzOf f) false a b) i.a i.b 0))

/-- R190: per element. -/
def execFmax (f : FormR) (s : State) : Out :=
  runLane s 0x35 f noDyn (fun _ => spAB f.ty 6) (fun i => outF (elemF f.ty (fun t a b _ => fminmaxVal t (ftzOf f) true a b) i.a i.b 0))

/-- R191: per element. -/
def execFminnum (f : FormR) (s : State) : Out :=
  runLane s 0x36 f noDyn (fun _ => spAB f.ty 6) (fun i => outF (elemF f.ty (fun t a b _ => fminmaxnumVal t (ftzOf f) false a b) i.a i.b 0))

/-- R191: per element. -/
def execFmaxnum (f : FormR) (s : State) : Out :=
  runLane s 0x37 f noDyn (fun _ => spAB f.ty 6) (fun i => outF (elemF f.ty (fun t a b _ => fminmaxnumVal t (ftzOf f) true a b) i.a i.b 0))

/-- R192: a comparison into kD. -/
def execFcmp (f : FormR) (s : State) : Out :=
  runLane s 0x38 f noDyn (fun _ => ⟨.val f.ty, .val f.ty, .no, .msk, 6⟩) (fun i => let r := fcmpVal (tyFF f.ty) (ftzOf f) (f.ext.getLsbD 5) (extN f % 8) i.a i.b; ⟨0, combine (extN f / 8 % 4) r.1 i.kd, false, r.2⟩)

/-- R193: the class word. -/
def execFclass (f : FormR) (s : State) : Out :=
  runLane s 0x39 f noDyn (fun _ => ⟨.val f.ty, .no, .no, .val 1, 6⟩) (fun i => outV (fclassVal (tyFF f.ty) (ftzOf f) i.a))

/-- R194: to an integral value. -/
def execFrnd (f : FormR) (s : State) : Out :=
  runLane s 0x3A f noDyn (fun _ => spA f.ty 6) (fun i => outF (elemF f.ty (fun t a _ _ => frndVal t (mdOf f) (ftzOf f) (f.ext.getLsbD 0) a) i.a 0 0))

/-- R195: the fraction. -/
def execFfrac (f : FormR) (s : State) : Out :=
  runLane s 0x3B f noDyn (fun _ => spA f.ty 6) (fun i => outF (elemF f.ty (fun t a _ _ => ffracVal t (ftzOf f) a) i.a 0 0))

/-- R196: times a power of two. -/
def execFscale (f : FormR) (s : State) : Out :=
  runLane s 0x3C f noDyn (fun _ => ⟨.val f.ty, .val .s32, .no, .val 1, 6⟩) (fun i => outF (fscaleVal (tyFF f.ty) (mdOf f) (ftzOf f) i.a i.b))

/-- R197: the exponent. -/
def execFgetexp (f : FormR) (s : State) : Out :=
  runLane s 0x3D f noDyn (fun _ => spA f.ty 6) (fun i => outF (fgetexpVal (tyFF f.ty) (ftzOf f) i.a))

/-- R199-R201: approximated. -/
def execFrcp (f : FormR) (s : State) : Out :=
  runLane s 0x3E f noDyn (fun _ => spA f.ty 14) (fun i => outF (fnVal (tyFF f.ty) .rcp (ftzOf f) i.a))

/-- R199-R201: approximated. -/
def execFrsq (f : FormR) (s : State) : Out :=
  runLane s 0x3F f noDyn (fun _ => spA f.ty 14) (fun i => outF (fnVal (tyFF f.ty) .rsq (ftzOf f) i.a))

/-- R199-R201: approximated. -/
def execFexp2 (f : FormR) (s : State) : Out :=
  runLane s 0x42 f noDyn (fun _ => spA f.ty 14) (fun i => outF (fnVal (tyFF f.ty) .exp2 (ftzOf f) i.a))

/-- R199-R201: approximated. -/
def execFlog2 (f : FormR) (s : State) : Out :=
  runLane s 0x43 f noDyn (fun _ => spA f.ty 14) (fun i => outF (fnVal (tyFF f.ty) .log2 (ftzOf f) i.a))

/-- R199-R201: approximated. -/
def execFsin (f : FormR) (s : State) : Out :=
  runLane s 0x44 f noDyn (fun _ => spA f.ty 14) (fun i => outF (fnVal (tyFF f.ty) .sin (ftzOf f) i.a))

/-- R199-R201: approximated. -/
def execFcos (f : FormR) (s : State) : Out :=
  runLane s 0x45 f noDyn (fun _ => spA f.ty 14) (fun i => outF (fnVal (tyFF f.ty) .cos (ftzOf f) i.a))

/-- R199-R201: approximated. -/
def execFtanh (f : FormR) (s : State) : Out :=
  runLane s 0x46 f noDyn (fun _ => spA f.ty 14) (fun i => outF (fnVal (tyFF f.ty) .tanh (ftzOf f) i.a))

/-- R199-R201: approximated. -/
def execFsigm (f : FormR) (s : State) : Out :=
  runLane s 0x47 f noDyn (fun _ => spA f.ty 14) (fun i => outF (fnVal (tyFF f.ty) .sigm (ftzOf f) i.a))

/-- R198: correctly rounded. -/
def execFsqrt (f : FormR) (s : State) : Out :=
  runLane s 0x40 f noDyn (fun _ => spA f.ty (divsqLat false f.ty)) (fun i => outF (fsqrtVal (tyFF f.ty) (mdOf f) (ftzOf f) i.a))

/-- R198: correctly rounded. -/
def execFdiv (f : FormR) (s : State) : Out :=
  runLane s 0x41 f noDyn (fun _ => spAB f.ty (divsqLat true f.ty)) (fun i => outF (fdivVal (tyFF f.ty) (mdOf f) (ftzOf f) i.a i.b))

/-- R202, R203: a conversion, or a sign operation when EXT[6:5] is not 0. -/
def execCvtf (f : FormR) (s : State) : Out :=
  let op := extN f / 32
  runLane s 0x48 f noDyn (fun _ => ⟨.val f.ty, if op = 3 then .val f.ty else .no, .no, .val 1, 6⟩) (fun i =>
    if op = 0 then outF (cvtfVal (tyFF f.ty) (codeFF (extN f % 32)) (mdOf f) (ftzOf f) i.a)
    else outV (signopVal (tyFF f.ty) op i.a i.b))

/-- R86, R204: integer to float. -/
def execCvti (f : FormR) (s : State) : Out :=
  runLane s 0x49 f noDyn (fun _ => ⟨.val f.ty, .no, .no, .val 1, 6⟩) (fun i => outF (cvtiVal f.ty (codeFF (extN f)) (mdOf f) i.a))

/-- The type whose constants a format code's operand takes. -/
def ffTy (c : Nat) : Ty :=
  match c with
  | 1 => .f16
  | 2 => .bf16
  | _ => .f32

/-- R86, R204: float to integer. -/
def execCvtfi (f : FormR) (s : State) : Out :=
  runLane s 0x4A f noDyn (fun _ => ⟨.val (ffTy (extN f)), .no, .no, .val (tyN f.ty), 6⟩) (fun i => outF (cvtfiVal (codeFF (extN f)) f.ty (mdOf f) (ftzOf f) i.a))

/-- R205: one value converted to a narrow or half format. -/
def packCode (f : FormR) (a : Nat) : Nat × Flags :=
  let v := fdecZ (tyFF f.ty) (ftzOf f) a
  match fmOf (extN f % 32) with
  | some (.ff g) =>
    let r := fround g (mdOf f) (ftzOf f) v
    (r.1, r.2 ||| snanFlag v)
  | some m => fmEnc m v
  | none => (0, 0)

/-- R205: C with n bits from bit lo replaced. -/
def setBits (c lo n x : Nat) : Nat := c % 2 ^ lo + (x % 2 ^ n) * 2 ^ lo + (c / 2 ^ (lo + n)) * 2 ^ (lo + n)

/-- R205: FPACK. -/
def fpackVal (f : FormR) (a b c : Nat) : Nat × Flags :=
  let (x, fx) := packCode f a
  let (y, fy) := packCode f b
  let p := extN f / 32
  let d := match extN f % 32 with
    | 1 | 2 => x + 65536 * y
    | 3 | 4 | 8 => setBits (setBits c (16 * p) 8 x) (16 * p + 8) 8 y
    | _ => setBits c (8 * p) 8 (16 * (y % 16) + x % 16)
  (d, fx ||| fy)

/-- R205: two codes placed in D. -/
def execFpack (f : FormR) (s : State) : Out :=
  runLane s 0x4B f noDyn (fun _ => ⟨.val f.ty, .val f.ty, .val .b32, .val 1, 6⟩) (fun i => outF (fpackVal f i.a i.b i.c))

/-- R206: FUNPACK. -/
def funpackVal (f : FormR) (a : Nat) : Nat × Flags :=
  match fmOf (extN f % 32) with
  | none => (0, 0)
  | some m =>
    let w := fmBits m
    let c := (a >>> (extN f / 32 * w)) % 2 ^ w
    if f.ty = .s32 then (wrap (sext c w) 32, 0)
    else
      let v := match m with
        | .ff g => fdecZ g (ftzOf f) c
        | .nf e n => fmDec (.nf e n) c
        | .int n => fmDec (.int n) c
        | .q n => fmDec (.q n) c
      let r := fround (tyFF f.ty) (mdOf f) (ftzOf f) v
      (r.1, r.2 ||| snanFlag v)

/-- R206: one packed element decoded. -/
def execFunpack (f : FormR) (s : State) : Out :=
  runLane s 0x4C f noDyn (fun _ => ⟨.val .b32, .no, .no, .val 1, 6⟩) (fun i => outF (funpackVal f i.a))

/-- The lanes of a QNT block (R207). -/
def qntLen (f : FormR) : Nat := blkLen (descBlk (extN f))

/-- R207: QNT: each segment's effective lanes encoded as one block; D gets the code and D + 1 the scale. -/
def execQnt (f : FormR) (s : State) : Out :=
  runCross s 0x4D f (fun g => decide (g.width < qntLen f)) (fun g => ⟨.val f.ty, .no, .no, .val 2, 10 + wideLat g.width⟩)
    (fun w rd eff => (segLanes (qntLen f) w eff).flatMap (fun ls =>
      let r := encBlock (extN f) (ls.map (fun l => fdecZ (tyFF f.ty) (ftzOf f) (rd l).a))
      ls.zip (r.2.1.map (fun e => outF (e.1 + 2 ^ 32 * r.1, e.2 ||| r.2.2)))))

/-- R208: DQNT: a code and its scale byte decoded. -/
def dqntVal (f : FormR) (a b : Nat) : Nat × Flags :=
  let v := descDec (extN f) a (b % 256)
  let sn := if extN f % 32 = 3 then snanFlag (fmDec (.nf 5 2) (a % 256)) else 0
  let r := fround (tyFF f.ty) (mdOf f) (ftzOf f) v
  (r.1, r.2 ||| sn)

/-- R208: a code and its scale byte decoded. -/
def execDqnt (f : FormR) (s : State) : Out :=
  runLane s 0x4E f noDyn (fun _ => ⟨.val .b32, .val .b32, .no, .val 1, 6⟩) (fun i => outF (dqntVal f i.a i.b))

/-- R209: the element pairs of a dot product. -/
def dotPairs (m : Fm) (ftz : Bool) (n a b : Nat) : List (FVal × FVal) :=
  let dec := fun x => match m with
    | .ff g => fdecZ g ftz x
    | .nf e k => fmDec (.nf e k) x
    | .int k => fmDec (.int k) x
    | .q k => fmDec (.q k) x
  ((elems (fmBits m) n a).map dec).zip ((elems (fmBits m) n b).map dec)

/-- R113, R209: a dot product with its F32 addend; a signalling element raises invalid. -/
def dotVal3 (f : FormR) (m : Fm) (n a b c : Nat) : Nat × Flags :=
  fdotVal (mdOf f) (ftzOf f) (dotPairs m (ftzOf f) n a b) (fdecZ .f32 (ftzOf f) c)

/-- R209: two half-precision products (DEDUCED, log 78). -/
def execFdot2 (f : FormR) (s : State) : Out :=
  runLane s 0x4F f noDyn (fun _ => ⟨.val f.ty, .val f.ty, .val .f32, .val 1, 7⟩) (fun i => outF (dotVal3 f (.ff (tyFF f.ty)) 2 i.a i.b i.c))

/-- R209: four 8-bit products (DEDUCED, log 78). -/
def execFdot4 (f : FormR) (s : State) : Out :=
  runLane s 0x50 f noDyn (fun _ => ⟨.val .b32, .val .b32, .val .f32, .val 1, 7⟩) (fun i => outF (dotVal3 f ((fmOf (extN f)).getD (.int 8)) 4 i.a i.b i.c))

/-- R209: eight 4-bit products (DEDUCED, log 78). -/
def execFdot8 (f : FormR) (s : State) : Out :=
  runLane s 0x51 f noDyn (fun _ => ⟨.val .b32, .val .b32, .val .f32, .val 1, 7⟩) (fun i => outF (dotVal3 f ((fmOf (extN f)).getD (.int 4)) 8 i.a i.b i.c))

end Sys2Proof.Machine
end

