-- ==== Sys2Proof/Machine/Power.lean ====
section
/-! DEFINITION. Sys2Proof/Machine/Power.lean: the power arbiter: grants, ceilings, clocks, %THROTTLE, squalls and re-execution, PWRQ and PWRARM (R467-R480). -/

namespace Sys2Proof.Machine

/-! ## Grants (R471) -/

/-- A partition's grant in the making: its draw at full speed, its least power, the grant and its cause. -/
structure GrantRow where
  part : Nat
  d : Nat
  m : Nat
  g : Nat
  cause : Nat
  deriving DecidableEq, Repr

/-- The power that stacks would draw at an operating point. -/
def drawAt (env : PowerEnv) (ks : List Nat) (i : Nat) : Nat := (ks.map (fun k => nth (nth env.power k []) i 0)).foldl (· + ·) 0

/-- R471: d(p), m(p), g(p) and the cause before any cut. -/
def grantRow (s : State) (env : PowerEnv) (part : Nat) : GrantRow :=
  let p := partAt s part
  let d := drawAt env (stacksOf p) 0
  { part := part, d := d, m := drawAt env (stacksOf p) 8, g := if p.cap = 0 then d else min d p.cap, cause := if p.cap ≠ 0 ∧ p.cap < d then 1 else 0 }

/-- R471: one partition cut down towards a limit. -/
def cutRow (cause lim : Nat) (st : Int × List GrantRow) (part : Nat) (low : GrantRow → Nat) : Int × List GrantRow :=
  match st.2.find? (fun r => r.part == part) with
  | none => st
  | some r =>
    let cut := min st.1.toNat (r.g - max lim (low r))
    if cut = 0 then st
    else (st.1 - cut, st.2.map (fun x => if x.part = part then { x with g := x.g - cut, cause := cause } else x))

/-- Enabled partitions in ascending SHED, ties by number (R471). -/
def shedOrder (s : State) : List Nat :=
  (List.range 8).flatMap (fun r => (List.range Config.numParts).filter (fun p => (partAt s p).enable && (partAt s p).shed == r))

/-- R471: the module's sustained limit under the cap last acted on. -/
def moduleLimit (s : State) : Nat :=
  match s.fcapActed with
  | some (_, w) => if w = 0 then 3200 else min w 3200
  | none => 3200

/-- R471: the grants of an interval, and what is left over the limit. -/
def grantsOf (s : State) (env : PowerEnv) : Int × List GrantRow :=
  let rows := ((List.range Config.numParts).filter (fun p => (partAt s p).enable)).map (grantRow s env)
  let lim := moduleLimit s
  let cause := if lim < 3200 then 2 else 3
  let excess : Int := (env.base : Int) + ((rows.map GrantRow.g).foldl (· + ·) 0 : Nat) - lim
  let pass1 := (shedOrder s).foldl (fun st p => cutRow cause (partAt s p).floor st p GrantRow.m) (excess, rows)
  (shedOrder s).foldl (fun st p => cutRow cause 0 st p GrantRow.m) pass1

/-- R472: the rank that a sweep applies in this interval: the lowest held from where it stands. -/
def sweepRank (s : State) : Option Nat :=
  s.sweep.bind (fun k => (((shedOrder s).map (fun p => (partAt s p).shed)).filter (fun r => decide (k ≤ r))).min?)

/-- R472: a partition whose rank the sweep has not reached keeps its grant, or gets a higher one; its own cap binds at once. -/
def sweptRow (s : State) (r : GrantRow) : GrantRow :=
  let p := partAt s r.part
  match sweepRank s with
  | none => r
  | some k =>
    if p.shed ≤ k || decide (p.watts ≤ r.g) then r
    else if p.cap ≠ 0 ∧ p.cap < p.watts then { r with g := max r.g p.cap, cause := 1 }
    else { r with g := p.watts, cause := p.gcause }

/-- R472: the sweep after an interval. -/
def sweepNext (s : State) : Option Nat :=
  match sweepRank s with
  | none => none
  | some k => if (shedOrder s).any (fun p => decide (k < (partAt s p).shed)) then some (k + 1) else none

/-! ## Stacks (R471, R473, R474) -/

/-- R473: the highest operating point at which a stack's power fits its share of a grant. -/
def fitPoint (env : PowerEnv) (k g d : Nat) : Nat :=
  let pw := nth env.power k []
  ((List.range 9).find? (fun i => decide (nth pw i 0 * d ≤ g * nth pw 0 0))).getD 8

/-- R471: a stack's ceiling: the steps by which its limits lower it, each counted by itself (DEDUCED, log 71). -/
def ceilOf (sp : StackPower) : Nat := min 8 (sp.heat + sp.amp)

/-- R471: the limit that binds where the ceiling does: the one that gives the lower operating point, the thermal one of equals. -/
def limitOf (sp : StackPower) : Nat := if sp.amp ≤ sp.heat then 4 else 5

/-- R471: a stack's limits after an interval: each falls and rises by its own rule, and nothing rises above 100 °C; a rail whose first fall came within the interval falls no further at it (DEDUCED, log 71). -/
def ceilNext (sp : StackPower) (temp rail : Nat) : StackPower :=
  let low := decide (ceilOf sp < 8)
  let heat := if 105 ≤ temp then sp.heat + b2n low else if temp ≤ 100 then sp.heat - 1 else sp.heat
  let room := decide (heat + sp.amp < 8)
  let amp := if rail = 2 then sp.amp + b2n (room && sp.railHit != 1) else if rail = 0 ∧ temp ≤ 100 then sp.amp - 1 else sp.amp
  { sp with heat := heat, amp := amp, railHit := if rail = 2 then 2 else if rail = 0 then 0 else min 2 (2 * sp.railHit) }

/-- R471, R474: a stack's operating point for the interval, from the point that its share of a grant allows and the cause of that grant (DEDUCED, log 71). -/
def stackNext (env : PowerEnv) (k fit cause : Nat) (sp : StackPower) : StackPower :=
  let sp := ceilNext sp (nth env.temp k 0) (nth env.rail k 0)
  let want := max fit (ceilOf sp)
  { sp with target := if sp.target ≤ want then want else sp.target - 1,
            cause := if want = 0 then sp.cause else if fit ≤ ceilOf sp then limitOf sp else cause }

/-- A stack's power record changed. -/
def modStack (s : State) (k : Nat) (f : StackPower → StackPower) : State := { s with stackPower := s.stackPower.modify k f }

/-- R471: the operating points of every stack: of an enabled partition by its grant, of another by its ceiling. -/
def stacksNext (env : PowerEnv) (rows : List GrantRow) (s : State) : State :=
  (List.range Config.numStacks).foldl (fun s k =>
    match rows.find? (fun r => (partAt s r.part).stackBits.getLsbD k) with
    | some r => modStack s k (stackNext env k (fitPoint env k r.g r.d) r.cause)
    | none => modStack s k (stackNext env k 0 0)) s

/-- R473, R474: the ratios set for the slices of every core: a fall is to the value aimed at, a rise by one eighth. -/
def slicesNext (s : State) : State :=
  { s with cores := s.cores.zipIdx.map (fun c => { c.1 with slices := c.1.slices.zipIdx.map (fun x =>
      { x.1 with set := min (aimRatio s c.2 x.2) (x.1.ratio + 1) }) }) }

/-- R471, R472, R474: CONTROL_INTERVAL: grants, ceilings, operating points, causes, the ratios of the slices. -/
def execControlInterval (env : PowerEnv) (s : State) : Out :=
  if s.tick < 20000 * (s.interval + 1) then .next s
  else
    let gs := grantsOf s env
    let rows := gs.2.map (sweptRow s)
    let next := sweepNext s
    let s1 := { s with interval := s.interval + 1, sweep := next, fcapBusy := s.fcapBusy && next.isSome,
                       overcap := s.overcap + (if 0 < gs.1 then 1 else 0), cores := s.cores.map (fun c => { c with capped := false }) }
    let s2 := rows.foldl (fun (s : State) r =>
      modP s r.part (fun p => { p with watts := r.g, gcause := r.cause, ppwr := nth env.mean r.part 0 % 65536 })) s1
    let s3 := throttleAll (slicesNext (stacksNext env rows s2))
    .next { s3 with parts := s3.parts.map (fun p => { p with thrSeen := p.thr }) }

/-- R468, R472: FCAP_WRITE: a cap with a SEQ not yet acted on starts a sweep (DEDUCED, log 71). -/
def execFcapWrite (val : W64) (s : State) : Out :=
  let seq := (val.extractLsb' 32 16).toNat
  let w := (val.extractLsb' 0 16).toNat
  let s1 := { s with fcapWatts := w, fcapSeq := seq }
  .next (if s.fcapActed.map (·.1) = some seq then s1 else { s1 with fcapActed := some (seq, w), fcapBusy := true, sweep := some 0 })

/-- R471, R474: CURRENT_RATING_REACHED: the first fall of an episode takes effect before the interval's end. -/
def execCurrentRatingReached (stack : Nat) (s : State) : Out :=
  let s1 := modStack s stack (fun sp =>
    if sp.railHit ≠ 0 then sp
    else
      let sp1 := { sp with amp := sp.amp + b2n (decide (ceilOf sp < 8)), railHit := 1 }
      { sp1 with target := max sp.target (ceilOf sp1), cause := if sp.target ≤ ceilOf sp1 then limitOf sp1 else sp.cause })
  .next { s1 with cores := s1.cores.zipIdx.map (fun c =>
    if (coresOfStack stack).contains c.2 then { c.1 with slices := c.1.slices.zipIdx.map (fun x => { x.1 with set := min (aimRatio s1 c.2 x.2) x.1.set }) } else c.1) }

/-- R473, R474: RATIO_CHANGE: what is set for a stack's slices and clock takes effect; a changed clock has the timer's copies resynchronised (R276). -/
def execRatioChange (stack : Nat) (s : State) : Out :=
  let t := (nth s.stackPower stack StackPower.reset).target
  let set := fun c : Core => { c with
    resync := c.resync || c.clk != pointClock t, clk := pointClock t, slices := c.slices.map (fun sl => { sl with ratio := sl.set }) }
  .next (throttleAll ((coresOfStack stack).foldl (fun s c => modCore s c set) (modStack s stack (fun sp => { sp with point := t }))))

/-! ## Squalls (R476, R477) -/

/-- Whether a group of a core issues: one that runs and is not parked (R476). -/
def coreIssues (s : State) (core : Nat) : Bool :=
  s.groups.any (fun g => coreOf s g == core && g.slot.isSome && !g.ended && !g.halted && g.cur.isSome && g.park == .none && g.phase != .asleep)

/-- Whether a squall makes a group's last clause suspect: a compute clause in progress, or one that has ended, of which some pass may have issued in the 32 cycles before (DESIGN CHOICE, log 73). -/
def squallHits (s : State) (g : Group) : Bool :=
  match g.phase with
  | .inClause c => c.cls == 0
  | .boundary _ _ | .header => g.cls == 0 && Config.raceChoice s.fresh g.id % 2 == 1
  | .asleep => false

/-- R476: SQUALL: counted; unless the core is in a veer's pause or issues nothing, its clocks stretch, and the compute clauses and matrix steps that fall within its window are suspect (DESIGN CHOICE, log 73). -/
def execSquall (core : Nat) (s : State) : Out :=
  let s1 := { s with sqcnt := s.sqcnt + 1 }
  if (coreAt s core).paused || !coreIssues s core then .next s1
  else
    let s2 := modCore s1 core (fun c => { c with squall := true, resync := true })
    .next { s2 with
      fresh := s2.fresh + 1
      groups := s2.groups.map (fun g => if coreOf s g == core && g.slot.isSome && !g.ended && squallHits s g then { g with suspect := true, suspects := max 1 g.suspects } else g)
      mcmds := s2.mcmds.map (fun c => if coreOfCtx s c.ctx == core && c.kind == .mma && decide (0 < c.step) && Config.raceChoice s.fresh c.id % 2 == 1 then
        { c with suspect := true } else c) }

/-- R476: SQUALL_STRETCH_END. -/
def execSquallStretchEnd (core : Nat) (s : State) : Out := .next (modCore s core (fun c => { c with squall := false }))

/-- R477: the slices of a core held at 4/8 at most until the next control interval, with cause 5. -/
def capCore (s : State) (core : Nat) : State :=
  throttleAll (modCore s core (fun c => { c with capped := true, slices := c.slices.map (fun sl => { sl with ratio := min sl.ratio 4, set := min sl.set 4 }) }))

/-- R477: CLAUSE_REEXECUTE: the clause's outcome is that of a single execution, which the model has made, also where a residue check has failed; one executed within the window is suspect again, and the second in a row caps its core's slices. It comes once the clause has issued, or stands at its trap (DESIGN CHOICE, log 73). -/
def execClauseReexecute (gid : Nat) (s : State) : Out :=
  match getG s gid with
  | none => .next s
  | some g =>
    let core := coreOf s g
    if !g.suspect || (inClauseNow g && g.trapDue.isNone) then .next s
    else if (coreAt s core).squall then
      let s1 := modG s gid (fun g => { g with suspects := g.suspects + 1 })
      .next (if 1 ≤ g.suspects then capCore s1 core else s1)
    else .next (modG s gid (fun g => { g with suspect := false, suspects := 0 }))

/-! ## PWRQ and PWRARM (R478-R480) -/

/-- R481: the veer period P' in ticks. -/
def veerTicks (s : State) : Nat := 1000 * s.vperiod

/-- R481: ticks from a time to a stack's next veer instant; with veers disabled there is none. -/
def untilVeer (s : State) (stack t : Nat) : Nat :=
  let p := veerTicks s
  if p = 0 then 2 ^ 32 - 1
  else
    let off := stack * (p / 8)
    let r := (t + p - off % p) % p
    min (2 ^ 32 - 1) (if r = 0 then p else p - r)

/-- R479: what PWRQ reads. -/
def pwrqVal (s : State) (g : Group) (field : Nat) : Nat :=
  let p := partAt s (partOf s g)
  match field with
  | 0 => throttleReg p.thrSeen
  | 1 => effRatio s (coreOf s g) ((g.slot.map SlotAt.slice).getD 0)
  | 2 => match effClock s (coreOf s g) with
    | 0 => 1400
    | 1 => 1050
    | _ => 700
  | 3 => p.watts
  | 4 => p.ppwr
  | _ => untilVeer s (stackOf s g) (timeRead s g)

/-- How PWRQ writes D (DEDUCED, log 72). -/
def pwrqSpec : LaneSpec := ⟨.no, .no, .no, .val 1, 4⟩

/-- R479: PWRQ. -/
def execPwrq (f : FormR) (s : State) : Out :=
  onceR s 0xD8 f pwrqSpec (fun s x c _ eff =>
    .next (putGM s (onceDone (schedAll x x.g.pos 4 f 1 eff (pwrqVal s x.g (f.ext.toNat % 8))) c f pwrqSpec eff)))

/-- R480: PWRARM; arming records the ACTIVE bit that the team saw last. -/
def execPwrarm (f : FormR) (s : State) : Out :=
  onceR s 0xD9 f noSpec (fun s x c _ eff =>
    let on := f.ext.getLsbD 0
    let y := onceDone x c f noSpec eff
    let s1 := putGM s { y with g := { y.g with armed := on } }
    .next (if on then modT s1 x.g.team (fun t => { t with lastSeen := (partAt s (partOf s x.g)).thr.active }) else s1))

end Sys2Proof.Machine
end

