-- ==== Sys2Proof/Machine/Veer.lean ====
section
/-! DEFINITION. Sys2Proof/Machine/Veer.lean: the veer controller and VEERHOLD (R36, R481-R486). -/

namespace Sys2Proof.Machine

/-! ## Units (R482) -/

/-- The contexts whose pool images stand on a core, the agent's apart. -/
def carried (s : State) (core : Nat) : List Ctx := s.ctxs.filter (fun c => c.core == core && c.state != .free && !agentCtx s c.id)

/-- Whether a core holds a context of a paired team. -/
def holdsPaired (s : State) (core : Nat) : Bool := (carried s core).any (fun c => ((getT s c.team).map Team.paired).getD false)

/-- R482: whether a unit is eligible. -/
def unitOk (s : State) (unit : List Nat) : Bool :=
  unit.all (fun c => !(coreAt s c).fenced && !((carried s c).any (fun x => x.state == .killing || x.imaging)))

/-- The pair of a core, the even one first. -/
def pairOf (core : Nat) : List Nat := [core / 2 * 2, core / 2 * 2 + 1]

/-- R482: the unit of a hot core. -/
def hotUnit (s : State) (core : Nat) : List Nat := if holdsPaired s core then pairOf core else [core]

/-- Twice the mean heat of a unit, from the heats of its stack's cores (DEDUCED, log 74). -/
def unitHeat (heats : List Nat) (unit : List Nat) : Nat :=
  let h := fun (c : Nat) => nth heats (c % Config.coresPerStack) 0
  match unit with
  | [a, b] => h a + h b
  | [a] => 2 * h a
  | _ => 0

/-- The first of some units that no other beats. -/
def firstBest (better : List Nat → List Nat → Bool) (us : List (List Nat)) : Option (List Nat) :=
  us.foldl (fun (b : Option (List Nat)) u => match b with
    | none => some u
    | some v => if better u v then some u else some v) none

/-- R482: the hot unit: that of the hottest eligible core with a context, the lowest of equals (DEDUCED, log 74). -/
def chooseHot (s : State) (stack : Nat) (heats : List Nat) : Option (List Nat) :=
  let cs := (coresOfStack stack).filter (fun c => !(carried s c).isEmpty && unitOk s [c] && unitOk s (hotUnit s c))
  (firstBest (fun u v => decide (unitHeat heats v < unitHeat heats u)) (cs.map (fun c => [c]))).bind (fun u => u.head?.map (hotUnit s))

/-- R482: the lee unit for a hot unit (DEDUCED, log 74). -/
def chooseLee (s : State) (stack : Nat) (heats : List Nat) (hot : List Nat) : Option (List Nat) :=
  let cs := coresOfStack stack
  let us := if hot.length = 2 then (cs.filter (fun c => c % 2 == 0)).map pairOf else (cs.filter (fun c => !holdsPaired s c)).map (fun c => [c])
  firstBest (fun u v => decide (unitHeat heats u < unitHeat heats v)) (us.filter (unitOk s))

/-- R481: the last veer instant of a stack that has come. -/
def lastInstant (s : State) (stack : Nat) : Nat :=
  let p := veerTicks s
  let off := stack * (p / 8)
  s.tick - (s.tick + p - off % p) % p

/-- R483: whether a team hold on the units has not expired. -/
def heldBack (s : State) (units : List Nat) : Bool :=
  units.any (fun c => (carried s c).any (fun x => ((getT s x.team).map (fun t => decide (s.tick < t.holdEnd))).getD false))

/-- R482, R483: VEER_INSTANT: a stack chooses its units, or has a lull; a hold on them defers the veer. -/
def execVeerInstant (stack : Nat) (heats : List Nat) (s : State) : Out :=
  let t := lastInstant s stack
  if s.vperiod = 0 || decide (t ≤ nth s.veerAt stack 0) || (nth s.veers stack none).isSome then .next s
  else
    let s1 := { s with veerAt := s.veerAt.set stack t }
    match chooseHot s stack heats with
    | none => .next s1
    | some hot => match chooseLee s stack heats hot with
      | none => .next s1
      | some lee =>
        let diff := unitHeat heats hot - unitHeat heats lee + (unitHeat heats lee - unitHeat heats hot)
        if hot = lee || decide (diff < 2 * s.mindiff) then .next s1
        else .next { s1 with veers := s1.veers.set stack (some { instant := t, hot := hot, lee := lee, stage := if heldBack s (hot ++ lee) then .deferred else .stopping }) }

/-! ## The veer (R483, R484) -/

/-- R483: a group stopped at its switch point: its writes land, its set is written back and released, a .stall grow's wait ends (R245), its watch is triggered with reason 2 (R322). -/
def veerStop (s : State) (g : Group) : State :=
  let s := modGM s g.id (fun x =>
    let x := ocRelease (landAll x)
    let watch := x.g.watch.map (fun w => { w with trig := w.trig.or (some 2) })
    { x with g := { x.g with halted := true, watch := watch, park := match x.g.park with
        | .growWait _ => .none
        | p => p } })
  dropWaiter (allocDrop s g.id (coreOf s g)) g

/-- Whether a group keeps its unit from pausing. -/
def keepsGoing (g : Group) : Bool := g.slot.isSome && !g.ended && !g.halted

/-- Whether a group's context is HALTING. -/
def isHalting (s : State) (g : Group) : Bool := (ctxOf s g).any (fun c => c.state == .halting)

/-- R61, R483: whether a group stands at a switch point: as for a halt, but that a switch marker's wait must be over. -/
def atSwitch (g : Group) : Bool := mayHalt g && (g.park != .sw || cntZero g)

/-- R483 steps 1 and 2: the groups of some cores that stand at switch points stop; those of a HALTING context halt first (R306). -/
def stopUnits (s : State) (units : List Nat) : State :=
  (s.groups.filter (fun g => units.contains (coreOf s g) && keepsGoing g && atSwitch g && !isHalting s g)).foldl veerStop s

/-- R483, R484: whether every group of some cores has stopped. -/
def allStopped (s : State) (units : List Nat) : Bool := !s.groups.any (fun g => units.contains (coreOf s g) && keepsGoing g)

/-- R344, R483: whether lines that the streamers of some cores have read can still land. -/
def linesLand (s : State) (units : List Nat) : Bool :=
  s.reqs.any (fun r => r.bs.isNone && units.contains (reqCore s r) && r.lines.any (landFree s r))

/-- A veer's stage, or none where it is over. -/
def setVeer (s : State) (stack : Nat) (v : Option Veer) : State := { s with veers := s.veers.set stack v }

/-- R484: the pause of some cores begins: they run at full speed (R473). -/
def pauseUnits (s : State) (units : List Nat) : State := throttleAll (units.foldl (fun s c => modCore s c (fun k => { k with paused := true })) s)

/-- The granules that a core's contexts hold. -/
def carriedGrans (s : State) (core : Nat) : Nat := ((carried s core).map (fun c => c.gran - c.evicted)).foldl (· + ·) 0

/-- The slots that a core's groups would take on another core. -/
def slotClash (s : State) (a b : Nat) : Bool :=
  let mine := (s.groups.filter (fun g => (carried s a).any (fun c => c.id == g.ctx))).filterMap Group.slot
  (coreAt s b).agent.resv.any (fun r => r.slots.any (fun x => mine.any (fun y => y.slice == x.slice && y.slot == x.slot)))

/-- Whether a core's images fit on another, with what its agent holds there. -/
def imageFits (s : State) (a b : Nat) : Bool := decide (carriedGrans s a ≤ (coreAt s b).free + carriedGrans s b) && !slotClash s a b

/-- R36, R483 steps 4 and 5: two cores' images exchanged: their contexts with all that belongs to them, the matrix side, the reservations, the waiting lists. -/
def exchange (s : State) (a b : Nat) : State :=
  let ca := coreAt s a
  let cb := coreAt s b
  let ia := (carried s a).map Ctx.id
  let ib := (carried s b).map Ctx.id
  let ga := carriedGrans s a
  let gb := carriedGrans s b
  let goes := fun (ctx core : Nat) => if ia.contains ctx then b else if ib.contains ctx then a else core
  let take := fun (c d : Core) (own other : Nat) =>
    { c with free := c.free + own - other, img := d.img, resvs := d.resvs, alloc := d.alloc, stalled := d.stalled, resync := true }
  { s with
    cores := (s.cores.set a (take ca cb ga gb)).set b (take cb ca gb ga)
    ctxs := s.ctxs.map (fun c => { c with core := goes c.id c.core })
    groups := s.groups.map (fun g => { g with slot := g.slot.map (fun x => { x with core := goes g.ctx x.core }) }) }

/-- R483 step 6: the teams of carried contexts count the veer. -/
def countVeers (s : State) (units : List Nat) : State :=
  let ts := (units.flatMap (carried s)).map Ctx.team
  { s with teams := s.teams.map (fun t => if ts.contains t.id then { t with veers := t.veers + 1 } else t) }

/-- R483 steps 2, 4 to 6: the images of both units exchanged where they fit, written L1 bytes written back. -/
def moveUnits (s : State) (stack : Nat) (v : Veer) : State :=
  let units := v.hot ++ v.lee
  let done := setVeer s stack (some { v with stage := .moved })
  if !((v.hot.zip v.lee).all (fun x => imageFits s x.1 x.2 && imageFits s x.2 x.1)) then done
  else
    let s1 := l1Act done (fun c => units.contains c.core) (fun _ => true) true (fun _ => none)
    countVeers ((v.hot.zip v.lee).foldl (fun s (x : Nat × Nat) => exchange s x.1 x.2) s1) units

/-- R483, R484: VEER_START: once no hold defers it, the groups of both units stop at their switch points; when all have, the pause begins; when the lines already read have landed, the images are exchanged. A unit that is no longer eligible makes it a lull (R486). -/
def execVeerStart (stack : Nat) (s : State) : Out :=
  match nth s.veers stack none with
  | none => .next s
  | some v =>
    let units := v.hot ++ v.lee
    match v.stage with
    | .deferred =>
      if !(unitOk s v.hot && unitOk s v.lee) then .next (setVeer s stack none)
      else if heldBack s units && decide (s.tick < v.instant + 200000) then .next s
      else .next (setVeer s stack (some { v with stage := .stopping }))
    | .stopping =>
      let s1 := stopUnits s units
      .next (if allStopped s1 units then pauseUnits (setVeer s1 stack (some { v with stage := .paused })) units else s1)
    | .paused => .next (if linesLand s units then s else moveUnits s stack v)
    | .moved => .next s

/-- R483, R484: VEER_PAUSE_END: the groups of contexts that run are ready again; one whose halt was asked for meanwhile is HALTED without issuing. -/
def execVeerPauseEnd (stack : Nat) (s : State) : Out :=
  match nth s.veers stack none with
  | none => .next s
  | some v =>
    if v.stage != .moved then .next s
    else
      let units := v.hot ++ v.lee
      let s1 := units.foldl (fun s c => modCore s c (fun k => { k with paused := false })) s
      let runs := fun (g : Group) => (ctxOf s1 g).any (fun c => c.state == .running)
      let s2 := { setVeer s1 stack none with
        groups := s1.groups.map (fun g => if units.contains (coreOf s1 g) && g.slot.isSome && runs g then { g with halted := false } else g) }
      let s3 := units.foldl (fun t c => boostOver s t c) s2
      let halting := (units.flatMap (carried s3)).filter (fun c => c.state == .halting)
      .next (halting.foldl (fun s c => haltDone ((groupsOf s c.id).foldl haltGroup s) c.id) s3)

/-! ## VEERHOLD (R485) -/

/-- R485: the grant of a hold of a ticks asked for at a time: a veer of the team's unit that a hold defers bounds it. -/
def holdGrant (s : State) (g : Group) (a t : Nat) : Nat :=
  let cores := ((s.ctxs.filter (fun c => c.team == g.team && c.state != .free)).map Ctx.core)
  let base := min a 200000
  match nth s.veers (stackOf s g) none with
  | none => base
  | some v =>
    let units := v.hot ++ v.lee
    if v.stage == .deferred && heldBack s units && cores.any (fun c => units.contains c) then min base (v.instant + 200000 - t) else base

/-- How VEERHOLD reads A and writes D (DEDUCED, log 72). -/
def holdSpec : LaneSpec := ⟨.val .z32, .no, .no, .val 1, 4⟩

/-- R485: VEERHOLD. -/
def execVeerhold (f : FormR) (s : State) : Out :=
  onceR s 0xDA f holdSpec (fun s x0 c _ eff =>
    let x := touchSrc x0 f holdSpec
    let t := timeRead s x.g
    let gr := holdGrant s x.g (rdOpd x f.a .z32 ((lowLane eff).getD 0)) t
    .next (modT (putGM s (onceDone (schedAll x x.g.pos 4 f 1 eff gr) c f holdSpec eff)) x.g.team (fun y => { y with holdEnd := t + gr })))

end Sys2Proof.Machine
end

