-- ==== Sys2Proof/Machine/Reset.lean ====
section
/-! DEFINITION. Sys2Proof/Machine/Reset.lean: dies reset, requests that a reset ends, uncorrectable errors of the base dies, module power-on (R22-R24, R41, R403, R441). -/

namespace Sys2Proof.Machine

/-! ## Module reset (R22, R41) -/

/-- Host memory, which no reset of the module changes. -/
def hostMem (m : Memory) : Memory := m.filter (fun c => c.1 / 2 ^ 64 == keyBlock 6 0)

/-- What lies outside the module, and the model's own counters, kept over a reset (DEDUCED, log 75). -/
def keepOutside (s t : State) : State :=
  { t with agenda := s.agenda, fresh := s.fresh, nextId := s.nextId, mem := hostMem s.mem, msix := s.msix, cpls := s.cpls, fabOut := s.fabOut, upsets := s.upsets }

/-- R22: MODULE_POWER_ON. -/
def execModulePowerOn (s : State) : Out := .next (keepOutside s State.reset)

/-- R41, R403: the whole module reset: incarnations stay, every die then loads its table; member incarnations rise; the master count and the count of squalls since power-on go on (R276, R467) (DEDUCED, log 62; DEDUCED, log 75). -/
def moduleReset (s : State) : State :=
  let t := keepOutside s State.reset
  { t with
    tick := s.tick, sqcnt := s.sqcnt, interval := s.interval, veerAt := s.veerAt
    dies := s.dies.map (fun d => { d with loaded := false, announcing := false })
    parts := t.parts.zipIdx.map (fun p => { p.1 with myIncarn := nextIncarn (partAt s p.2).myIncarn, epoch := (partAt s p.2).epoch }) }

/-- R41: BASE_DIE_A_ERROR (DESIGN CHOICE, log 43). -/
def execBaseDieAError (s : State) : Out := .next (moduleReset s)

/-! ## One die (R22-R24) -/

/-- R22, R23: a die reset: its incarnation rises, it sends and delivers nothing until its table is loaded. -/
def dieRestart (s : State) (die : Nat) : State :=
  modDie s die (fun d => { d with incarn := nextIncarn d.incarn, loaded := false, announcing := false, stale := 0 })

/-- A core after a reset of its die: its cycles count from 0 again (R275), no fence, no cached entry, an agent that holds nothing (R302, R466). -/
def coreRestart (s : State) (core : Nat) : State :=
  modCore (returnClaim (dropResv s core) core) core (fun c =>
    { c with cycles := 0, slices := c.slices.map (fun x => { x with cycles := 0 }), fenced := false, squall := false, capped := false, resync := true, objCache := [], regionCache := [], alloc := [], stalled := [] })

/-- Whether a context has something on its core: groups in slots, or a pool image that is not evicted (R214, R294). -/
def onCore (c : Ctx) : Bool := c.state != .free && (c.state != .saved || decide (c.evicted < c.gran))

/-- R22: a compute die reset: the contexts that have something on its stack's cores are killed with their grids (DEDUCED, log 12). -/
def computeReset (s : State) (die : Nat) : State :=
  let k := (die - 2) / 2
  let gs := ((s.ctxs.filter (fun c => c.core / Config.coresPerStack == k && onCore c && !agentCtx s c.id)).map Ctx.grid).eraseDups
  let s1 := gs.foldl killGrid (dieRestart s die)
  if die % 2 = 0 then (coresOfStack k).foldl coreRestart s1 else s1

/-- Whether a device state lies on half B. -/
def onHalfB (st : GranState) : Bool :=
  match st with
  | .hbm _ | .tier2 _ => halfOfState st == 1
  | .none | .host _ => false

/-- R41: partitions with a stack on half B or a page homed there. -/
def usesB (p : Part) : Bool := p.enable && (holdsHalf p 1 || p.grans.any (fun g => onHalfB g.state))

/-- R41: a partition fault: the partition stops; its grids are to be killed (DEDUCED, log 75). -/
def partFault (s : State) (part : Nat) : State := modP (killPart s part) part (fun p => { p with faulted := true })

/-- Lanes out to the host over links 2 and 3 (R441). -/
def lostHostLanes (s : State) : List (Nat × Nat) :=
  s.ops.flatMap (fun o => match getG s o.g with
    | some g => if 2 ≤ (partAt s (partOf s g)).link then (o.lanes.filter (fun x => x.st == .host)).map (fun x => (o.id, x.lane)) else []
    | none => [])

/-- Lanes that take the memory-error trap with a SUB (R24, R427). -/
def failLanes (s : State) (ls : List (Nat × Nat)) (sub : Nat) : State :=
  ls.foldl (fun s (x : Nat × Nat) => match getOp s x.1 with
    | some o => failLane s o x.2 0x10 sub
    | none => s) s

/-- R41, R441: base die B reset: partitions that use half B stop; port 1 loses its requests and its links go down. -/
def baseBReset (s : State) : State :=
  let s1 := dieRestart s 1
  let s2 := ((List.range Config.numParts).filter (fun p => usesB (partAt s p))).foldl partFault s1
  let s3 := failLanes s2 (lostHostLanes s2) 4
  { s3 with links := (s3.links.set 2 false).set 3 false, inb := s3.inb.filter (fun i => decide (i.req.link < 2)) }

/-- R41: BASE_DIE_B_ERROR. -/
def execBaseDieBError (s : State) : Out := .next (baseBReset s)

/-- R22: DIE_RESET; a reset of base die A is one of the module. -/
def execDieReset (die : Nat) (s : State) : Out :=
  .next (match die with
    | 0 => moduleReset s
    | 1 => baseBReset s
    | _ => if die < Config.numDies then computeReset s die else s)

/-! ## Target reset (R24) -/

/-- Whether unified bytes have device backing behind a base die. -/
def homedOn (s : State) (part ua die : Nat) : Bool :=
  let g := granAt (partAt s part) (ua / 4096)
  !(g.state == .none) && !granHost g && homeDie s part (ua / 4096) == die

/-- Whether a place is homed behind a base die. -/
def locOn (s : State) (l : Loc) (die : Nat) : Bool :=
  match l with
  | .uni p ua => homedOn s p ua die
  | .pool _ | .lat _ _ _ | .peer _ _ _ | .mcast _ _ _ => false

/-- The base die beneath a core's stack, with its lattice engine and its fabric port (R12). -/
def engineDie (core : Nat) : Nat := baseDie (core / Config.coresPerStack)

/-- Whether a core's requests leave from a die: its own, or the base die beneath it. -/
def sentFrom (core die : Nat) : Bool :=
  let k := core / Config.coresPerStack
  die == 2 + 2 * k || die == 3 + 2 * k || die == baseDie k

/-- Whether a JTRADE still waits for acknowledgements of stacks above a base die (R393). -/
def awaitsAcks (o : Op) (x : LaneOp) (target : Nat) : Bool :=
  o.kind == .jtrade && x.data.tail.zipIdx.any (fun d => d.1 != 0 && baseDie d.2 == target)

/-- Whether a lane of a core's operation is outstanding toward a base die (R24) (DEDUCED, log 12). -/
def laneOut (s : State) (core : Nat) (o : Op) (x : LaneOp) (target : Nat) : Bool :=
  match x.loc with
  | .pool _ => false
  | .uni p ua => x.st == .sent && homedOn s p ua target
  | .lat _ _ _ => (!laneOver x && engineDie core == target) || (x.st == .peer && awaitsAcks o x target)
  | .peer _ _ _ | .mcast _ _ _ => (x.st == .sent || x.st == .peer) && engineDie core == target

/-- Whether a copy is outstanding toward a base die: its places, its lines, or the bulk streamer that has it. -/
def reqOut (s : State) (r : Req) (target : Nat) : Bool :=
  locOn s r.src target || locOn s r.dst target || r.lines.any (fun l => l.bytes.any (fun b => locOn s b.1 target)) || r.bs.any (fun b => b / 8 == target)

/-- The lanes that leave from some cores and are outstanding toward a base die. -/
def lanesToward (s : State) (from' : Nat → Bool) (target : Nat) : List (Nat × Nat) :=
  s.ops.flatMap (fun o => match getG s o.g with
    | some g => if from' (coreOf s g) then (o.lanes.filter (fun x => laneOut s (coreOf s g) o x target)).map (fun x => (o.id, x.lane)) else []
    | none => [])

/-- Whether a drain is outstanding toward a base die. -/
def cmdOut (s : State) (c : MCmd) (target : Nat) : Bool :=
  c.kind == .adrain && (c.state == .begun || c.state == .stopped) && (cmdPlaces c).any (fun x => locOn s x.1 target)

/-- Whether a collective stands at a fabric engine on a base die. -/
def collOut (s : State) (c : Coll) (target : Nat) : Bool := engineDie (coreOfCtx s c.ctx) == target

/-- A copy that a reset of a base die ends: no line goes there any more (R24, R343). -/
def abortToward (s : State) (target : Nat) (r : Req) : Req :=
  let x := abortReq s r
  let ls := x.lines.filter (fun l => !l.bytes.any (fun b => locOn s b.1 target))
  { x with lines := ls, absent := ls.foldl (fun a l => l.bytes.foldl (fun a b => markAbsent a b.1 1) a) [] }

/-- R24: TARGET_RESET_COMPLETION: a die that learns of a base die's reset completes what it has outstanding there: lanes take the memory-error trap, copies and drains abort (R343, R371), collectives end with ERR (R410); toward a compute die nothing is outstanding that has a status (DEDUCED, log 12). -/
def execTargetResetCompletion (die target : Nat) (s : State) : Out :=
  if 1 < target || !(dieAt s target).announcing then .next s
  else
    let here := fun (core : Nat) => sentFrom core die
    let s1 := failLanes s (lanesToward s here target) 0
    let rs := s.reqs.filter (fun r => here (reqCore s r) && reqOut s r target)
    let s2 := rs.foldl (fun s r => modReq s r.id (abortToward s target)) s1
    let cs := s.mcmds.filter (fun c => here (coreOfCtx s c.ctx) && cmdOut s c target)
    let s3 := (cs.map MCmd.id).foldl abortDrain s2
    let lost := fun (c : Coll) => here (coreOfCtx s c.ctx) && collOut s c target
    .next (if s.colls.any lost then failColls s3 lost else s3)

/-- R24: whether something is still outstanding toward a base die that no die has completed since its reset. -/
def stillOut (s : State) (target : Nat) : Bool :=
  !(lanesToward s (fun _ => true) target).isEmpty ||
  s.reqs.any (fun r => reqOut s r target && ((!r.err && !r.killed && r.next != reqUnits r) || r.lines.any (fun l => l.bytes.any (fun b => locOn s b.1 target)))) ||
  s.mcmds.any (fun c => cmdOut s c target && ((!c.flags.getLsbD 6 && !c.killed) || c.lines.any (fun l => l.bytes.any (fun b => locOn s b.1 target)))) ||
  s.colls.any (fun c => c.out != some true && collOut s c target)

/-! ## Tables and announcements (R23) -/

/-- R23: INCARNATION_TABLE_LOAD: a die out of reset gets every die's incarnation, and then announces its own; write-backs that waited for it go on. -/
def execIncarnationTableLoad (die : Nat) (s : State) : Out :=
  .next (if (dieAt s die).loaded then s
    else wbFlush (modDie s die (fun d => { d with table := s.dies.map Die.incarn, loaded := true, announcing := true })))

/-- R23, R24: INCARNATION_ANNOUNCE: the announcement has reached every stop, and every die that learned of the reset has completed what it had outstanding there. -/
def execIncarnationAnnounce (die : Nat) (s : State) : Out :=
  let me := dieAt s die
  if !me.announcing || (decide (die ≤ 1) && stillOut s die) then .next s
  else .next (wbFlush (modDie { s with dies := s.dies.map (fun d => { d with table := d.table.set die me.incarn }) } die (fun d => { d with announcing := false })))

end Sys2Proof.Machine
end

