-- ==== Sys2Proof/Machine/Regs.lean ====
section
/-! DEFINITION. Sys2Proof/Machine/Regs.lean: register writes of system software, through BAR0 and over management (R399, R416, R442, R443, R465, R467-R470, R481). -/

namespace Sys2Proof.Machine

/-- The state that an operation goes on with. -/
def nextOf (s : State) (o : Out) : State :=
  match o with
  | .next t => t
  | .fault _ | .refused _ => s

/-- Bits hi to lo of a value, in their places. -/
def keepBits (v : W64) (hi lo : Nat) : W64 := v &&& BitVec.ofNat 64 (2 ^ (hi + 1) - 2 ^ lo)

/-- R416: a write of one of partition p's registers. -/
def partReg (s : State) (p off : Nat) (v : W64) : State :=
  match off with
  | 0x00 => pcfgWrite s p v (partAt s p).grant
  | 0x08 => modP s p (fun x => { x with uwin := keepBits v 56 38 })
  | 0x10 => modP s p (fun x => { x with ulim := keepBits v 56 12 })
  | 0x18 => modP s p (fun x => { x with otbase := keepBits v 56 12 })
  | 0x20 => nextOf s (execOtinvWrite p (v.extractLsb' 0 24).toNat s)
  | 0x28 => modP s p (fun x => { x with prqbase := keepBits v 63 12 ||| keepBits v 3 0 })
  | 0x30 => nextOf s (execPrqptrHeadWrite p (v.extractLsb' 32 16).toNat s)
  | 0x38 => modP s p (fun x => { x with otcnt := keepBits v 23 0 })
  | _ => s

/-- R440: HREQ1 written: the command of HREQ0 and HREQ1 submitted. -/
def hreqSubmit (s : State) (v : W64) : State :=
  let part := s.hreq0.toNat % 8
  let gran := bits s.hreq0.toNat 56 12
  let hpa := (keepBits v 63 12).toNat
  nextOf s (match v.toNat % 8 with
    | 0 => execHreqQuery part gran s
    | 1 => execHreqPin part gran s
    | 2 => execHreqUnpin part gran s
    | 3 => execHreqTohost part gran hpa s
    | 4 => execHreqTodev part gran s
    | 5 => execHreqDrop part gran s
    | _ => .next s)

/-- R469, R470: a write of one of partition p's power registers. -/
def powerReg (s : State) (p off : Nat) (v : W64) : State :=
  let f := fun (hi lo : Nat) => bits v.toNat hi lo
  match off with
  | 0x00 => modP s p (fun x => { x with shed := f 42 40, floor := f 31 16, cap := f 15 0 })
  | 0x10 => modP s p (fun x => { x with gap := f 31 16, wave := f 15 0 })
  | _ => s

/-- R481: VEERCTL written: periods of 1 to 249 read as 250. -/
def veerCtl (s : State) (v : W64) : State :=
  let p := bits v.toNat 15 0
  { s with mindiff := bits v.toNat 23 16, vperiod := if 1 ≤ p ∧ p < 250 then 250 else p }

/-- R416, R467: a write of a register of physical function 0; offsets not named ignore it. -/
def pfReg (s : State) (off : Nat) (v : W64) : State :=
  if 0x1000 ≤ off ∧ off < 0x1200 then partReg s ((off - 0x1000) / 0x40) ((off - 0x1000) % 0x40) v
  else if off = 0x2000 then { s with answ0 := v }
  else if off = 0x2008 then { pageAnswer s s.answ0.toNat v.toNat with answ1 := v }
  else if off = 0x2010 then { s with hreq0 := keepBits v 56 12 ||| keepBits v 2 0 }
  else if off = 0x2018 then hreqSubmit s v
  else if off = 0x3000 then nextOf s (execFcapWrite v s)
  else if off = 0x3010 then veerCtl s v
  else if 0x3100 ≤ off ∧ off < 0x3200 then powerReg s ((off - 0x3100) / 0x20) ((off - 0x3100) % 0x20) v
  else s

/-- R465: QWDOG written. -/
def qwdogWrite (s : State) (part q : Nat) (v : W64) : State :=
  modQ s part q (fun x => { x with wFence := bits v.toNat 59 40, wKill := bits v.toNat 39 20, wPre := bits v.toNat 19 0 })

/-- R443, R444: a write of a register of a partition's virtual function; one into QIN that is no submission is dropped and logged. -/
def vfReg (s : State) (part off : Nat) (v : W64) : State :=
  let q := off / 0x100
  if 64 ≤ q then s
  else if off % 0x100 < 0x40 then (if funcUp s part then logUr s else s)
  else match off % 0x100 with
    | 0x40 => nextOf s (execQcfgEnable part q v s)
    | 0x48 => nextOf s (execQstatusClear part q v s)
    | 0x50 => if !funcUp s part then s else if (partAt s part).enable then qwdogWrite s part q v else logUr s
    | _ => s

/-- R416, R443: REGISTER_WRITE: function 0 is the physical one, p + 1 partition p's. -/
def execRegisterWrite (func off : Nat) (val : W64) (s : State) : Out :=
  .next (if func = 0 then (if linkUp s 0 then pfReg s off val else s) else if func ≤ Config.numParts then vfReg s (func - 1) off val else s)

/-! ## What a register reads (R416, R417, R430, R440, R443, R465, R467-R470, R475, R481) -/

/-- R417: PCFG. -/
def pcfgRead (p : Part) : Nat := p.ways.toNat * 2 ^ 32 + p.link % 4 * 2 ^ 10 + b2n p.enable * 2 ^ 9 + b2n p.scopemis * 2 ^ 8 + p.stackBits.toNat

/-- R416, R430: one of a partition's registers in physical function 0. -/
def partRegRead (p : Part) (off : Nat) : Nat :=
  match off with
  | 0x00 => pcfgRead p
  | 0x08 => p.uwin.toNat
  | 0x10 => p.ulim.toNat
  | 0x18 => p.otbase.toNat
  | 0x20 => b2n p.otinvBusy * 2 ^ 63 + p.otinvObj
  | 0x28 => p.prqbase.toNat
  | 0x30 => p.prqHead.toNat * 2 ^ 32 + p.prqTail.toNat
  | 0x38 => p.otcnt.toNat
  | _ => 0

/-- R467, R469, R470, R475: one of a partition's power registers. -/
def powerRegRead (p : Part) (off : Nat) : Nat :=
  match off with
  | 0x00 => p.shed % 8 * 2 ^ 40 + p.floor % 2 ^ 16 * 2 ^ 16 + p.cap % 2 ^ 16
  | 0x08 => throttleReg p.thr
  | 0x10 => p.gap % 2 ^ 16 * 2 ^ 16 + p.wave % 2 ^ 16
  | 0x18 => p.ppwr % 2 ^ 16
  | _ => 0

/-- A register of physical function 0; offsets not named and ANSW0's reserved bits read as zero (R6, R416, R438). -/
def pfRegRead (s : State) (off : Nat) : Nat :=
  if 0x1000 ≤ off ∧ off < 0x1200 then partRegRead (partAt s ((off - 0x1000) / 0x40)) ((off - 0x1000) % 0x40)
  else if 0x3100 ≤ off ∧ off < 0x3200 then powerRegRead (partAt s ((off - 0x3100) / 0x20)) ((off - 0x3100) % 0x20)
  else match off with
    | 0x2000 => s.answ0.toNat - bits s.answ0.toNat 41 32 * 2 ^ 32
    | 0x2008 => s.answ1.toNat
    | 0x2010 => s.hreq0.toNat
    | 0x2018 => s.hreq1.toNat
    | 0x2020 => s.hres.toNat
    | 0x3000 => b2n s.fcapBusy * 2 ^ 63 + s.fcapSeq % 2 ^ 16 * 2 ^ 32 + s.fcapWatts % 2 ^ 16
    | 0x3008 => s.sqcnt.toNat
    | 0x3010 => s.mindiff % 256 * 2 ^ 16 + s.vperiod % 2 ^ 16
    | _ => 0

/-- R443, R465: a register of a partition's virtual function. -/
def vfRegRead (s : State) (part off : Nat) : Nat :=
  let q := queueAt s part (off / 0x100)
  if 64 ≤ off / 0x100 then 0
  else match off % 0x100 with
    | 0x40 => q.vec % 2 ^ 11 * 2 ^ 8 + b2n q.enable * 4 + q.prio % 4
    | 0x48 => q.last % 2 ^ 32 * 2 ^ 32 + b2n q.overf * 2 ^ 31 + b2n q.gap * 2 ^ 30 + b2n s.restart * 2 ^ 29 + q.intake.length
    | 0x50 => q.wFence % 2 ^ 20 * 2 ^ 40 + q.wKill % 2 ^ 20 * 2 ^ 20 + q.wPre % 2 ^ 20
    | 0x58 => q.qcseq % 2 ^ 32
    | _ => 0

/-- R416, R443, R467: what a read of a BAR0 register gives; function 0 is the physical one, p + 1 partition p's. -/
def regRead (s : State) (func off : Nat) : Nat := if func = 0 then pfRegRead s off else if func ≤ Config.numParts then vfRegRead s (func - 1) off else 0

/-! ## Management (R398, R399, R403, R442) -/

/-- Members in ascending number, once each. -/
def sortedMembers (l : List Nat) : List Nat := (List.range 256).filter (fun m => l.contains m)

/-- A peer as a partition first knows it (R403). -/
def Peer.new (m : Nat) : Peer := { member := m, incarn := 1, hops := 1, reach := true }

/-- An import-table entry written (R399): rights read, write and atomic. -/
def putImport (s : State) (part : Nat) (k : ObjKey) (len rights : Nat) : State :=
  let e : ObjEnt := { key := k, valid := true, ubase := 0, len := len, rights := BitVec.ofNat 4 rights &&& 11, hint := none, psize := 0 }
  modP s part (fun p => { p with imports := e :: p.imports.filter (fun x => x.key != k) })

/-- R442: MCTP_MESSAGE: register writes as through BAR0, and the domain's configuration; a member to which it names no route is unreachable (DESIGN CHOICE, log 51). -/
def execMctpMessage (msg : MctpMsg) (s : State) : Out :=
  .next (match msg with
    | .write off val => pfReg s off val
    | .domain part member members =>
      modP s part (fun p => { p with
        member := some member
        peers := (sortedMembers (members.filter (· != member))).map (fun m => (p.peers.find? (fun q => q.member == m)).getD (Peer.new m)) })
    | .leaveDomain part => modP s part (fun p => { p with member := none, peers := [], groups := [] })
    | .importX part member obj len rights => putImport s part (.x member obj) len rights
    | .importM part group obj len rights => putImport s part (.m group obj) len rights
    | .dropImport part key => modP s part (fun p => { p with imports := p.imports.filter (fun x => x.key != key) })
    | .group part group members =>
      modP s part (fun p => { p with groups := { num := group, members := sortedMembers members } :: p.groups.filter (fun g => g.num != group) })
    | .hops part levels => modP s part (fun p => { p with peers := p.peers.map (fun q =>
        match levels.find? (fun l => l.1 == q.member) with
        | some l => { q with hops := l.2, reach := true }
        | none => { q with reach := false }) }))

end Sys2Proof.Machine
end

