-- ==== Sys2Proof/Machine/Dispatch.lean ====
section
/-! DEFINITION. Sys2Proof/Machine/Dispatch.lean: one arm per instruction and per step of the part. -/

namespace Sys2Proof.Machine

/-- The meaning of every instruction and of every step of the part. -/
def exec (i : Instr) (s : State) : Host.Outcome State Fault Refusal :=
  match i with
  | .nop f => Sys2Proof.Machine.execNop f s
  | .mov f => Sys2Proof.Machine.execMov f s
  | .movi f => Sys2Proof.Machine.execMovi f s
  | .movh f => Sys2Proof.Machine.execMovh f s
  | .sel f => Sys2Proof.Machine.execSel f s
  | .iadd f => Sys2Proof.Machine.execIadd f s
  | .isub f => Sys2Proof.Machine.execIsub f s
  | .iaddc f => Sys2Proof.Machine.execIaddc f s
  | .isubb f => Sys2Proof.Machine.execIsubb f s
  | .ineg f => Sys2Proof.Machine.execIneg f s
  | .iabs f => Sys2Proof.Machine.execIabs f s
  | .imin f => Sys2Proof.Machine.execImin f s
  | .imax f => Sys2Proof.Machine.execImax f s
  | .imul f => Sys2Proof.Machine.execImul f s
  | .imulh f => Sys2Proof.Machine.execImulh f s
  | .imad f => Sys2Proof.Machine.execImad f s
  | .imadw f => Sys2Proof.Machine.execImadw f s
  | .idiv f => Sys2Proof.Machine.execIdiv f s
  | .irem f => Sys2Proof.Machine.execIrem f s
  | .icmp f => Sys2Proof.Machine.execIcmp f s
  | .and f => Sys2Proof.Machine.execAnd f s
  | .or f => Sys2Proof.Machine.execOr f s
  | .xor f => Sys2Proof.Machine.execXor f s
  | .not f => Sys2Proof.Machine.execNot f s
  | .andn f => Sys2Proof.Machine.execAndn f s
  | .shl f => Sys2Proof.Machine.execShl f s
  | .shr f => Sys2Proof.Machine.execShr f s
  | .sar f => Sys2Proof.Machine.execSar f s
  | .rot f => Sys2Proof.Machine.execRot f s
  | .funnel f => Sys2Proof.Machine.execFunnel f s
  | .bfe f => Sys2Proof.Machine.execBfe f s
  | .bfi f => Sys2Proof.Machine.execBfi f s
  | .popc f => Sys2Proof.Machine.execPopc f s
  | .clz f => Sys2Proof.Machine.execClz f s
  | .ctz f => Sys2Proof.Machine.execCtz f s
  | .brev f => Sys2Proof.Machine.execBrev f s
  | .bperm f => Sys2Proof.Machine.execBperm f s
  | .lea f => Sys2Proof.Machine.execLea f s
  | .ptrmk f => Sys2Proof.Machine.execPtrmk f s
  | .ptradd f => Sys2Proof.Machine.execPtradd f s
  | .ptrget f => Sys2Proof.Machine.execPtrget f s
  | .lshuf f => Sys2Proof.Machine.execLshuf f s
  | .lbcast f => Sys2Proof.Machine.execLbcast f s
  | .lvote f => Sys2Proof.Machine.execLvote f s
  | .lscan f => Sys2Proof.Machine.execLscan f s
  | .lreduce f => Sys2Proof.Machine.execLreduce f s
  | .kop f => Sys2Proof.Machine.execKop f s
  | .kmov f => Sys2Proof.Machine.execKmov f s
  | .fadd f => Sys2Proof.Machine.execFadd f s
  | .fsub f => Sys2Proof.Machine.execFsub f s
  | .fmul f => Sys2Proof.Machine.execFmul f s
  | .ffma f => Sys2Proof.Machine.execFfma f s
  | .fmin f => Sys2Proof.Machine.execFmin f s
  | .fmax f => Sys2Proof.Machine.execFmax f s
  | .fminnum f => Sys2Proof.Machine.execFminnum f s
  | .fmaxnum f => Sys2Proof.Machine.execFmaxnum f s
  | .fcmp f => Sys2Proof.Machine.execFcmp f s
  | .fclass f => Sys2Proof.Machine.execFclass f s
  | .frnd f => Sys2Proof.Machine.execFrnd f s
  | .ffrac f => Sys2Proof.Machine.execFfrac f s
  | .fscale f => Sys2Proof.Machine.execFscale f s
  | .fgetexp f => Sys2Proof.Machine.execFgetexp f s
  | .frcp f => Sys2Proof.Machine.execFrcp f s
  | .frsq f => Sys2Proof.Machine.execFrsq f s
  | .fsqrt f => Sys2Proof.Machine.execFsqrt f s
  | .fdiv f => Sys2Proof.Machine.execFdiv f s
  | .fexp2 f => Sys2Proof.Machine.execFexp2 f s
  | .flog2 f => Sys2Proof.Machine.execFlog2 f s
  | .fsin f => Sys2Proof.Machine.execFsin f s
  | .fcos f => Sys2Proof.Machine.execFcos f s
  | .ftanh f => Sys2Proof.Machine.execFtanh f s
  | .fsigm f => Sys2Proof.Machine.execFsigm f s
  | .cvtf f => Sys2Proof.Machine.execCvtf f s
  | .cvti f => Sys2Proof.Machine.execCvti f s
  | .cvtfi f => Sys2Proof.Machine.execCvtfi f s
  | .fpack f => Sys2Proof.Machine.execFpack f s
  | .funpack f => Sys2Proof.Machine.execFunpack f s
  | .qnt f => Sys2Proof.Machine.execQnt f s
  | .dqnt f => Sys2Proof.Machine.execDqnt f s
  | .fdot2 f => Sys2Proof.Machine.execFdot2 f s
  | .fdot4 f => Sys2Proof.Machine.execFdot4 f s
  | .fdot8 f => Sys2Proof.Machine.execFdot8 f s
  | .ld f => Sys2Proof.Machine.execLd f s
  | .st f => Sys2Proof.Machine.execSt f s
  | .ldnp f => Sys2Proof.Machine.execLdnp f s
  | .ldb f => Sys2Proof.Machine.execLdb f s
  | .atom f => Sys2Proof.Machine.execAtom f s
  | .acas f => Sys2Proof.Machine.execAcas f s
  | .red f => Sys2Proof.Machine.execRed f s
  | .fence f => Sys2Proof.Machine.execFence f s
  | .pgrow f => Sys2Proof.Machine.execPgrow f s
  | .pshrink f => Sys2Proof.Machine.execPshrink f s
  | .fgrow f => Sys2Proof.Machine.execFgrow f s
  | .fshrink f => Sys2Proof.Machine.execFshrink f s
  | .ocfill f => Sys2Proof.Machine.execOcfill f s
  | .ocdrop f => Sys2Proof.Machine.execOcdrop f s
  | .ocsync f => Sys2Proof.Machine.execOcsync f s
  | .lpin f => Sys2Proof.Machine.execLpin f s
  | .lunpin f => Sys2Proof.Machine.execLunpin f s
  | .linv f => Sys2Proof.Machine.execLinv f s
  | .lwb f => Sys2Proof.Machine.execLwb f s
  | .pres f => Sys2Proof.Machine.execPres f s
  | .objq f => Sys2Proof.Machine.execObjq f s
  | .ptrchk f => Sys2Proof.Machine.execPtrchk f s
  | .advise f => Sys2Proof.Machine.execAdvise f s
  | .bra f => Sys2Proof.Machine.execBra f s
  | .brc f => Sys2Proof.Machine.execBrc f s
  | .brx f => Sys2Proof.Machine.execBrx f s
  | .call f => Sys2Proof.Machine.execCall f s
  | .callx f => Sys2Proof.Machine.execCallx f s
  | .ret f => Sys2Proof.Machine.execRet f s
  | .loop f => Sys2Proof.Machine.execLoop f s
  | .fspawn f => Sys2Proof.Machine.execFspawn f s
  | .fend f => Sys2Proof.Machine.execFend f s
  | .fyield f => Sys2Proof.Machine.execFyield f s
  | .exit f => Sys2Proof.Machine.execExit f s
  | .sleep f => Sys2Proof.Machine.execSleep f s
  | .gets f => Sys2Proof.Machine.execGets f s
  | .sets f => Sys2Proof.Machine.execSets f s
  | .trap f => Sys2Proof.Machine.execTrap f s
  | .tret f => Sys2Proof.Machine.execTret f s
  | .tmask f => Sys2Proof.Machine.execTmask f s
  | .tinfo f => Sys2Proof.Machine.execTinfo f s
  | .tsub f => Sys2Proof.Machine.execTsub f s
  | .ctxsave f => Sys2Proof.Machine.execCtxsave f s
  | .ctxload f => Sys2Proof.Machine.execCtxload f s
  | .halt f => Sys2Proof.Machine.execHalt f s
  | .preq f => Sys2Proof.Machine.execPreq f s
  | .binit f => Sys2Proof.Machine.execBinit f s
  | .barv f => Sys2Proof.Machine.execBarv f s
  | .bexp f => Sys2Proof.Machine.execBexp f s
  | .bwait f => Sys2Proof.Machine.execBwait f s
  | .bcont f => Sys2Proof.Machine.execBcont f s
  | .await f => Sys2Proof.Machine.execAwait f s
  | .watch f => Sys2Proof.Machine.execWatch f s
  | .pause f => Sys2Proof.Machine.execPause f s
  | .tbar f => Sys2Proof.Machine.execTbar f s
  | .sbar f => Sys2Proof.Machine.execSbar f s
  | .gbar f => Sys2Proof.Machine.execGbar f s
  | .cpy f => Sys2Proof.Machine.execCpy f s
  | .gath f => Sys2Proof.Machine.execGath f s
  | .scat f => Sys2Proof.Machine.execScat f s
  | .cfill f => Sys2Proof.Machine.execCfill f s
  | .orsv f => Sys2Proof.Machine.execOrsv f s
  | .orel f => Sys2Proof.Machine.execOrel f s
  | .oqry f => Sys2Proof.Machine.execOqry f s
  | .mma f => Sys2Proof.Machine.execMma f s
  | .azero f => Sys2Proof.Machine.execAzero f s
  | .amov f => Sys2Proof.Machine.execAmov f s
  | .ains f => Sys2Proof.Machine.execAins f s
  | .adrain f => Sys2Proof.Machine.execAdrain f s
  | .jst f => Sys2Proof.Machine.execJst f s
  | .jld f => Sys2Proof.Machine.execJld f s
  | .jldn f => Sys2Proof.Machine.execJldn f s
  | .jadd f => Sys2Proof.Machine.execJadd f s
  | .jtrade f => Sys2Proof.Machine.execJtrade f s
  | .jqry f => Sys2Proof.Machine.execJqry f s
  | .coll f => Sys2Proof.Machine.execColl f s
  | .xfence f => Sys2Proof.Machine.execXfence f s
  | .xqry f => Sys2Proof.Machine.execXqry f s
  | .pwrq f => Sys2Proof.Machine.execPwrq f s
  | .pwrarm f => Sys2Proof.Machine.execPwrarm f s
  | .veerhold f => Sys2Proof.Machine.execVeerhold f s
  | .tclaim f => Sys2Proof.Machine.execTclaim f s
  | .tplace f => Sys2Proof.Machine.execTplace f s
  | .gdec f => Sys2Proof.Machine.execGdec f s
  | .qtake f => Sys2Proof.Machine.execQtake f s
  | .qack f => Sys2Proof.Machine.execQack f s
  | .clauseStart g refetch => Sys2Proof.Machine.execClauseStart g refetch s
  | .clauseBoundary g => Sys2Proof.Machine.execClauseBoundary g s
  | .sliceIssue core slice => Sys2Proof.Machine.execSliceIssue core slice s
  | .groupUrgent g => Sys2Proof.Machine.execGroupUrgent g s
  | .fixedLatencyLanding g => Sys2Proof.Machine.execFixedLatencyLanding g s
  | .switchPoint g => Sys2Proof.Machine.execSwitchPoint g s
  | .entrySetAcquire g => Sys2Proof.Machine.execEntrySetAcquire g s
  | .operandCacheFillDone g => Sys2Proof.Machine.execOperandCacheFillDone g s
  | .ocdropComplete op => Sys2Proof.Machine.execOcdropComplete op s
  | .ocsyncComplete op => Sys2Proof.Machine.execOcsyncComplete op s
  | .poolLoadReturn op acc => Sys2Proof.Machine.execPoolLoadReturn op acc s
  | .storePerformed op acc => Sys2Proof.Machine.execStorePerformed op acc s
  | .atomicPerformed op lanes => Sys2Proof.Machine.execAtomicPerformed op lanes s
  | .parkedLoadWake op => Sys2Proof.Machine.execParkedLoadWake op s
  | .fenceDrainDone g => Sys2Proof.Machine.execFenceDrainDone g s
  | .objectCacheFill core obj => Sys2Proof.Machine.execObjectCacheFill core obj s
  | .lpinFillDone ctx line => Sys2Proof.Machine.execLpinFillDone ctx line s
  | .allocatorAnswer core => Sys2Proof.Machine.execAllocatorAnswer core s
  | .stallGrowRetry core => Sys2Proof.Machine.execStallGrowRetry core s
  | .stallGrowTimeout g => Sys2Proof.Machine.execStallGrowTimeout g s
  | .shrinkAfterCopies g => Sys2Proof.Machine.execShrinkAfterCopies g s
  | .sleepWake g => Sys2Proof.Machine.execSleepWake g s
  | .groupLeaveSlot g => Sys2Proof.Machine.execGroupLeaveSlot g s
  | .teamEnd team => Sys2Proof.Machine.execTeamEnd team s
  | .trapDelivery g => Sys2Proof.Machine.execTrapDelivery g s
  | .switchPointTrap g => Sys2Proof.Machine.execSwitchPointTrap g s
  | .throttleTrap team => Sys2Proof.Machine.execThrottleTrap team s
  | .haltRequest ctx => Sys2Proof.Machine.execHaltRequest ctx s
  | .groupHalted g => Sys2Proof.Machine.execGroupHalted g s
  | .gridKill grid => Sys2Proof.Machine.execGridKill grid s
  | .killComplete ctx => Sys2Proof.Machine.execKillComplete ctx s
  | .barrierUpdate upd => Sys2Proof.Machine.execBarrierUpdate upd s
  | .phaseWaiterWake g => Sys2Proof.Machine.execPhaseWaiterWake g s
  | .continuationFire g => Sys2Proof.Machine.execContinuationFire g s
  | .waitPoll g => Sys2Proof.Machine.execWaitPoll g s
  | .pauseWake g => Sys2Proof.Machine.execPauseWake g s
  | .pauseTimeout g => Sys2Proof.Machine.execPauseTimeout g s
  | .barrierInstanceComplete kind id share => Sys2Proof.Machine.execBarrierInstanceComplete kind id share s
  | .gustWaveRelease grid => Sys2Proof.Machine.execGustWaveRelease grid s
  | .streamerRequestActive req => Sys2Proof.Machine.execStreamerRequestActive req s
  | .streamerLineRead req => Sys2Proof.Machine.execStreamerLineRead req s
  | .streamerLineLand req line => Sys2Proof.Machine.execStreamerLineLand req line s
  | .streamerCredit req => Sys2Proof.Machine.execStreamerCredit req s
  | .gcountCredit req => Sys2Proof.Machine.execGcountCredit req s
  | .requestComplete req => Sys2Proof.Machine.execRequestComplete req s
  | .bulkHandoff req => Sys2Proof.Machine.execBulkHandoff req s
  | .bulkCreditArrival pkt => Sys2Proof.Machine.execBulkCreditArrival pkt s
  | .copyPageResume req => Sys2Proof.Machine.execCopyPageResume req s
  | .copyAbort req => Sys2Proof.Machine.execCopyAbort req s
  | .mmaStep cmd => Sys2Proof.Machine.execMmaStep cmd s
  | .mmaResults cmd => Sys2Proof.Machine.execMmaResults cmd s
  | .matrixCommandBegin cmd => Sys2Proof.Machine.execMatrixCommandBegin cmd s
  | .matrixCommandFinish cmd => Sys2Proof.Machine.execMatrixCommandFinish cmd s
  | .drainRow cmd => Sys2Proof.Machine.execDrainRow cmd s
  | .drainLinePerformed cmd line => Sys2Proof.Machine.execDrainLinePerformed cmd line s
  | .drainComplete cmd => Sys2Proof.Machine.execDrainComplete cmd s
  | .drainPageResume cmd => Sys2Proof.Machine.execDrainPageResume cmd s
  | .drainAbort cmd => Sys2Proof.Machine.execDrainAbort cmd s
  | .matrixStepReexecute cmd => Sys2Proof.Machine.execMatrixStepReexecute cmd s
  | .reservationFreed core rec => Sys2Proof.Machine.execReservationFreed core rec s
  | .latticeLanePerformed op => Sys2Proof.Machine.execLatticeLanePerformed op s
  | .latticeReply op => Sys2Proof.Machine.execLatticeReply op s
  | .thresholdReached op => Sys2Proof.Machine.execThresholdReached op s
  | .thresholdPoll op => Sys2Proof.Machine.execThresholdPoll op s
  | .cellCacheFill stack part region line => Sys2Proof.Machine.execCellCacheFill stack part region line s
  | .regionCacheFill core region => Sys2Proof.Machine.execRegionCacheFill core region s
  | .tradeInstant part region => Sys2Proof.Machine.execTradeInstant part region s
  | .tradePacketApply pkt => Sys2Proof.Machine.execTradePacketApply pkt s
  | .tradeAck pkt => Sys2Proof.Machine.execTradeAck pkt s
  | .starHubSend part region => Sys2Proof.Machine.execStarHubSend part region s
  | .jtradeComplete op => Sys2Proof.Machine.execJtradeComplete op s
  | .peerAccessReply op lane status value => Sys2Proof.Machine.execPeerAccessReply op lane status value s
  | .fabricPortAccept op => Sys2Proof.Machine.execFabricPortAccept op s
  | .peerWriteAck write ack => Sys2Proof.Machine.execPeerWriteAck write ack s
  | .multicastApply dlv => Sys2Proof.Machine.execMulticastApply dlv s
  | .inboundFabricAccess acc => Sys2Proof.Machine.execInboundFabricAccess acc s
  | .xfenceDone op => Sys2Proof.Machine.execXfenceDone op s
  | .collectiveComplete coll peers => Sys2Proof.Machine.execCollectiveComplete coll peers s
  | .collectiveTimeout coll => Sys2Proof.Machine.execCollectiveTimeout coll s
  | .peerResetLearned part member incarn => Sys2Proof.Machine.execPeerResetLearned part member incarn s
  | .ringPacketAdmit pkt => Sys2Proof.Machine.execRingPacketAdmit pkt s
  | .ringAdmissionStarved stop up => Sys2Proof.Machine.execRingAdmissionStarved stop up s
  | .ringPacketDelivery pkt => Sys2Proof.Machine.execRingPacketDelivery pkt s
  | .dieReset die => Sys2Proof.Machine.execDieReset die s
  | .incarnationTableLoad die => Sys2Proof.Machine.execIncarnationTableLoad die s
  | .incarnationAnnounce die => Sys2Proof.Machine.execIncarnationAnnounce die s
  | .targetResetCompletion die target => Sys2Proof.Machine.execTargetResetCompletion die target s
  | .baseDieBError => Sys2Proof.Machine.execBaseDieBError s
  | .baseDieAError => Sys2Proof.Machine.execBaseDieAError s
  | .modulePowerOn => Sys2Proof.Machine.execModulePowerOn s
  | .linkRetrain link => Sys2Proof.Machine.execLinkRetrain link s
  | .inboundPostedWrite req => Sys2Proof.Machine.execInboundPostedWrite req s
  | .inboundRead req => Sys2Proof.Machine.execInboundRead req s
  | .inboundAtomicop req => Sys2Proof.Machine.execInboundAtomicop req s
  | .inboundLineAck req line => Sys2Proof.Machine.execInboundLineAck req line s
  | .hostMemoryRequest op lanes => Sys2Proof.Machine.execHostMemoryRequest op lanes s
  | .hostCompletion op lane ok vals => Sys2Proof.Machine.execHostCompletion op lane ok vals s
  | .systemReleaseFlush g => Sys2Proof.Machine.execSystemReleaseFlush g s
  | .pageRequest part gran asker => Sys2Proof.Machine.execPageRequest part gran asker s
  | .prqptrHeadWrite part head => Sys2Proof.Machine.execPrqptrHeadWrite part head s
  | .pageAnswerZero ans => Sys2Proof.Machine.execPageAnswerZero ans s
  | .pageAnswerCopy ans => Sys2Proof.Machine.execPageAnswerCopy ans s
  | .pageAnswerMap ans => Sys2Proof.Machine.execPageAnswerMap ans s
  | .pageAnswerFail ans => Sys2Proof.Machine.execPageAnswerFail ans s
  | .hreqQuery part gran => Sys2Proof.Machine.execHreqQuery part gran s
  | .hreqPin part gran => Sys2Proof.Machine.execHreqPin part gran s
  | .hreqUnpin part gran => Sys2Proof.Machine.execHreqUnpin part gran s
  | .hreqTohost part gran hpa => Sys2Proof.Machine.execHreqTohost part gran hpa s
  | .hreqTodev part gran => Sys2Proof.Machine.execHreqTodev part gran s
  | .hreqDrop part gran => Sys2Proof.Machine.execHreqDrop part gran s
  | .otinvWrite part obj => Sys2Proof.Machine.execOtinvWrite part obj s
  | .otinvComplete part => Sys2Proof.Machine.execOtinvComplete part s
  | .partitionEnable part val grant => Sys2Proof.Machine.execPartitionEnable part val grant s
  | .partitionTeardown part => Sys2Proof.Machine.execPartitionTeardown part s
  | .teardownComplete part => Sys2Proof.Machine.execTeardownComplete part s
  | .epochEnd part => Sys2Proof.Machine.execEpochEnd part s
  | .pageMoveStep part gran => Sys2Proof.Machine.execPageMoveStep part gran s
  | .functionLevelReset func => Sys2Proof.Machine.execFunctionLevelReset func s
  | .mctpMessage msg => Sys2Proof.Machine.execMctpMessage msg s
  | .qinSubmission part queue bytes => Sys2Proof.Machine.execQinSubmission part queue bytes s
  | .qcfgEnable part queue val => Sys2Proof.Machine.execQcfgEnable part queue val s
  | .qstatusClear part queue val => Sys2Proof.Machine.execQstatusClear part queue val s
  | .cmdNop part queue => Sys2Proof.Machine.execCmdNop part queue s
  | .cmdBegin part queue => Sys2Proof.Machine.execCmdBegin part queue s
  | .cmdCommit part queue => Sys2Proof.Machine.execCmdCommit part queue s
  | .cmdGraph part queue => Sys2Proof.Machine.execCmdGraph part queue s
  | .cmdRcreate part queue => Sys2Proof.Machine.execCmdRcreate part queue s
  | .cmdRdestroy part queue => Sys2Proof.Machine.execCmdRdestroy part queue s
  | .cmdFence part queue => Sys2Proof.Machine.execCmdFence part queue s
  | .gridStart run node => Sys2Proof.Machine.execGridStart run node s
  | .gridComplete grid => Sys2Proof.Machine.execGridComplete grid s
  | .runComplete run => Sys2Proof.Machine.execRunComplete run s
  | .firmwareRestart => Sys2Proof.Machine.execFirmwareRestart s
  | .watchdogPreempt grid => Sys2Proof.Machine.execWatchdogPreempt grid s
  | .watchdogKill grid => Sys2Proof.Machine.execWatchdogKill grid s
  | .watchdogFence grid => Sys2Proof.Machine.execWatchdogFence grid s
  | .haltIdleWake core => Sys2Proof.Machine.execHaltIdleWake core s
  | .controlInterval env => Sys2Proof.Machine.execControlInterval env s
  | .fcapWrite val => Sys2Proof.Machine.execFcapWrite val s
  | .currentRatingReached stack => Sys2Proof.Machine.execCurrentRatingReached stack s
  | .ratioChange stack => Sys2Proof.Machine.execRatioChange stack s
  | .squall core => Sys2Proof.Machine.execSquall core s
  | .clauseReexecute g => Sys2Proof.Machine.execClauseReexecute g s
  | .veerInstant stack heats => Sys2Proof.Machine.execVeerInstant stack heats s
  | .veerStart stack => Sys2Proof.Machine.execVeerStart stack s
  | .veerPauseEnd stack => Sys2Proof.Machine.execVeerPauseEnd stack s
  | .registerWrite func off val => Sys2Proof.Machine.execRegisterWrite func off val s
  | .squallStretchEnd core => Sys2Proof.Machine.execSquallStretchEnd core s
  | .firmwareRestartEnd => Sys2Proof.Machine.execFirmwareRestartEnd s
  | .matrixQueryComplete op => Sys2Proof.Machine.execMatrixQueryComplete op s
  | .latticeQueryComplete op => Sys2Proof.Machine.execLatticeQueryComplete op s
  | .fabricQueryComplete op => Sys2Proof.Machine.execFabricQueryComplete op s
  | .qtakeQackComplete op => Sys2Proof.Machine.execQtakeQackComplete op s

end Sys2Proof.Machine
end

