-- ==== Sys2Proof/Machine/Sched.lean ====
section
/-! DEFINITION. Sys2Proof/Machine/Sched.lean: the part's own steps in a default order, for when the agenda names none and the current group cannot issue (DESIGN CHOICE, log 1). -/

namespace Sys2Proof.Machine

/-- One of the part's own steps, as what it does to the state. -/
abbrev OwnStep := State → Out

/-- Every lane. -/
def allLanes : Mask := fullMask 128

/-- Every byte of a lane's access. -/
def allBytes : W32 := BitVec.allOnes 32

/-- The steps that a group's park may bring. -/
def parkSteps (s : State) (g : Group) : List OwnStep :=
  match g.park with
  | .objMiss k => [execObjectCacheFill (coreOf s g) k]
  | .regionMiss r => [execRegionCacheFill (coreOf s g) r]
  | .none | .stall | .alloc | .entryWait _ _ | .sbar _ | .gbar _ => []
  | .sw => [execSwitchPoint g.id]
  | .fence _ _ => [execFenceDrainDone g.id]
  | .growWait _ => [execStallGrowTimeout g.id]
  | .shrinkWait => [execShrinkAfterCopies g.id]
  | .bwait _ _ _ _ _ _ | .awaitPhase _ _ _ _ _ _ _ => [execPhaseWaiterWake g.id, execWaitPoll g.id]
  | .awaitCell w => [execThresholdReached w.op, execThresholdPoll w.op]
  | .pause _ _ _ => [execPauseWake g.id, execWaitPoll g.id, execPauseTimeout g.id]
  | .tbar _ => [execWaitPoll g.id]
  | .absent op => [execParkedLoadWake op]
  | .agentIdle _ => [execHaltIdleWake (coreOf s g)]

/-- The steps that a group's phase may bring. -/
def phaseSteps (g : Group) : List OwnStep :=
  match g.phase with
  | .boundary _ _ => [execClauseBoundary g.id]
  | .header => [execClauseStart g.id 0]
  | .inClause _ | .asleep => []

/-- The steps of one group. -/
def groupSteps (s : State) (g : Group) : List OwnStep :=
  let i := g.id
  (if g.trapDue.isSome then [execTrapDelivery i] else []) ++ (if g.pendTraps.isEmpty then [] else [execSwitchPointTrap i]) ++
    [execGroupHalted i] ++ (if g.suspect then [execClauseReexecute i] else []) ++ parkSteps s g ++ phaseSteps g ++ [execSleepWake i, execContinuationFire i] ++
    (if g.ended then [execGroupLeaveSlot i] else []) ++ (if g.oc.isNone then [execEntrySetAcquire i] else []) ++ (if 32 ≤ g.waited then [execGroupUrgent i] else [])

/-- A stalled instruction tried again (R57): one that would stall still changes nothing of itself; one that would issue is among those that its slice can choose from (R277). -/
def retryStep (g : Group) : OwnStep := fun s =>
  let t := { s with cur := some g.id }
  if g.tried then .next s
  else match groupTurn t g with
  | .run u i => (match exec i u with
    | .next v =>
      if (getG v g.id).any (fun h => h.phase == g.phase && h.pos == g.pos && h.trec == g.trec) then .next (if v = t then s else v)
      else .next (modG s g.id (fun g => { g with tried := true }))
    | .fault f => .fault f
    | .refused r => .refused r)
  | .become _ => .next (modG s g.id (fun g => { g with tried := true }))
  | .idle _ => .next s

/-- The cell-cache lines that the lanes of an operation need (R396). -/
def cellFills (s : State) (o : Op) : List OwnStep :=
  match getG s o.g with
  | none => []
  | some g =>
    let k := stackOf s g
    o.lanes.flatMap (fun x => match x.loc with
      | .lat p r off => if (nth s.cellCache k []).contains ⟨p, r, off / 64⟩ then [] else [execCellCacheFill k p r (off / 64)]
      | .pool _ | .uni _ _ | .peer _ _ _ | .mcast _ _ _ => [])

/-- The steps of one operation in flight. -/
def opSteps (s : State) (o : Op) : List OwnStep :=
  let i := o.id
  (if o.kind == .ocfill then [execOperandCacheFillDone o.g] else []) ++ cellFills s o ++
    [execStorePerformed i ⟨allLanes, allBytes⟩, execAtomicPerformed i allLanes, execPoolLoadReturn i ⟨allLanes, allBytes⟩, execParkedLoadWake i, execOcdropComplete i,
     execOcsyncComplete i, execMatrixQueryComplete i, execLatticeLanePerformed i, execThresholdReached i, execThresholdPoll i, execLatticeReply i,
     execJtradeComplete i, execFabricPortAccept i, execXfenceDone i, execHostMemoryRequest i allLanes, execLatticeQueryComplete i, execFabricQueryComplete i,
     execQtakeQackComplete i]

/-- The steps of one streamer request. -/
def reqSteps (r : Req) : List OwnStep :=
  r.lines.map (fun l => execStreamerLineLand r.id l.id) ++
    [execStreamerRequestActive r.id, execStreamerLineRead r.id, execStreamerCredit r.id, execGcountCredit r.id, execBulkHandoff r.id, execCopyPageResume r.id, execRequestComplete r.id]

/-- The steps of one collective: its time may run out, or, once it is matched, it goes on. -/
def collSteps (c : Coll) : List OwnStep := [execCollectiveTimeout c.id] ++ (if c.out.isSome then [execCollectiveComplete c.id []] else [])

/-- The steps of one matrix command. -/
def cmdSteps (c : MCmd) : List OwnStep :=
  c.lines.map (fun l => execDrainLinePerformed c.id l.id) ++ (if c.suspect then [execMatrixStepReexecute c.id] else []) ++
    [execMatrixCommandBegin c.id, execMmaStep c.id, execMmaResults c.id, execDrainRow c.id, execDrainPageResume c.id, execDrainComplete c.id, execMatrixCommandFinish c.id]

/-- The steps of one ring packet. -/
def pktSteps (p : Pkt) : List OwnStep :=
  [execRingPacketAdmit p.id, execRingPacketDelivery p.id, execTradePacketApply p.id, execTradeAck p.id, execBulkCreditArrival p.id]

/-- The steps of one core. -/
def coreSteps (c : Nat) (k : Core) : List OwnStep :=
  (if k.alloc.isEmpty then [] else [execAllocatorAnswer c]) ++ (k.resvs.filter (fun r => r.releasing.isSome)).map (fun r => execReservationFreed c r.id)

/-- The waiting grows of a core sent again after a release (R245). -/
def growSteps (s : State) : List OwnStep := s.cores.zipIdx.flatMap (fun k => if !k.1.freed then [] else [execStallGrowRetry k.2])

/-- The steps of one team's barriers, of its throttle trap and of its end. -/
def teamSteps (s : State) (t : Team) : List OwnStep :=
  (if t.tArr.isEmpty then [] else [execBarrierInstanceComplete .team t.id t.share]) ++
    (if t.sArr.isEmpty then [] else [execBarrierInstanceComplete .stack t.grid t.share]) ++
    (if t.gArr.isEmpty then [] else [execBarrierInstanceComplete .grid t.grid t.share]) ++
    (if s.groups.any (fun g => g.team == t.id && (g.armed || g.held.isSome)) then [execThrottleTrap t.id] else []) ++
    (if s.groups.any (fun g => g.team == t.id && !g.ended) then [] else [execTeamEnd t.id])

/-- The steps of one context. -/
def ctxSteps (c : Ctx) : List OwnStep :=
  (if c.haltReq then [execHaltRequest c.id] else []) ++ (if c.state == .killing then [execKillComplete c.id] else []) ++
    (c.l1.filter L1Line.filling).map (fun l => execLpinFillDone c.id l.key)

/-- The steps of one grid. -/
def gridSteps (g : Grid) : List OwnStep :=
  (if g.killDue then [execGridKill g.id] else []) ++ (if g.gust.isSome then [execGustWaveRelease g.id] else []) ++
    [execWatchdogPreempt g.id, execWatchdogKill g.id, execWatchdogFence g.id, execGridComplete g.id]

/-- The steps of one run: its nodes that may start, and its end. -/
def runSteps (r : Run) : List OwnStep :=
  (r.nodes.zipIdx.filter (fun n => n.1.pred == 0 && n.1.state == .waiting)).map (fun n => execGridStart r.id n.2) ++ [execRunComplete r.id]

/-- The steps of the command queues of one partition that hold packets. -/
def queueSteps (i : Nat) (p : Part) : List OwnStep :=
  p.queues.zipIdx.flatMap (fun q => if q.1.intake.isEmpty then [] else
    [execCmdNop i q.2, execCmdBegin i q.2, execCmdCommit i q.2, execCmdGraph i q.2, execCmdRcreate i q.2, execCmdRdestroy i q.2, execCmdFence i q.2])

/-- The steps of one partition. -/
def partSteps (i : Nat) (p : Part) : List OwnStep :=
  (if p.otinvBusy then [execOtinvComplete i] else []) ++ (if p.teardown then [execTeardownComplete i] else []) ++
  (if !p.enable then [] else
    queueSteps i p ++ p.regions.map (fun r => execTradeInstant i r.num) ++ (p.regions.filter (fun r => r.trade.isSome)).map (fun r => execStarHubSend i r.num) ++
      (p.grans.filter (fun g => g.moving.isSome)).map (fun g => execPageMoveStep i g.num))

/-- The steps of one die. -/
def dieSteps (i : Nat) (d : Die) : List OwnStep :=
  (if d.loaded then [] else [execIncarnationTableLoad i]) ++ (if d.announcing then [execTargetResetCompletion 0 i, execTargetResetCompletion 1 i, execIncarnationAnnounce i] else [])

/-- The steps of one ring stop. -/
def stopSteps (j : Nat) (x : Stop) : List OwnStep :=
  (if 256 ≤ x.asc.refused && !x.asc.starved then [execRingAdmissionStarved j true] else []) ++
    (if 256 ≤ x.desc.refused && !x.desc.starved then [execRingAdmissionStarved j false] else [])

/-- The steps of one stack. -/
def stackSteps (s : State) (k : Nat) : List OwnStep :=
  let p := nth s.stackPower k StackPower.reset
  (if p.target != p.point || (coresOfStack k).any (fun c => (coreAt s c).slices.any (fun x => x.set != x.ratio)) then [execRatioChange k] else []) ++ (if (nth s.veers k none).isSome then [execVeerStart k, execVeerPauseEnd k] else [])

/-- A slice's choice for each slice in which a group that can issue stands inside a clause. -/
def sliceSteps (s : State) : List OwnStep :=
  s.groups.flatMap (fun g => match g.slot with
    | some a => if unstalled g && inClauseNow g then [execSliceIssue a.core a.slice] else []
    | none => [])

/-- The page requests that accesses, fetches and engines make now (R436). -/
def pageSteps (s : State) : List OwnStep :=
  let lane := fun (o : Op) (x : LaneOp) => match getG s o.g, laneReach s o x with
    | some g, .page n => [execPageRequest (partOf s g) n (.lane o.id x.lane)]
    | _, _ => []
  let ask := fun (part : Nat) (a : PageAsker) (r : Option Nat) => match r with
    | some n => [execPageRequest part n a]
    | none => []
  s.ops.flatMap (fun o => o.lanes.flatMap (lane o)) ++ s.groups.flatMap (fun g => ask (partOf s g) (.fetch g.id) (fetchPage s g)) ++
    s.reqs.flatMap (fun r => ask r.part (.copy r.id) (reqPage s r)) ++ s.mcmds.flatMap (fun c => ask c.part (.drain c.id) (cmdPage s c)) ++
    s.colls.flatMap (fun c => ask c.part (.copy c.id) (collPage s c))

/-- The part's own steps, in their default order: other groups that can issue, what is in flight, the tables, then the groups by turns and the stalled instructions (DESIGN CHOICE, log 36). -/
def ownSteps (s : State) : List OwnStep :=
  sliceSteps s ++ s.ops.flatMap (opSteps s) ++ (s.hwrites.map (fun w => execSystemReleaseFlush w.g)) ++ pageSteps s ++ s.upds.map (fun u => execBarrierUpdate u.id) ++
    s.reqs.flatMap reqSteps ++ s.mcmds.flatMap cmdSteps ++ s.colls.flatMap collSteps ++
    (s.pwrites.filter PeerWrite.own).map (fun w => execMulticastApply ⟨none, [w.id]⟩) ++ s.pkts.flatMap pktSteps ++
    s.cores.zipIdx.flatMap (fun k => coreSteps k.2 k.1) ++ s.inb.flatMap (fun w => w.lines.map (fun l => execInboundLineAck w.id l.id)) ++
    s.teams.flatMap (teamSteps s) ++ s.ctxs.flatMap ctxSteps ++ s.grids.flatMap gridSteps ++ s.runs.flatMap runSteps ++
    s.parts.zipIdx.flatMap (fun p => partSteps p.2 p.1) ++ s.dies.zipIdx.flatMap (fun d => dieSteps d.2 d.1) ++
    s.stops.zipIdx.flatMap (fun x => stopSteps x.2 x.1) ++ (List.range Config.numStacks).flatMap (stackSteps s) ++ s.groups.flatMap (groupSteps s) ++
    (s.groups.filter (fun g => retries g.park)).map retryStep ++ growSteps s

/-- What the first of a list of steps that is due makes of the state: one that is not due changes nothing. -/
def firstDue (s : State) : List OwnStep → Option State
  | [] => none
  | e :: es =>
    match e s with
    | .next t => if t = s then firstDue s es else some t
    | .fault _ | .refused _ => firstDue s es

/-- A list taken from a place on, round: each of the part's steps comes first at some time (DESIGN CHOICE, log 1). -/
def rotated {α : Type} (l : List α) (n : Nat) : List α := l.drop (n % l.length) ++ l.take (n % l.length)

/-- What a step answers for what choose names. -/
def act (a : Act) : Out :=
  match a with
  | .run t i => exec i t
  | .become t => .next t
  | .idle t => .next ((firstDue t (rotated (ownSteps t) t.fresh)).getD t)

end Sys2Proof.Machine
end

