-- ==== Sys2Proof/Machine/Step.lean ====
section
/-! DEFINITION. Sys2Proof/Machine/Step.lean: one step of the machine, and an instruction placed where the next step fetches it. -/

namespace Sys2Proof.Machine

/-- One step: time passes, then what choose names happens. -/
def step (s : State) : Host.Outcome State Fault Refusal := act (choose (timePasses s))

/-- The state with the instruction of a table word where step fetches its next instruction (DESIGN CHOICE, log 10). -/
def State.withFetchWord (s : State) (nbits w : Nat) : State := placeWord s (w % 2 ^ min nbits 64)

end Sys2Proof.Machine
end

