-- ==== Sys2Proof/Safety.lean ====
section
/-! DEFINITION. Sys2Proof/Safety.lean: the terms in which claims are stated: whose turn it is, what a group's turn leaves, and the invariants. -/

namespace Sys2Proof

open Sys2Proof.Machine

/-- The memory is in its canonical form. -/
abbrev MemCanonical (s : State) : Prop := Memory.wf s.mem = true

/-- It is group g's turn, inside clause c, and it holds its entry set (R53, R219). -/
def Issues (s : State) (g : Group) (c : Clause) : Prop :=
  s.cur.bind (getG s) = some g ∧ g.phase = .inClause c ∧ g.oc.isSome = true

/-- The group with the writes due at its position landed (R56). -/
def due (s : State) (g : Group) : GM := landAt (gmOf s g) g.pos

/-- The word of a format R instruction. -/
def wordR (op : Nat) (f : FormR) : W64 := BitVec.ofNat 64 (encR op f)
/-- The word of a format I instruction. -/
def wordI (op : Nat) (f : FormI) : W64 := BitVec.ofNat 64 (encI op f)
/-- The word of a format M instruction. -/
def wordM (op : Nat) (f : FormM) : W64 := BitVec.ofNat 64 (encM op f)
/-- The word of a format J instruction. -/
def wordJ (op : Nat) (f : FormJ) : W64 := BitVec.ofNat 64 (encJ op f)
/-- The word of a format Q instruction. -/
def wordQ (op : Nat) (f : FormQ) : W64 := BitVec.ofNat 64 (encQ op f)

/-- A lane instruction whose registers lie in the frame (R62) goes to the next state in which every pass has scheduled, for each effective lane, what body makes of the lane's operands (R29, R56). -/
def LaneResult (mk : FormR → Instr) (op : Nat) (sp : FormR → LaneSpec) (body : FormR → LaneIn → LaneOut) : Prop :=
  ∀ (s : State) (g : Group) (c : Clause) (f : FormR), Issues s g c → frameFail g (laneOpds f (sp f)) = none →
    exec (mk f) s = .next (laneDone s c f.gd (wordR op f) (lanePasses (gmOf s g) f (sp f) (fun _ => body f)))

/-- The same of a form that meets a condition, with a spec and a body that may look at the group. -/
def LaneResultIf (mk : FormR → Instr) (op : Nat) (ok : FormR → Group → Bool) (sp : FormR → Group → LaneSpec) (body : FormR → Group → LaneIn → LaneOut) : Prop :=
  ∀ (s : State) (g : Group) (c : Clause) (f : FormR), Issues s g c → ok f g = true → frameFail g (laneOpds f (sp f g)) = none →
    exec (mk f) s = .next (laneDone s c f.gd (wordR op f) (lanePasses (gmOf s g) f (sp f g) (body f)))

/-- A lane instruction that reads everything at its first issued pass and finds nothing bad in it goes to the next state in which its results are scheduled (R487). -/
def WholeResultIf (mk : FormR → Instr) (op : Nat) (ok : FormR → Bool) (sp : FormR → LaneSpec) (fine : FormR → LaneIn → Bool) (body : FormR → LaneIn → LaneOut) : Prop :=
  ∀ (s : State) (g : Group) (c : Clause) (f : FormR), Issues s g c → ok f = true → frameFail g (laneOpds f (sp f)) = none →
    (wholeIns (due s g) f (sp f) (effFirst s g f.gd)).all (fine f) = true →
    exec (mk f) s = .next (laneDone s c f.gd (wordR op f) (wholePasses (due s g) f (sp f) (effFirst s g f.gd) (body f)))

/-- A cross-lane instruction whose rules on the width hold goes to the next state in which its results land together (R172). -/
def CrossResultIf (mk : FormR → Instr) (op : Nat) (ok : FormR → Group → Bool) (sp : FormR → Group → LaneSpec)
    (body : FormR → Nat → (Nat → LaneIn) → List Nat → List (Nat × LaneOut)) : Prop :=
  ∀ (s : State) (g : Group) (c : Clause) (f : FormR), Issues s g c → ok f g = true → frameFail g (laneOpds f (sp f g)) = none →
    exec (mk f) s = .next (laneDone s c f.gd (wordR op f) (crossPasses (gmOf s g) f (sp f g) (body f)))

/-- The group's registers once the sources of a format R instruction that acts once are touched (R220). -/
def dueTouched (s : State) (g : Group) (f : FormR) (sp : LaneSpec) : GM := touchSrc (due s g) f sp

/-- The group once the registers that a format M instruction touches are touched (R220, R222). -/
def memAt (s : State) (g : Group) (op : Nat) (f : FormM) (nA nB : Nat) : GM := (touchedM g op f nA nB).foldl (fun x r => touchReg x true r) (due s g)

/-- The state once the caches have been consulted for the pointers of a format M instruction (R246, R382). -/
def memFrom (s : State) (g : Group) (op : Nat) (f : FormM) : State := consultM s op (due s g) f (effFirst s g f.gd)

/-- A format R instruction that acts once completes, its effective lanes given by lanes: with its registers in the frame, some lane effective, and pre holding of the group with due writes landed, it goes to the state post. -/
def OnceBy {α : Type} (lanes : State → Group → Guard → Mask) (mk : FormR → Instr) (sp : FormR → LaneSpec) (pre : α → State → GM → FormR → Mask → Prop)
    (post : α → State → GM → Clause → FormR → Mask → State) : Prop :=
  ∀ (a : α) (s : State) (g : Group) (c : Clause) (f : FormR), Issues s g c → frameFail g (laneOpds f (sp f)) = none → lanes s g f.gd ≠ 0 →
    pre a s (due s g) f (lanes s g f.gd) → exec (mk f) s = .next (post a s (due s g) c f (lanes s g f.gd))

/-- One whose guard is read pass by pass (R29, R56). -/
def OnceResult {α : Type} (mk : FormR → Instr) (sp : FormR → LaneSpec) (pre : α → State → GM → FormR → Mask → Prop)
    (post : α → State → GM → Clause → FormR → Mask → State) : Prop := OnceBy effAt mk sp pre post

/-- One that reads everything at its first issued pass (R487). -/
def FirstResult {α : Type} (mk : FormR → Instr) (sp : FormR → LaneSpec) (pre : α → State → GM → FormR → Mask → Prop)
    (post : α → State → GM → Clause → FormR → Mask → State) : Prop := OnceBy effFirst mk sp pre post

/-- A format M instruction completes: with its registers in the frame, some lane effective, and pre holding of the state and the group at its issue, it goes to the state post. -/
def MemResult {α : Type} (mk : FormM → Instr) (op : Nat) (nA nB nD : FormM → Nat) (pre : α → State → GM → FormM → Mask → Prop)
    (post : α → State → GM → Clause → FormM → Mask → State) : Prop :=
  ∀ (a : α) (s : State) (g : Group) (c : Clause) (f : FormM), Issues s g c → frameFail g [(f.a, nA f), (f.b, nB f), (f.d, nD f)] = none →
    effFirst s g f.gd ≠ 0 → pre a (memFrom s g op f) (memAt s g op f (nA f) (nB f)) f (effFirst s g f.gd) →
    exec (mk f) s = .next (post a (memFrom s g op f) (memAt s g op f (nA f) (nB f)) c f (effFirst s g f.gd))

/-- A load completes: every lane it reads passes its check and no counter it needs is full; it is then in flight. -/
def LoadResult (mk : FormM → Instr) (op : Nat) (np bc : Bool) : Prop :=
  MemResult mk op (fun _ => 2) (fun _ => 0) (fun f => regsOf (sizeBytes f))
    (fun ats s x f eff => chkLanes s x f 1 (fun l _ => isMcast l) (loadLanes bc eff) = .go ats ∧ loadFull x.g ats = false)
    (fun ats s x c f eff => loadLaunch np bc s x c f eff (wordM op f) ats)

/-- A store, atomic or reduction completes: every effective lane passes its check, none is in a lattice, an atomic is aligned, and its counter is not full; it is then in flight with its data. -/
def WriteResult (mk : FormM → Instr) (op : Nat) (nB nD : FormM → Nat) (ctr : Nat) (rights : BitVec 4) (kind : FormM → OpKind) (atomic : Bool)
    (refuse : Loc → Nat → Bool) : Prop :=
  MemResult mk op (fun _ => 2) nB nD
    (fun ats s x f eff => chkLanes s x f rights refuse (lanesOf eff) = .go ats ∧ ats.all (fun a => !isLat a.loc) = true ∧
      (atomic = true → ats.all (fun a => ptrOff a.ptr % sizeBytes f == 0) = true) ∧ cntOf x.g ctr ≠ 63)
    (fun ats s x c f eff => writeLaunch (kind f) ctr (nB f) s x c f eff (wordM op f) ats)

/-- What an L1 control instruction finds of its lanes: no table entry missing, no earlier access of the group to their lines in flight. -/
def L1Free (s : State) (x : GM) (f : FormM) (rights : BitVec 4) (eff : Mask) : Prop :=
  (lanesOf eff).findSome? (l1Miss s x f) = none ∧
  ((lanesOf eff).all (fun l => match l1Lane s x f rights l with
    | some b => !groupBusy s x.g.id (partOf s x.g) (lineOf b.1) ((linesOf b.1 (sizeBytes f)).length * 128)
    | none => true)) = true

/-- A format J instruction completes, its effective lanes given by lanes: with its target one the code may be entered at, some lane effective, and pre holding of the group with due writes landed, it goes to the state post. -/
def JumpResult (lanes : State → Group → Guard → Mask) (mk : FormJ → Instr) (pre : State → GM → FormJ → Mask → Prop)
    (post : State → GM → Clause → FormJ → Mask → Nat → State) : Prop :=
  ∀ (s : State) (g : Group) (c : Clause) (f : FormJ) (gr : Grid), Issues s g c → gridOf s g = some gr → targetOk s gr (jTarget c f) = true →
    lanes s g f.gd ≠ 0 → pre s (due s g) f (lanes s g f.gd) →
    exec (mk f) s = .next (post s (due s g) c f (lanes s g f.gd) (jTarget c f).toNat)

/-- The state after a branch that takes each effective lane to its target (R257, R262). -/
def branched (s : State) (x : GM) (c : Clause) (eff : Mask) (sw uni : Bool) (t : Nat → RetEnt) : State :=
  putGM s (endClause { x with g := hintMiss (transfer x.g c eff t) uni eff t } eff sw (tookBack c eff t) false)

/-- The state after a call that takes each effective lane to its target with the window moved up and the way back pushed, the entries that leave the top four written to the lane stack segment (R264-R266). -/
def called (s : State) (x : GM) (c : Clause) (eff : Mask) (shift : Nat) (sw uni : Bool) (t : Nat → Nat) : State :=
  let tg := fun l => (⟨t l, wbaseOf x.g + shift⟩ : RetEnt)
  putGM s (spillRets (endClause { x with g := hintMiss (transfer (pushRets x.g eff ⟨fallThrough c, wbaseOf x.g⟩) c eff tg) uni eff tg } eff sw false false) eff)

/-- The group at the issue of a format Q instruction: due writes landed, its dirty lanes written back (R224), no entry touched (R222). -/
def qAt (s : State) (g : Group) : GM := ocWriteBackAll (due s g)

/-- A format Q instruction completes: with its registers in the frame, some lane effective, and pre holding of the group at its issue, it goes to the state post. -/
def QResult {α : Type} (mk : FormQ → Instr) (nA nB nD : FormQ → Nat) (pre : α → State → GM → FormQ → Mask → Prop)
    (post : α → State → GM → Clause → FormQ → Mask → State) : Prop :=
  ∀ (a : α) (s : State) (g : Group) (c : Clause) (f : FormQ), Issues s g c → frameFail g [(f.a, nA f), (f.b, nB f), (f.d, nD f)] = none →
    effFirst s g f.gd ≠ 0 → pre a s (qAt s g) f (effFirst s g f.gd) →
    exec (mk f) s = .next (post a s (qAt s g) c f (effFirst s g f.gd))

/-- Registers of a barrier pointer: none where the instruction names none. -/
def barRegs (f : FormQ) : Nat := if f.b = .zero then 0 else 2
/-- The block pointer of a command: A of the lowest effective lane (R73). -/
def blkPtr (x : GM) (f : FormQ) (eff : Mask) : Nat := rdOpd x f.a .b64 ((lowLane eff).getD 0)
/-- The barrier pointer of a command, where it names one. -/
def barPtr (x : GM) (f : FormQ) (eff : Mask) : Option Nat := if f.b = .zero then none else some (rdOpd x f.b .b64 ((lowLane eff).getD 0))
/-- A barrier pointer passes its check and names object b, or there is none. -/
def BarOk (s : State) (g : Group) (q b : Option Nat) : Prop :=
  (barChk s g q = .none ∧ b = none) ∨ (∃ k, barChk s g q = .go k ∧ b = some k)

/-- A request whose next run may be read: active on a core with no veer pause, or in a bulk streamer, with units left, its context's image not out, and nothing ordered before the run (R337, R342, R344). -/
def MayRead (s : State) (r : Req) : Prop :=
  ((r.state = .active ∧ (coreAt s (reqCore s r)).paused = false) ∨ r.state = .bulk) ∧ r.next ≠ reqUnits r ∧ ctxOut s r.ctx = false ∧ runFree s r = true

/-- A streamer request is accepted as r in state t: the feed right, a free queue entry, a block of the team's scratchpad with no earlier access to it in flight, fields that are not refused, ranges in order, in FAULT mode no earlier access to the index list in flight and every entry read in range, and the barrier (R335). -/
def CopyAccepts (form : CopyForm) (t : State) (r : Req) (s : State) (x : GM) (f : FormQ) (eff : Mask) : Prop :=
  (form ≠ .cfill → feedRights s x.g = true) ∧ (coreQueue s (coreOf s x.g)).length < 32 ∧
  s.groups.all (fun h => !waitsBefore s .streamer x.g h (waitSince s .streamer x.g)) = true ∧
  ∃ (k u : Nat) (l : Loc) (ls : BlkLocs) (b : Option Nat),
    blockChk s x.g (blkPtr x f eff) isScratch = .go k ∧ earlierAt s x.g.id eff (.pool k) 64 = false ∧
    (let blk := blkOf (memRdV s.mem k 64)
     let s1 := consultAll s x.g (blkPtrs form blk)
     let r0 := newReq s1 x eff form (f.sub.getLsbD 0) f.scope blk u ls none
     let es := entriesAt s1 (reqEng s1 r0) ls.list (if faultMode form blk then List.range blk.n1 else [])
     let r1 := withEntries r0 es.2
     blkRefusal s1 (partOf s1 x.g) form (f.sub.getLsbD 0) blk (barPtr x f eff) = none ∧ unitOf blk.edesc = some u ∧
     blkExtents s1 x.g form blk u = (.ok l, ls) ∧ (faultMode form blk = true → earlierAt s1 x.g.id eff ls.list (4 * blk.n1) = false) ∧
     (faultRow r1).bind (fun j => nth r1.idx j none) = none ∧ BarOk es.1 x.g (barPtr x f eff) b ∧ t = es.1 ∧ r = { r1 with bar := b })

/-- A streamer instruction completes where its request is accepted (R335). -/
def CopyResult (mk : FormQ → Instr) (form : CopyForm) : Prop :=
  QResult mk (fun _ => 2) barRegs (fun _ => 1) (fun (a : State × Req) s x f eff => CopyAccepts form a.1 a.2 s x f eff)
    (fun a _ x c f eff => copyAccept a.1 x c f (barRegs f) eff a.2)

/-- A matrix command with a parameter block completes where d4 and the queue have room and its block is accepted, in state t, as command m (R55, R353, R354). -/
def BlockResult (mk : FormQ → Instr) (kind : MKind) (build : State → Group → MCmd → Nat → MBuild) : Prop :=
  QResult mk (fun _ => 2) barRegs (fun _ => 1)
    (fun (a : State × MCmd) s x f eff => d4Full x.g = false ∧ queueWait s x.g = false ∧ ∃ (k : Nat) (m0 : MCmd) (b : Option Nat),
      blockChk s x.g (blkPtr x f eff) (ownBlock s x.g) = .go k ∧ earlierAt s x.g.id eff (.pool k) 64 = false ∧
      a.1 = consultBlock s x.g kind (memRdV s.mem k 64) ∧
      build a.1 x.g { freshCmd a.1 x eff kind with blk := k } (memRdV s.mem k 64) = .go m0 ∧
      (∀ q, barPtr x f eff = some q → isScratch q = true) ∧ BarOk a.1 x.g (barPtr x f eff) b ∧ a.2 = { m0 with bar := b })
    (fun a _ x c f eff => putCmd a.1 (putGM a.1 (schedQ (qDone x c f 2 (barRegs f)) x.g.pos 4 f 1 eff (15 - (cmdQueue a.1 (coreOf a.1 x.g)).length))) a.2)

/-- A lattice access completes where its lanes pass their checks: it is in flight on d5, a join released, a read to be acquired, a GCOUNT cell as one location (R148, R394, R395). -/
def LatResult (mk : FormM → Instr) (op : Nat) (kind : OpKind) (order : Order) : Prop :=
  MemResult mk op (fun _ => 2) (fun f => if kind = .jldn then 0 else regsOf (sizeBytes f)) (fun f => regsOf (sizeBytes f))
    (fun ats s x f eff => let y := ocWriteBackAll x
      latChk s y.g ((lanesOf eff).map (fun l => (l, (laneAddr y f l).1, (laneAddr y f l).2))) (some f.size.toNat) op = .go ats ∧ cntOf y.g 5 ≠ 63)
    (fun ats s x c f eff =>
      let y := ocWriteBackAll x
      let nB := if kind = .jldn then 0 else regsOf (sizeBytes f)
      let o := { opOfM y f s.nextId 5 kind (ats.map (fun a => laneOp a (rdRegs y f.b nB a.lane))) eff (wordM op f) with
        order := order, scope := .dev, size := if ats.any (fun a => isGcount s a.loc) then 64 else sizeBytes f }
      let s1 := addOp { putGM s (memDone y c f nB eff) with nextId := s.nextId + 1 } o
      if relOrder order then releaseAct s1 y.g else s1)

/-- JTRADE or JQRY completes where its pointer passes its checks: it is in flight on d5, its region's record used (R382, R388). -/
def LatCmdResult (mk : FormQ → Instr) (op : Nat) (nD : FormQ → Nat) (kind : FormQ → OpKind) : Prop :=
  QResult mk (fun _ => 2) (fun _ => 0) nD
    (fun ats s x f eff => latChk s x.g [((lowLane eff).getD 0, blkPtr x f eff, some (blkPtr x f eff))] none op = .go ats ∧ cntOf x.g 5 ≠ 63)
    (fun ats s x c f eff => launchPlain (consult s (coreOf s x.g) (partOf s x.g) (blkPtr x f eff)) (qDone x c f 2 0) (kind f) 5
      (ats.map (fun a => laneOp a [])) (dstOf x.g f.d f.sn) eff (wordQ op f))

/-- No HREQ command is in progress and no granule of the page is on the move (R440). -/
def HreqFree (s : State) (part gran : Nat) : Prop :=
  s.hcmd = none ∧ (pageOf (sizeOfPage s part gran) gran).any (fun n => (granAt (partAt s part) n).moving.isSome) = false
/-- The state with HREQ0 and HREQ1 holding a command (R440). -/
def hreqSet (s : State) (part gran cmd hpa : Nat) : State :=
  { s with hreq0 := BitVec.ofNat 64 (4096 * gran + part % 8), hreq1 := BitVec.ofNat 64 (hpa / 4096 * 4096 + cmd) }

/-- The partition an answer names (R438). -/
def ansPart (ans : PageAnswer) : Nat := bits ans.lo.toNat 47 45
/-- An answer with STATUS st, its reserved bits 0, for outstanding request r of a context that is the one it was made for (R438, R439). -/
def AnswerFor (s : State) (ans : PageAnswer) (r : PageReq) (st : Nat) : Prop :=
  (partAt s (ansPart ans)).preqs.find? (fun r => r.rid == bits ans.lo.toNat 31 0) = some r ∧ r.dead = false ∧
  bits ans.lo.toNat 44 42 = st ∧ bits ans.lo.toNat 41 32 = 0 ∧ ans.hi.toNat % 4096 = 0 ∧
  (getC s r.ctx).map Ctx.incarn = some (BitVec.ofNat 16 (bits ans.lo.toNat 63 48))

/-- It is the queue's turn with packet c, and no uncommitted batch or failed check stands in its way (R447, R448). -/
def TurnOf (s : State) (part queue : Nat) (c : CmdPkt) : Prop :=
  cmdTurn? s part queue = some c ∧ ((queueAt s part queue).inBatch = true → (queueAt s part queue).committed = true)

/-- Element e of a value under a type, at the type's element width (R159). -/
def elemAt (ty : Ty) (x e : Nat) : BitVec (tyElems ty).1 := BitVec.ofNat (tyElems ty).1 (x >>> (e * (tyElems ty).1))

/-! ## Steps -/

/-- The state as time has passed, the first group of the slice cycle's issue now its current one (R28). -/
def turned (s : State) : State :=
  let t := timePasses s
  { t with turn := t.turn.tail, cur := t.turn.head? }

/-- Group g has the turn, stands at the next instruction of clause c and issues it (R53). -/
def Standing (s : State) (g : Group) (c : Clause) : Prop :=
  s.agenda = [] ∧ (turned s).cur.bind (getG (turned s)) = some g ∧ canIssue (turned s) g = true ∧ g.phase = .inClause c

/-- The word at the instruction a standing group issues. -/
def wordAt (s : State) (g : Group) (c : Clause) : W64 := fetchAt (turned s) g (pcOf c)

/-- No trap was taken of group g on the way to t, in which it is h: its count of handled traps is as before and its grid is not marked to be killed (R282, R303). -/
def Untrapped (t : State) (g h : Group) : Prop :=
  getG t g.id = some h ∧ h.trapCount = g.trapCount ∧ (gridOf t h).map Grid.killDue = some false

/-! ## Frames -/

/-- A group's entry set and scheduled writes name registers and lanes that the group may have: distinct registers, dirty lanes within the width (R219). -/
def SetOk (g : Group) : Prop :=
  g.width ≤ 128 ∧ g.frame ≤ 2 ^ 16 ∧
  (∀ p ∈ g.pend, match p.w with
    | .vreg r vs _ => r < 2 ^ 16 ∧ ∀ v ∈ vs, v.1 < g.width
    | _ => True) ∧
  (match g.oc with
    | none => True
    | some o => ((o.ents.filterMap id).map OcEnt.reg).Nodup ∧ ∀ e ∈ o.ents.filterMap id, e.reg < 2 ^ 16 ∧ e.dirty &&& ~~~(fullMask g.width) = 0)

/-- The clean lanes of a filled entry hold what the frame holds: nothing has changed the frame behind the entry set (R224). -/
def CacheFresh (x : GM) : Prop :=
  ∀ r l e, ocEntOf x.g r = some e → e.filled = true → e.dirty.getLsbD l = false → l < x.g.width → nth e.vals l 0 = frameReg x.m x.g r l

/-- Every group but g is the same in t, and g is h. -/
def OnlyGroup (s t : State) (g h : Group) : Prop :=
  t.groups.map Group.id = s.groups.map Group.id ∧ (∀ i, i ≠ g.id → getG t i = getG s i) ∧ getG t g.id = some h

/-- Memory outside the register segment of group g reads the same in t (R215). -/
def OwnFrame (s t : State) (g : Group) : Prop := ∀ k, k / 2 ^ 64 ≠ keyBlock 2 g.id → memRd t.mem k = memRd s.mem k

/-- Beside the memory, the operations in flight and the groups, t differs from s in the records of writes alone: the strong writes (R138), and the history by which a racing read chooses and an acquire learns (log 19). -/
def RecordsOnly (s t : State) : Prop :=
  t = { s with mem := t.mem, ops := t.ops, groups := t.groups, strong := t.strong, past := t.past, stamp := t.stamp, fresh := t.fresh, knows := t.knows }

/-- What a lane's store does before its bytes are written: what it writes to host memory is remembered (R426), a release acts (R142), and a strong store takes its lines out of the core's L1 (R141). -/
def storeStart (s : State) (g : Group) (o : Op) (x : LaneOp) : State :=
  let s0 := if laneReach s o x == .host then (List.range o.size).foldl (fun s i => noteHost s o.g (locUp x.loc i)) s else s
  let s1 := performStart s0 g o
  match x.loc with
  | .uni p ua => if isStrong o then (unitsOf o x).foldl (fun s u => l1Strong s (coreOf s g) p (ua + u.1) u.2) s1 else s1
  | .pool _ | .lat _ _ _ | .peer _ _ _ | .mcast _ _ _ => s1

/-- The event that performs a lane of a store in flight: HOST_MEMORY_REQUEST where its bytes stand in host memory behind the link, STORE_PERFORMED elsewhere (R229, R426). -/
def storeEvent (s : State) (o : Op) (x : LaneOp) (bytes : W32) : Instr :=
  if laneReach s o x == .host then .hostMemoryRequest o.id (oneLane x.lane) else .storePerformed o.id ⟨oneLane x.lane, bytes⟩

/-- A scalar, mask or float-state register of g has changed on the way to h only by a write that g had scheduled (R56). -/
def OnlyLanded (g h : Group) : Prop :=
  (∀ n, (∀ p ∈ g.pend, ∀ v, p.w ≠ .sreg n v) → scal h n = scal g n) ∧
  (∀ n l, (∀ p ∈ g.pend, ∀ bs, p.w ≠ .kreg n bs) → kbit h n l = kbit g n l) ∧
  ((∀ p ∈ g.pend, ∀ f, p.w ≠ .flagsOr f ∧ p.w ≠ .flagsSet f) → h.flags = g.flags) ∧
  ((∀ p ∈ g.pend, ∀ f, p.w ≠ .trapenSet f) → h.trapen = g.trapen) ∧
  ((∀ p ∈ g.pend, ∀ b, p.w ≠ .scopeflagSet b) → h.scopeflag = g.scopeflag)

/-- No scheduled write of g goes to lane l of register r. -/
def NotDue (g : Group) (r l : Nat) : Prop :=
  ∀ p ∈ g.pend, match p.w with
    | .vreg q vs _ => q = r → ∀ v ∈ vs, v.1 ≠ l
    | _ => True

/-- A write of a format R instruction's destination: registers from D up, mask D or mask C, or float flags (R62, R186). -/
def OwnWrite (g : Group) (f : FormR) (w : RegWrite) : Prop :=
  match w with
  | .vreg r _ _ => r ∈ opdRegs g f.d 4
  | .sreg n _ => match f.d with
    | .s k => k.val ≤ n ∧ n < k.val + 4
    | _ => False
  | .kreg n _ => n = maskNo f.d ∨ n = maskNo f.c
  | .flagsOr _ => True
  | .flagsSet _ | .trapenSet _ | .scopeflagSet _ | .hintmissSet _ => False

/-- The format R fields of a lane ALU or float unit instruction (R153, R179). -/
def laneForm (i : Instr) : Option FormR :=
  match i with
  | .nop f | .mov f | .sel f | .iadd f | .isub f | .iaddc f | .isubb f | .ineg f | .iabs f | .imin f | .imax f | .imul f | .imulh f
  | .imad f | .imadw f | .idiv f | .irem f | .icmp f | .and f | .or f | .xor f | .not f | .andn f | .shl f | .shr f | .sar f | .rot f
  | .funnel f | .bfe f | .bfi f | .popc f | .clz f | .ctz f | .brev f | .bperm f | .lea f | .ptrmk f | .ptradd f | .ptrget f | .lshuf f
  | .lbcast f | .lvote f | .lscan f | .lreduce f | .kop f | .kmov f | .fadd f | .fsub f | .fmul f | .ffma f | .fmin f | .fmax f
  | .fminnum f | .fmaxnum f | .fcmp f | .fclass f | .frnd f | .ffrac f | .fscale f | .fgetexp f | .frcp f | .frsq f | .fsqrt f | .fdiv f
  | .fexp2 f | .flog2 f | .fsin f | .fcos f | .ftanh f | .fsigm f | .cvtf f | .cvti f | .cvtfi f | .fpack f | .funpack f | .qnt f
  | .dqnt f | .fdot2 f | .fdot4 f | .fdot8 f => some f
  | _ => none

/-- The registers that the sources A, B and C of a format R lane ALU or float unit instruction span, at a group width (R62, R155, R182). -/
def laneCounts (i : Instr) (w : Nat) : Nat × Nat × Nat :=
  match i with
  | .mov f | .ineg f | .iabs f | .not f | .popc f | .clz f | .ctz f | .brev f | .lscan f | .lreduce f | .fclass f | .frnd f | .ffrac f | .fgetexp f
  | .frcp f | .frsq f | .fsqrt f | .fexp2 f | .flog2 f | .fsin f | .fcos f | .ftanh f | .fsigm f | .cvti f | .qnt f => (tyN f.ty, 0, 0)
  | .sel f | .iadd f | .isub f | .iaddc f | .isubb f | .imin f | .imax f | .imul f | .imulh f | .idiv f | .irem f | .icmp f | .and f | .or f | .xor f
  | .andn f | .fadd f | .fsub f | .fmul f | .fmin f | .fmax f | .fminnum f | .fmaxnum f | .fcmp f | .fdiv f => (tyN f.ty, tyN f.ty, 0)
  | .imad f | .ffma f => (tyN f.ty, tyN f.ty, tyN f.ty)
  | .imadw f => (tyN f.ty, tyN f.ty, 2)
  | .shl f | .shr f | .sar f | .rot f | .lshuf f | .fscale f => (tyN f.ty, 1, 0)
  | .bfe f => (tyN f.ty, 1, 1)
  | .bfi f | .fpack f | .fdot2 f => (tyN f.ty, tyN f.ty, 1)
  | .funnel _ | .bperm _ | .fdot4 _ | .fdot8 _ => (1, 1, 1)
  | .dqnt _ => (1, 1, 0)
  | .funpack _ | .cvtfi _ => (1, 0, 0)
  | .lea _ => (2, 1, 0)
  | .ptrmk f => (if f.ext = 8 then 0 else 1, 2, 0)
  | .ptradd f => (2, tyN f.ty, 0)
  | .ptrget _ => (2, 0, 0)
  | .lbcast f => (tyN f.ty, if f.ext = 1 then 0 else 1, 0)
  | .lvote f => (if extN f = 2 then tyN f.ty else 0, 0, 0)
  | .kmov f => (if extN f = 1 then maskWords w else if extN f = 3 then 1 else 0, 0, 0)
  | .cvtf f => (tyN f.ty, if extN f / 32 = 3 then tyN f.ty else 0, 0)
  | _ => (0, 0, 0)

/-- The registers of an operand under its last-use bit (R66). -/
def markedBy (g : Group) (lu : Bool) (o : Opd) (n : Nat) : List Nat := if lu then opdRegs g o n else []

/-! ## Values -/

/-- A value that a cell of a lattice type may hold: of its size, and the one NaN in MINF32 (R374, R376). -/
def CellOk (ty c : Nat) : Prop := c < 2 ^ (8 * cellBytes ty) ∧ (ty = 3 → isNan32 c = true → c = 0x7FC00000)

/-- The integer (-1)^neg * m * 2^(e - k), for k at or below e. -/
def scaled (k : Int) (neg : Bool) (m : Nat) (e : Int) : Int := sgn neg (m * 2 ^ (e - k).toNat)

end Sys2Proof
end

