-- ==== Sys2Proof/Certificates/Slice0/Obligations.lean ====
section
/-! DEFINITION. Sys2Proof/Certificates/Slice0/Obligations.lean: the statements for the provers. -/

open Sys2Proof Sys2Proof.Machine

/-- The integer, bit, address and mask lane instructions whose registers lie in the frame complete: every effective lane gets the result its rule gives (R153-R168, R171, R177). -/
def Obligations.IntegerLaneResults : Prop :=
  LaneResult .mov 0x01 (fun f => spA f.ty 4) (fun f i => outV (let (w, n) := tyElems f.ty; i.a % 2 ^ (w * n))) ∧
  LaneResult .sel 0x04 (fun f => ⟨.val f.ty, .val f.ty, .msk, .val (tyN f.ty), 4⟩) (fun f i => outV (let (w, n) := tyElems f.ty; (if i.kc then i.a else i.b) % 2 ^ (w * n))) ∧
  LaneResult .imul 0x0D (fun f => spAB f.ty (mulLat f.ty)) (fun f i => outV (imulVal f.ty i.a i.b)) ∧
  LaneResult .imulh 0x0E (fun f => spAB f.ty (mulLat f.ty)) (fun f i => outV (imulhVal f.ty i.a i.b)) ∧
  LaneResult .imad 0x0F (fun f => spABC f.ty (mulLat f.ty)) (fun f i => outV (imadVal f.ty i.a i.b i.c)) ∧
  LaneResult .imadw 0x10 (fun f => ⟨.val f.ty, .val f.ty, .val .z64, .val 2, 5⟩) (fun f i => outV (imadwVal f.ty i.a i.b i.c)) ∧
  LaneResult .icmp 0x13 (fun f => ⟨.val f.ty, .val f.ty, .no, .msk, 4⟩) (fun f i => outK (combine (extN f / 8) (icmpVal f.ty (extN f % 8) i.a i.b) i.kd)) ∧
  LaneResult .and 0x14 (fun f => spAB f.ty 4) (fun _ i => outV (i.a &&& i.b)) ∧
  LaneResult .or 0x15 (fun f => spAB f.ty 4) (fun _ i => outV (i.a ||| i.b)) ∧
  LaneResult .xor 0x16 (fun f => spAB f.ty 4) (fun _ i => outV (i.a ^^^ i.b)) ∧
  LaneResult .not 0x17 (fun f => spA f.ty 4) (fun f i => outV (notVal f.ty i.a)) ∧
  LaneResult .andn 0x18 (fun f => spAB f.ty 4) (fun f i => outV (i.a &&& notVal f.ty i.b)) ∧
  LaneResult .bfe 0x1E (fun f => ⟨.val f.ty, .val .z32, .val .z32, .val (tyN f.ty), 4⟩) (fun f i => outV (bfeVal f.ty i.a i.b i.c)) ∧
  LaneResult .bfi 0x1F (fun f => ⟨.val f.ty, .val f.ty, .val .z32, .val (tyN f.ty), 4⟩) (fun f i => outV (bfiVal f.ty i.a i.b i.c)) ∧
  LaneResult .popc 0x20 (fun f => ⟨.val f.ty, .no, .no, .val 1, 4⟩) (fun f i => outV (popcBits (tyElems f.ty).1 i.a)) ∧
  LaneResult .clz 0x21 (fun f => ⟨.val f.ty, .no, .no, .val 1, 4⟩) (fun f i => outV (clzBits (tyElems f.ty).1 i.a)) ∧
  LaneResult .ctz 0x22 (fun f => ⟨.val f.ty, .no, .no, .val 1, 4⟩) (fun f i => outV (ctzBits (tyElems f.ty).1 i.a)) ∧
  LaneResult .brev 0x23 (fun f => spA f.ty 4) (fun f i => outV (brevBits (tyElems f.ty).1 i.a)) ∧
  LaneResult .bperm 0x24 (fun _ => spABC .b32 4) (fun _ i => outV (bpermVal i.a i.b i.c)) ∧
  LaneResult .lea 0x25 (fun _ => ⟨.val .b64, .val .z32, .no, .val 2, 4⟩) (fun f i => outV (leaVal f.ty i.a i.b (extN f))) ∧
  LaneResult .ptrget 0x28 (fun _ => ⟨.val .b64, .no, .no, .val 2, 4⟩) (fun f i => outV (ptrgetVal (extN f) i.a)) ∧
  LaneResult .kop 0x2E (fun _ => ⟨.msk, .msk, .no, .msk, 4⟩) (fun f i => outK (f.ext.getLsbD (2 * b2n i.ka + b2n i.kb)))

/-- The float lane instructions whose registers lie in the frame complete: every effective lane gets the result and the exceptions its rule gives (R181-R209). -/
def Obligations.FloatLaneResults : Prop :=
  LaneResult .fadd 0x30 (fun f => spAB f.ty 6) (fun f i => outF (elemF f.ty (fun t a b _ => faddVal t (mdOf f) (ftzOf f) a b) i.a i.b 0)) ∧
  LaneResult .fsub 0x31 (fun f => spAB f.ty 6) (fun f i => outF (elemF f.ty (fun t a b _ => fsubVal t (mdOf f) (ftzOf f) a b) i.a i.b 0)) ∧
  LaneResult .fmul 0x32 (fun f => spAB f.ty 6) (fun f i => outF (elemF f.ty (fun t a b _ => fmulVal t (mdOf f) (ftzOf f) a b) i.a i.b 0)) ∧
  LaneResult .ffma 0x33 (fun f => spABC f.ty 6) (fun f i => outF (elemF f.ty (fun t a b c => ffmaVal t (mdOf f) (ftzOf f) (f.ext.getLsbD 0) (f.ext.getLsbD 1) a b c) i.a i.b i.c)) ∧
  LaneResult .fmin 0x34 (fun f => spAB f.ty 6) (fun f i => outF (elemF f.ty (fun t a b _ => fminmaxVal t (ftzOf f) false a b) i.a i.b 0)) ∧
  LaneResult .fmax 0x35 (fun f => spAB f.ty 6) (fun f i => outF (elemF f.ty (fun t a b _ => fminmaxVal t (ftzOf f) true a b) i.a i.b 0)) ∧
  LaneResult .fminnum 0x36 (fun f => spAB f.ty 6) (fun f i => outF (elemF f.ty (fun t a b _ => fminmaxnumVal t (ftzOf f) false a b) i.a i.b 0)) ∧
  LaneResult .fmaxnum 0x37 (fun f => spAB f.ty 6) (fun f i => outF (elemF f.ty (fun t a b _ => fminmaxnumVal t (ftzOf f) true a b) i.a i.b 0)) ∧
  LaneResult .fcmp 0x38 (fun f => ⟨.val f.ty, .val f.ty, .no, .msk, 6⟩) (fun f i => let r := fcmpVal (tyFF f.ty) (ftzOf f) (f.ext.getLsbD 5) (extN f % 8) i.a i.b; ⟨0, combine (extN f / 8 % 4) r.1 i.kd, false, r.2⟩) ∧
  LaneResult .fclass 0x39 (fun f => ⟨.val f.ty, .no, .no, .val 1, 6⟩) (fun f i => outV (fclassVal (tyFF f.ty) (ftzOf f) i.a)) ∧
  LaneResult .frnd 0x3A (fun f => spA f.ty 6) (fun f i => outF (elemF f.ty (fun t a _ _ => frndVal t (mdOf f) (ftzOf f) (f.ext.getLsbD 0) a) i.a 0 0)) ∧
  LaneResult .ffrac 0x3B (fun f => spA f.ty 6) (fun f i => outF (elemF f.ty (fun t a _ _ => ffracVal t (ftzOf f) a) i.a 0 0)) ∧
  LaneResult .fscale 0x3C (fun f => ⟨.val f.ty, .val .s32, .no, .val 1, 6⟩) (fun f i => outF (fscaleVal (tyFF f.ty) (mdOf f) (ftzOf f) i.a i.b)) ∧
  LaneResult .fgetexp 0x3D (fun f => spA f.ty 6) (fun f i => outF (fgetexpVal (tyFF f.ty) (ftzOf f) i.a)) ∧
  LaneResult .frcp 0x3E (fun f => spA f.ty 14) (fun f i => outF (fnVal (tyFF f.ty) .rcp (ftzOf f) i.a)) ∧
  LaneResult .frsq 0x3F (fun f => spA f.ty 14) (fun f i => outF (fnVal (tyFF f.ty) .rsq (ftzOf f) i.a)) ∧
  LaneResult .fsqrt 0x40 (fun f => spA f.ty (divsqLat false f.ty)) (fun f i => outF (fsqrtVal (tyFF f.ty) (mdOf f) (ftzOf f) i.a)) ∧
  LaneResult .fdiv 0x41 (fun f => spAB f.ty (divsqLat true f.ty)) (fun f i => outF (fdivVal (tyFF f.ty) (mdOf f) (ftzOf f) i.a i.b)) ∧
  LaneResult .fexp2 0x42 (fun f => spA f.ty 14) (fun f i => outF (fnVal (tyFF f.ty) .exp2 (ftzOf f) i.a)) ∧
  LaneResult .flog2 0x43 (fun f => spA f.ty 14) (fun f i => outF (fnVal (tyFF f.ty) .log2 (ftzOf f) i.a)) ∧
  LaneResult .fsin 0x44 (fun f => spA f.ty 14) (fun f i => outF (fnVal (tyFF f.ty) .sin (ftzOf f) i.a)) ∧
  LaneResult .fcos 0x45 (fun f => spA f.ty 14) (fun f i => outF (fnVal (tyFF f.ty) .cos (ftzOf f) i.a)) ∧
  LaneResult .ftanh 0x46 (fun f => spA f.ty 14) (fun f i => outF (fnVal (tyFF f.ty) .tanh (ftzOf f) i.a)) ∧
  LaneResult .fsigm 0x47 (fun f => spA f.ty 14) (fun f i => outF (fnVal (tyFF f.ty) .sigm (ftzOf f) i.a)) ∧
  LaneResult .cvti 0x49 (fun f => ⟨.val f.ty, .no, .no, .val 1, 6⟩) (fun f i => outF (cvtiVal f.ty (codeFF (extN f)) (mdOf f) i.a)) ∧
  LaneResult .cvtfi 0x4A (fun f => ⟨.val (ffTy (extN f)), .no, .no, .val (tyN f.ty), 6⟩) (fun f i => outF (cvtfiVal (codeFF (extN f)) f.ty (mdOf f) (ftzOf f) i.a)) ∧
  LaneResult .fpack 0x4B (fun f => ⟨.val f.ty, .val f.ty, .val .b32, .val 1, 6⟩) (fun f i => outF (fpackVal f i.a i.b i.c)) ∧
  LaneResult .funpack 0x4C (fun _ => ⟨.val .b32, .no, .no, .val 1, 6⟩) (fun f i => outF (funpackVal f i.a)) ∧
  LaneResult .dqnt 0x4E (fun _ => ⟨.val .b32, .val .b32, .no, .val 1, 6⟩) (fun f i => outF (dqntVal f i.a i.b)) ∧
  LaneResult .fdot2 0x4F (fun f => ⟨.val f.ty, .val f.ty, .val .f32, .val 1, 7⟩) (fun f i => outF (dotVal3 f (.ff (tyFF f.ty)) 2 i.a i.b i.c)) ∧
  LaneResult .fdot4 0x50 (fun _ => ⟨.val .b32, .val .b32, .val .f32, .val 1, 7⟩) (fun f i => outF (dotVal3 f ((fmOf (extN f)).getD (.int 8)) 4 i.a i.b i.c)) ∧
  LaneResult .fdot8 0x51 (fun _ => ⟨.val .b32, .val .b32, .val .f32, .val 1, 7⟩) (fun f i => outF (dotVal3 f ((fmOf (extN f)).getD (.int 4)) 8 i.a i.b i.c)) ∧
  LaneResult .cvtf 0x48 (fun f => ⟨.val f.ty, if extN f / 32 = 3 then .val f.ty else .no, .no, .val 1, 6⟩)
    (fun f i => if extN f / 32 = 0 then outF (cvtfVal (tyFF f.ty) (codeFF (extN f % 32)) (mdOf f) (ftzOf f) i.a) else outV (signopVal (tyFF f.ty) (extN f / 32) i.a i.b))

/-- PTRMK and PTRADD complete where every effective lane makes a pointer (R169, R170, R487). -/
def Obligations.PointerResults : Prop :=
  WholeResultIf .ptrmk 0x26 (fun _ => true) (fun f => ⟨if f.ext = 8 then .no else .val .z32, .val .z64, .no, .val 2, 4⟩)
    (fun f i => (ptrmkVal (extN f) i.a i.b).isSome) (fun f i => outV ((ptrmkVal (extN f) i.a i.b).getD 0)) ∧
  WholeResultIf .ptradd 0x27 (fun _ => true) (fun f => ⟨.val .b64, .val f.ty, .no, .val 2, 4⟩)
    (fun f i => (ptrAdd i.a (elemInt f.ty (tyElems f.ty).1 i.b)).isSome) (fun f i => outV ((ptrAdd i.a (elemInt f.ty (tyElems f.ty).1 i.b)).getD 0))

/-- LSHUF, LBCAST, LVOTE, LSCAN, LREDUCE, QNT and every mode of KMOV complete where their rules on the group width hold; the cross-lane ones read at the last issued pass and land together (R172-R178, R205). -/
def Obligations.CrossLaneResults : Prop :=
  CrossResultIf .lshuf 0x29 (fun f g => !segTooWide f g) (fun f g => ⟨.val f.ty, .val .z32, .no, .val (tyN f.ty), 6 + wideLat g.width⟩)
    (fun f _ rd eff => eff.map (fun l => (l, outV (moved f.ty (match shufSrc (extN f % 4) (segOf f) (l % segOf f) (rd l).b with
      | some j => (rd (l - l % segOf f + j)).a
      | none => if f.ext.getLsbD 2 then 0 else (rd l).a))))) ∧
  CrossResultIf .lbcast 0x2A (fun _ _ => true) (fun f g => ⟨.val f.ty, if f.ext = 1 then .no else .val .z32, .no, .val (tyN f.ty), 4 + wideLat g.width⟩)
    (fun f w rd eff => eff.map (fun l => (l, outV (moved f.ty (rd (if f.ext = 1 then eff.headD 0 else (rd (eff.headD 0)).b % w)).a)))) ∧
  CrossResultIf .lvote 0x2B (fun f g => !(extN f == 3 && wordsMis g f.d))
    (fun f g => ⟨if extN f = 2 then .val f.ty else .msk, .no, .no, if extN f = 3 then .val (maskWords g.width) else .msk, 4 + wideLat g.width⟩)
    (fun f _ rd eff => eff.map (fun l => (l, ⟨(maskOf (eff.filter (fun l => (rd l).ka))).toNat, match extN f with
      | 0 => eff.all (fun l => (rd l).ka)
      | 1 => eff.any (fun l => (rd l).ka)
      | _ => eff.all (fun l => (rd l).a == (rd (eff.headD 0)).a), false, 0⟩))) ∧
  CrossResultIf .lscan 0x2C (fun f g => !segTooWide f g) (fun f g => ⟨.val f.ty, .no, .no, .val (tyN f.ty), scanLat f.ty g.width⟩)
    (fun f w rd eff => (segLanes (segOf f) w eff).flatMap (fun ls =>
      let rs := scanRun f none (ls.map (fun l => (rd l).a))
      ls.zip (if f.ext.getLsbD 3 then outV (scanIdent (extN f % 8) f.ty) :: rs.map outF else rs.map outF))) ∧
  CrossResultIf .lreduce 0x2D (fun f g => !segTooWide f g) (fun f g => ⟨.val f.ty, .no, .no, .val (tyN f.ty), scanLat f.ty g.width⟩)
    (fun f w rd eff => (segLanes (segOf f) w eff).flatMap (fun ls =>
      ls.map (fun l => (l, outF ((scanRun f none (ls.map (fun l => (rd l).a))).getLastD (0, 0)))))) ∧
  CrossResultIf .qnt 0x4D (fun f g => decide (qntLen f ≤ g.width)) (fun f g => ⟨.val f.ty, .no, .no, .val 2, 10 + wideLat g.width⟩)
    (fun f w rd eff => (segLanes (qntLen f) w eff).flatMap (fun ls =>
      let r := encBlock (extN f) (ls.map (fun l => fdecZ (tyFF f.ty) (ftzOf f) (rd l).a))
      ls.zip (r.2.1.map (fun e => outF (e.1 + 2 ^ 32 * r.1, e.2 ||| r.2.2))))) ∧
  LaneResultIf .kmov 0x2F (fun f _ => extN f == 0) (fun _ _ => ⟨.msk, .no, .no, .msk, 4⟩) (fun _ _ i => outK i.ka) ∧
  CrossResultIf .kmov 0x2F (fun f g => extN f == 1 && !wordsMis g f.a) (fun _ g => ⟨.regs (maskWords g.width), .no, .no, .msk, 4 + wideLat g.width⟩)
    (fun _ _ rd eff => eff.map (fun l => (l, outK (bit (rd l).a l)))) ∧
  CrossResultIf .kmov 0x2F (fun f g => extN f == 2 && !wordsMis g f.d) (fun _ g => ⟨.msk, .no, .no, .val (maskWords g.width), 4 + wideLat g.width⟩)
    (fun _ w rd eff => eff.map (fun l => (l, outV (maskOf ((List.range w).filter (fun l => (rd l).ka))).toNat))) ∧
  LaneResultIf .kmov 0x2F (fun f _ => extN f == 3) (fun _ _ => ⟨.val .b32, .no, .no, .msk, 4⟩) (fun _ _ i => outK (i.a != 0)) ∧
  LaneResultIf .kmov 0x2F (fun f _ => decide (4 ≤ extN f)) (fun _ _ => ⟨.msk, .no, .no, .val 1, 4⟩) (fun _ _ i => outV (if i.ka then 2 ^ 32 - 1 else 0))

/-- NOP takes one issue position; MOVI and MOVH write their immediates, GETS a special register, TINFO a field of the trap record, and PTRCHK the outcome of a pointer check (R158, R274-R277, R290, R248). -/
def Obligations.ReadMoveResults : Prop :=
  (∀ (s : State) (g : Group) (c : Clause) (f : FormI), Issues s g c → frameFail g [(f.d, tyN f.ty)] = none →
    exec (.movi f) s = .next (laneDone s c f.gd (wordI 0x02 f) (lanePasses (gmOf s g) (regsOfI f) ⟨.no, .no, .no, .val (tyN f.ty), 4⟩ (fun _ _ => outV (moviVal f.ty f.imm))))) ∧
  (∀ (s : State) (g : Group) (c : Clause) (f : FormI), Issues s g c → frameFail g [(f.d, 2)] = none →
    exec (.movh f) s = .next (laneDone s c f.gd (wordI 0x03 f) (lanePasses (gmOf s g) { regsOfI f with d := oddOf f.d } ⟨.no, .no, .no, .val 1, 4⟩ (fun _ _ => outV f.imm.toNat)))) ∧
  (∀ (s : State) (g : Group) (c : Clause) (f : FormR), Issues s g c → mustResync s f g = false → f.ext ≠ 0x14 → (f.ext = 0x0C → wordsMis g f.d = false) →
    frameFail g (laneOpds f ⟨.no, .no, .no, .val (specWords g f.ext.toNat), 4⟩) = none →
    exec (.gets f) s = .next (laneDone s c f.gd (wordR 0x8C f) (lanePasses (gmOf s g) f ⟨.no, .no, .no, .val (specWords g f.ext.toNat), 4⟩
      (fun g' i => outV (specVal s g' (timeRead s g) f.ext.toNat i.l))))) ∧
  (∀ (s : State) (g : Group) (c : Clause) (f : FormR), Issues s g c → mustResync s f g = false → f.ext = 0x14 → frameFail g (laneOpds f ⟨.no, .no, .no, .val 2, 4⟩) = none →
    exec (.gets f) s = .next (
      let t := timeRead s g
      let s1 := modG s g.id (fun g => { g with lastTime := t })
      laneDone s1 c f.gd (wordR 0x8C f) (lanePasses (gmOf s1 { g with lastTime := t }) f ⟨.no, .no, .no, .val 2, 4⟩ (fun g' i => outV (specVal s1 g' t 0x14 i.l))))) ∧
  LaneResultIf .tinfo 0x93 (fun f g => !((f.ext.toNat % 16 == 4 || f.ext.toNat % 16 == 7) && wordsMis g f.d))
    (fun f g => ⟨.no, .no, .no, .val (tinfoWords g (f.ext.toNat % 16)), 4⟩) (fun f g _ => outV (tinfoVal g.trec (f.ext.toNat % 16))) ∧
  (∀ (s : State) (g : Group) (c : Clause) (f : FormR), Issues s g c → frameFail g (laneOpds f ⟨.val .b64, .cold .z32, .no, .msk, 6⟩) = none →
    let t := consultAll s g ((lanesOf (effFirst s g f.gd)).map (rdOpd (due s g) f.a .b64))
    (lanesOf (effFirst s g f.gd)).all (fun l => match checkPtr t g (rdOpd (due s g) f.a .b64 l) (max 1 (rdOpd (due s g) f.b .z32 l)) 0 false with
      | .missObj _ => false
      | .ok _ | .bad | .missRegion _ => true) = true →
    exec (.ptrchk f) s = .next (laneDone t c f.gd (wordR 0x75 f) (lanePasses (gmOf t g) f ⟨.val .b64, .cold .z32, .no, .msk, 6⟩
      (fun _ i => outK (ptrPasses t g i.a (max 1 i.b) (f.ext.extractLsb' 0 4)))))) ∧
  (∀ (s : State) (g : Group) (c : Clause) (f : FormR), Issues s g c → exec (.nop f) s = .next (finish1 s (bump (due s g) 1) c f.gd.sw))

/-- LD, LDNP, LDB, ST, ATOM, ACAS and RED whose lanes pass their checks are in flight after they issue, with their places, data, order and scope, and their dependency counter raised (R54, R117, R121, R232-R236). -/
def Obligations.LoadStoreIssueResults : Prop :=
  LoadResult .ld 0x60 false false ∧
  LoadResult .ldnp 0x62 true false ∧
  LoadResult .ldb 0x63 false true ∧
  WriteResult .st 0x61 (fun f => regsOf (sizeBytes f)) (fun _ => 0) 1 2 (fun _ => .st) false (fun _ _ => false) ∧
  WriteResult .atom 0x64 (fun f => regsOf (sizeBytes f)) (fun f => regsOf (sizeBytes f)) 2 11 (fun f => .atom f.sub) true (fun l p => atomRefuse l p || isMcast l) ∧
  WriteResult .acas 0x65 (fun f => 2 * regsOf (sizeBytes f)) (fun f => regsOf (sizeBytes f)) 2 11 (fun _ => .acas) true (fun l p => atomRefuse l p || isMcast l) ∧
  WriteResult .red 0x66 (fun f => regsOf (sizeBytes f)) (fun _ => 0) 2 10 (fun f => .red f.sub) true atomRefuse

/-- FENCE with nothing to wait for, PRES, ADVISE, LPIN, LUNPIN, LINV and LWB complete with their effects (R130, R142, R239, R241, R249). -/
def Obligations.FenceAndL1ControlResults : Prop :=
  MemResult .fence 0x67 (fun _ => 0) (fun _ => 0) (fun _ => 0) (fun (_ : Unit) s x f _ => relOrder f.order = true → fenceDrained s x.g f.scope = true)
    (fun _ s x c f eff => fenceGo s x c f eff) ∧
  MemResult .pres 0x73 (fun _ => 2) (fun _ => 0) (fun _ => 1)
    (fun ats s x f eff => chkAll (fun _ _ => false) ((lanesOf eff).map (presLane s x f)) = .go ats ∧ cntOf x.g 0 ≠ 63)
    (fun ats s x c f eff => launch s (memDone x c f 0 eff)
      { opOfM x f s.nextId 0 .pres (ats.map (fun a => laneOp a [])) eff (wordM 0x73 f) with order := .rlx, scope := .grp } f.gd.sw) ∧
  MemResult .advise 0x76 (fun _ => 2) (fun _ => 1) (fun _ => 0) (fun (_ : Unit) s x f eff => (lanesOf eff).findSome? (l1Miss s x f) = none)
    (fun _ s x c f eff => modP (putGM s (memDone x c f 1 eff)) (partOf s x.g) (fun p => { p with grans := p.grans.map (fun g =>
      if ((lanesOf eff).filterMap (adviseLane s x f)).any (fun r => decide (r.1 ≤ g.num) && decide (g.num ≤ r.2)) then { g with advice := f.sub.toNat + 1 } else g) })) ∧
  MemResult .lpin 0x6F (fun _ => 2) (fun _ => 0) (fun _ => 0) (fun (_ : Unit) s x f eff => L1Free s x f 1 eff)
    (fun _ s x c f eff =>
      let r := ((lanesOf eff).map (fun l => (l, l1Lane s x f 1 l))).foldl (pinLane x.g.ctx (partOf s x.g) (sizeBytes f)) (putGM s x, [])
      modGM r.1 x.g.id (fun y => memDone (schedMask y y.g.pos 8 f.d eff (fun l => r.2.any (fun b => b.1 == l && b.2))) c f 0 eff)) ∧
  MemResult .lunpin 0x70 (fun _ => 2) (fun _ => 0) (fun _ => 0) (fun (_ : Unit) s x f eff => L1Free s x f 0 eff)
    (fun _ s x c f eff => l1Lines (putGM s (memDone x c f 0 eff)) x.g.ctx (partOf s x.g) (sizeBytes f) ((lanesOf eff).map (fun l => (l, l1Lane s x f 0 l)))
      false (fun l => some { l with pinned := false })) ∧
  MemResult .linv 0x71 (fun _ => 2) (fun _ => 0) (fun _ => 0) (fun (_ : Unit) s x f eff => L1Free s x f 0 eff)
    (fun _ s x c f eff => l1Lines (putGM s (memDone x c f 0 eff)) x.g.ctx (partOf s x.g) (sizeBytes f) ((lanesOf eff).map (fun l => (l, l1Lane s x f 0 l)))
      false (fun _ => none)) ∧
  MemResult .lwb 0x72 (fun _ => 2) (fun _ => 0) (fun _ => 0) (fun (_ : Unit) s x f eff => L1Free s x f 0 eff)
    (fun _ s x c f eff => l1Lines (putGM s (memDone x c f 0 eff)) x.g.ctx (partOf s x.g) (sizeBytes f) ((lanesOf eff).map (fun l => (l, l1Lane s x f 0 l)))
      true (fun l => some { l with written := 0 }))

/-- PGROW, PSHRINK, FGROW and FSHRINK go to the allocator and complete at its answer with D the old or new size; OCFILL, OCDROP and OCSYNC act on the entry set; OBJQ is in flight with its words (R225-R227, R243-R247). -/
def Obligations.PoolControlResults : Prop :=
  (∀ mk op, (mk, op) ∈ [(Instr.pgrow, 0x68), (Instr.pshrink, 0x69), (Instr.fgrow, 0x6A), (Instr.fshrink, 0x6B)] →
    OnceResult mk (fun _ => allocSpec) (fun (_ : Unit) _ _ _ _ => True) (fun _ s x _ f eff =>
      modCore (modG (putGM s x) x.g.id (fun g => { g with park := .alloc })) (coreOf s x.g) (fun k => { k with alloc := k.alloc ++
        [{ g := x.g.id, op := op, f := f, amount := rdOpd x f.a .z32 ((lowLane eff).getD 0), eff := eff, since := 0 }] }))) ∧
  (∀ (s : State) (core : Nat) (r : AllocReq) (rest : List AllocReq) (g : Group) (c : Ctx) (old k : Nat) (new : Int),
    (coreAt s core).alloc = r :: rest → getG s r.g = some g → ctxOf s g = some c → waitsAlloc g = true →
    let s1 := modCore s core (fun k => { k with alloc := rest })
    allocPlan s1 r g c = (old, new, k, true) →
    (r.grow = false → copiesIn s1 (shrinkRange r g c new.toNat).1 (shrinkRange r g c new.toNat).2 = false) →
    exec (.allocatorAnswer core) s = .next (allocFinish (allocApply (allocTouch s1 r g.id) r g c old new.toNat k) r g.id true (if r.grow then old else new.toNat))) ∧
  OnceResult .ocfill ocSpec (fun (_ : Unit) _ x _ _ => cntOf x.g 7 ≠ 63) (fun _ s x c f eff =>
    let t := touchAll x (ocRegs x.g f)
    let s1 := launchPlain s (onceDone t.1 c f (ocSpec f) eff) .ocfill 7 (t.2.map (fun r => valLane r [])) .none eff (wordR 0x6C f)
    if t.2.isEmpty then opEnd s1 s.nextId else s1) ∧
  OnceResult .ocdrop ocSpec (fun (_ : Unit) _ x _ _ => cntOf x.g 7 ≠ 63) (fun _ s x c f eff =>
    launchPlain s (onceDone ((ocRegs x.g f).foldl (ocDrop1 (f.ext.getLsbD 3)) x) c f (ocSpec f) eff) .ocdrop 7 [] .none eff (wordR 0x6D f)) ∧
  OnceResult .ocsync (fun _ => noSpec) (fun (_ : Unit) _ x _ _ => cntOf x.g 7 ≠ 63) (fun _ s x c f eff =>
    launchPlain s (onceDone (ocWriteBackAll x) c f noSpec eff) .ocsync 7 [] .none eff (wordR 0x6E f)) ∧
  (∀ (s : State) (g : Group) (c : Clause) (f : FormR), let sp : LaneSpec := ⟨.val .b64, .no, .no, .val (if f.ext = 0 then 2 else 1), 0⟩
    let x := dueTouched s g f sp
    let ps := (lanesOf (effAt s g f.gd)).map (fun l => (l, rdOpd (atPass x f.gd l) f.a .b64 l))
    let t := consultAll s x.g ((ps.map (·.2)).filter (fun p => ptrSpace p == 1))
    Issues s g c → frameFail g (laneOpds f sp) = none → effAt s g f.gd ≠ 0 →
    ps.all (fun p => (objqLane t x.g (f.ext.toNat % 4) p.2).1.isNone) = true → cntOf x.g 0 ≠ 63 →
    exec (.objq f) s = .next (launchPlain t (onceDone x c f sp (effAt s g f.gd)) (.objq f.ext.toNat) 0
      (ps.map (fun p => valLane p.1 (objqLane t x.g (f.ext.toNat % 4) p.2).2)) (dstOf x.g f.d f.sn) (effAt s g f.gd) (wordR 0x74 f)))

/-- BRA, BRC, LOOP, BRX, CALL, CALLX, RET, FSPAWN and BCONT complete: the effective lanes of the issuing fibre go to the targets their rules give, the others to the fall-through clause (R257, R262-R269, R318). -/
def Obligations.TransferResults : Prop :=
  JumpResult effAt .bra (fun _ _ _ _ => True) (fun s x c f eff t => branched s x c eff f.gd.sw (jUni c f) (fun _ => ⟨t, wbaseOf x.g⟩)) ∧
  JumpResult effAt .brc (fun _ _ _ _ => True)
    (fun s x c f eff t => branched s x c eff f.gd.sw (jUni c f) (fun l => ⟨if jCond (atPass x f.gd l).g f l then t else fallThrough c, wbaseOf x.g⟩)) ∧
  JumpResult effAt .loop (fun _ _ _ _ => True) (fun s x c f eff t =>
    let n := f.opd.toNat - 0xC0
    branched s (sched x (x.g.pos + 4) (.sreg n (scal x.g n - 1))) c eff f.gd.sw (jUni c f) (fun _ => ⟨if scal x.g n - 1 = 0 then fallThrough c else t, wbaseOf x.g⟩)) ∧
  JumpResult effFirst .call (fun _ x f eff => wbaseOf x.g + f.opd.toNat < x.g.frame ∧ fullLanes x.g eff = 0)
    (fun s x c f eff t => called s x c eff f.opd.toNat f.gd.sw (jUni c f) (fun _ => t)) ∧
  JumpResult effAt .fspawn (fun _ _ _ _ => True) (fun s x c f eff t =>
    let m := maskOf ((lanesOf (x.g.idle &&& fullMask x.g.width)).filter (jCond x.g f))
    let g := if m = 0 then x.g else { clearRets x.g m with idle := x.g.idle &&& ~~~m, fibres := x.g.fibres ++
      [{ pc := t, pred := m, wbase := wbaseOf x.g, waitc := 0, wake := none, hnd := (x.g.cur.map Fibre.hnd).getD false, rem := none }] }
    finish1 s (bump { x with g := g } (posCount g (issuedPasses g eff))) c f.gd.sw) ∧
  (∀ (s : State) (g : Group) (c : Clause) (f : FormJ) (gr : Grid) (q k : Nat), Issues s g c → gridOf s g = some gr → targetOk s gr (jTarget c f) = true →
    effAt s g f.gd ≠ 0 → frameFail (due s g).g [(bcontOpnd f, 2)] = none →
    let x := (opdRegs (due s g).g (bcontOpnd f) 2).foldl (fun x r => touchReg x true r) (due s g)
    let p := rdOpd x (bcontOpnd f) .b64 ((lowLane (effAt s g f.gd)).getD 0)
    objPlace p 32 (checkPtr s x.g p 32 0 true) = .go q k → scrKey x.g.ctx 0 ≤ k → k < scrKey x.g.ctx (2 ^ 32) →
    (if f.cn then earlierAny s x.g.id (effAt s g f.gd) else earlierAt s x.g.id (effAt s g f.gd) (.pool k) 32) = false → objInit (objRd s k) = true →
    exec (.bcont f) s = .next (
      let s1 := putGM s { x with g := advance (bump x (posCount x.g (issuedPasses x.g (effAt s g f.gd)))).g c f.gd.sw }
      let s2 := if f.cn then releaseAct s1 x.g else s1
      let s3 := register s2 x.g k (jTarget c f).toNat (effAt s g f.gd)
      if f.cn then (objUpdate s3 x.g.ctx k ⟨true, 0, 0, false, 0, false⟩ { partyOf s3 x.g .team with view := lanesView s3 x.g.id (lanesOf (effAt s g f.gd)) }).1 else s3)) ∧
  FirstResult .brx (fun _ => a32Spec)
    (fun (_ : Unit) s x f eff => badTarget s (touchSrc x f a32Spec).g ((lanesOf eff).map (fun l => rdOpd (touchSrc x f a32Spec) f.a .z32 l)) = none)
    (fun _ s x c f eff => let y := touchSrc x f a32Spec
      branched s (dropLu y f a32Spec) c eff f.gd.sw c.u (fun l => ⟨rdOpd y f.a .z32 l, wbaseOf (dropLu y f a32Spec).g⟩)) ∧
  FirstResult .callx (fun _ => a32Spec)
    (fun (_ : Unit) s x f eff => badTarget s (touchSrc x f a32Spec).g ((lanesOf eff).map (fun l => rdOpd (touchSrc x f a32Spec) f.a .z32 l)) = none ∧
      wbaseOf (dropLu (touchSrc x f a32Spec) f a32Spec).g + f.ext.toNat < (dropLu (touchSrc x f a32Spec) f a32Spec).g.frame ∧
      fullLanes (dropLu (touchSrc x f a32Spec) f a32Spec).g eff = 0)
    (fun _ s x c f eff => let y := touchSrc x f a32Spec
      called s (dropLu y f a32Spec) c eff f.ext.toNat f.gd.sw c.u (fun l => rdOpd y f.a .z32 l)) ∧
  FirstResult .ret (fun _ => noSpec) (fun (_ : Unit) _ x _ eff => (lanesOf eff).all (fun l => !(nth x.g.rets l []).isEmpty) = true)
    (fun _ s x c f eff =>
      let t := fun l => (nth x.g.rets l []).headD ⟨0, 0⟩
      let g := { transfer x.g c eff t with rets := (lanesOf eff).foldl (fun rs l => rs.modify l List.tail) x.g.rets }
      putGM s (endClause { x with g := hintMiss g c.u eff t } eff f.gd.sw false false))

/-- FEND, FYIELD, EXIT and SLEEP end their clause with their effect on the issuing fibre and its lanes; SETS schedules its special register (R270-R272, R278). -/
def Obligations.FibreAndRegisterControlResults : Prop :=
  OnceResult .fend (fun _ => noSpec) (fun (_ : Unit) _ _ _ _ => True)
    (fun _ s x c f eff => putGM s (endClause { x with g := { leaveFibre x.g c eff with idle := x.g.idle ||| eff } } eff f.gd.sw false false)) ∧
  OnceResult .fyield (fun _ => noSpec) (fun (_ : Unit) _ _ _ _ => True)
    (fun _ s x c f eff => putGM s (endClause { x with g := fallOn x.g c } eff f.gd.sw false true)) ∧
  OnceResult .exit (fun _ => noSpec) (fun (_ : Unit) _ _ _ _ => True)
    (fun _ s x c f eff => putGM s (endClause { x with g := { leaveFibre x.g c eff with exited := x.g.exited ||| eff } } eff f.gd.sw false false)) ∧
  OnceResult .sleep (fun _ => a32Spec) (fun (_ : Unit) _ _ _ _ => True) (fun _ s x0 c f eff =>
    let x := touchSrc x0 f a32Spec
    let a := rdOpd x f.a .z32 ((lowLane eff).getD 0)
    let y : Group := { fallOn (wakeFibres (timeRead s x.g) x.g) c with lastTime := timeRead s x.g }
    let full := decide (32 ≤ (y.fibres.filter (fun h => h.wake.isSome)).length)
    let g := if full || a = 0 then y else { y with cur := y.cur.map (fun h => { h with wake := some (timeRead s x.g + a) }) }
    putGM s (endClause (dropLu { x with g := g } f a32Spec) eff f.gd.sw false full)) ∧
  OnceResult .sets (fun _ => a32Spec) (fun (_ : Unit) _ _ _ _ => True) (fun _ s x0 c f eff =>
    let x := touchSrc x0 f a32Spec
    putGM s (onceDone (sched x (x.g.pos + 4) (specWrite f.ext.toNat (BitVec.ofNat 32 (rdOpd x f.a .z32 ((lowLane eff).getD 0))))) c f a32Spec eff))

/-- TRAP takes the user trap behind the clause, TRET in handler mode resumes the trapped fibre, TMASK sets the handler registers, TSUB writes the trapped instruction's destination (R288, R289, R291, R292). -/
def Obligations.TrapInstructionResults : Prop :=
  OnceResult .trap (fun _ => noSpec) (fun (_ : Unit) _ _ _ _ => True) (fun _ s x c f eff =>
    modG (takeTrap (putGM s x) x.g.id 0x11 f.ext.toNat eff 0 (wordR 0x90 f) (pcOf c) (fallThrough c) none) x.g.id
      (fun g => if f.gd.sw then { g with park := .sw } else g)) ∧
  OnceResult .tret (fun _ => noSpec)
    (fun (t : Fibre) _ x f _ => x.g.hMode = true ∧ x.g.trapped = some t ∧ (f.ext.getLsbD 0 && x.g.trec.resume == x.g.trec.pc && t.rem.isNone) = false)
    (fun t s x _ f _ =>
      let p := resumePoint t (landAll x).g.trec (f.ext.getLsbD 0)
      let g := returnTrap (landAll x).g p.1 p.2
      putGM s { landAll x with g := if f.gd.sw then { g with park := .sw } else { g with park := .none } }) ∧
  OnceResult .tmask (fun _ => tmaskSpec)
    (fun (gr : Grid) s x f eff => gridOf s (touchSrc x f tmaskSpec).g = some gr ∧
      targetOk s gr (rdOpd (touchSrc x f tmaskSpec) f.a .z32 ((lowLane eff).getD 0) : Int) = true)
    (fun _ s x f' f eff =>
      let x := touchSrc x f tmaskSpec
      let l := (lowLane eff).getD 0
      let y := onceDone x f' f tmaskSpec eff
      putGM s { y with g := { y.g with hEntry := rdOpd x f.a .z32 l, hMask := BitVec.ofNat 32 (rdOpd x f.b .z32 l &&& 0x000FFFFE), hShift := f.ext.toNat } }) ∧
  OnceResult .tsub tsubSpec (fun (_ : Unit) _ x f _ => (touchSrc x f (tsubSpec f)).g.hMode = true ∧ trappedDst (touchSrc x f (tsubSpec f)).g = none)
    (fun _ s x c f eff => putGM s (onceDone (touchSrc x f (tsubSpec f)) c f (tsubSpec f) eff)) ∧
  OnceResult .tsub tsubSpec
    (fun (d : Opd × Nat) _ x f _ =>
      let y := touchSrc x f (tsubSpec f)
      y.g.hMode = true ∧ trappedDst y.g = some d ∧ f.ext.toNat % 8 ≤ d.2 ∧
      (tyN f.ty = 2 → isMask d.1 = false → (regNo d.1 + f.ext.toNat % 8) % 2 = 0) ∧
      (isVec d.1 = true → y.g.trec.wbase + regNo d.1 + f.ext.toNat % 8 + tyN f.ty ≤ y.g.frame))
    (fun d s x c f eff =>
      let y := touchSrc x f (tsubSpec f)
      let m := eff &&& y.g.trec.lanes
      putGM s (onceDone ((issuedPasses y.g eff).zipIdx.foldl (fun z p =>
        tsubPass z f d.1 (tyN f.ty) (x.g.pos + p.2 + 4) ((p.1.filter (fun l => m.getLsbD l)).head? == lowLane m)
          ((p.1.filter (fun l => m.getLsbD l)).map (fun l => (l, rdOpd (atPass x f.gd l) f.a f.ty l)))) y) c f (tsubSpec f) eff))

/-- CTXSAVE writes a halted context's image and releases its slots, CTXLOAD reads a saved one back into free slots, HALT fences its core or lets the agent idle, PREQ asks a context to halt (R299-R302, R490). -/
def Obligations.AgentControlResults : Prop :=
  OnceResult .ctxsave (fun _ => agentSpec)
    (fun (a : Ctx × Nat) s x f eff =>
      let y := touchSrc x f agentSpec
      let s0 := putGM s y
      ctxInStack s0 (stackOf s0 y.g) (rdOpd y f.a .z32 ((lowLane eff).getD 0)) = some a.1 ∧ a.1.core = coreOf s0 y.g ∧ a.1.state = .halted ∧
        saveAt s0 a.1 2 = some a.2 ∧ countersQuiet s0 a.1.id = true ∧ saveHeld s0 a.1 = false)
    (fun a s x c f eff =>
      let y := touchSrc x f agentSpec
      modGM (imagingMark false (saveCtx (putGM s y) a.1 a.2) y.g (rdOpd y f.a .z32 ((lowLane eff).getD 0))) y.g.id (fun z => onceDone (schedAll z z.g.pos 1 f 1 eff 0) c f agentSpec eff)) ∧
  OnceResult .ctxload (fun _ => agentSpec)
    (fun (a : Ctx × Nat × State) s x f eff =>
      let y := touchSrc x f agentSpec
      let s0 := putGM s y
      ctxInStack s0 (stackOf s0 y.g) (rdOpd y f.a .z32 ((lowLane eff).getD 0)) = some a.1 ∧ a.1.core = coreOf s0 y.g ∧ a.1.state = .saved ∧ a.1.faulted = false ∧
        saveAt s0 a.1 1 = some a.2.1 ∧ saveHeld s0 a.1 = false ∧ ((groupsOf s0 a.1.id).filter (fun g => !g.ended)).length ≤ (freeSlots s0 a.1.core).length ∧
        makeRoomFor s0 a.1.core a.1.evicted a.1.id = some a.2.2)
    (fun a s x c f eff =>
      let y := touchSrc x f agentSpec
      modGM (imagingMark false (loadCtx a.2.2 a.1 a.2.1 (freeSlots (putGM s y) a.1.core)) y.g (rdOpd y f.a .z32 ((lowLane eff).getD 0))) y.g.id (fun z => onceDone (schedAll z z.g.pos 1 f 1 eff 0) c f agentSpec eff)) ∧
  OnceResult .halt (fun _ => noSpec) (fun (_ : Unit) _ _ f _ => f.ext.getLsbD 0 = true)
    (fun _ s x c f eff => fenceCore (putGM s (onceDone x c f noSpec eff)) (coreOf s x.g)) ∧
  OnceResult .halt (fun _ => noSpec) (fun (_ : Unit) _ _ f _ => f.ext.getLsbD 0 = false)
    (fun _ s x c f eff => putGM s { onceDone x c f noSpec eff with g := parkAt (onceDone x c f noSpec eff).g (.agentIdle (s.tick + 65536)) f.gd.sw }) ∧
  OnceResult .preq (fun _ => preqSpec)
    (fun (k : Option Ctx) s x f eff => ctxInStack s (stackOf s (touchSrc x f preqSpec).g) (rdOpd (touchSrc x f preqSpec) f.a .z32 ((lowLane eff).getD 0)) = k)
    (fun k s x0 c f eff =>
      let x := touchSrc x0 f preqSpec
      let r := match k with
        | none => (s, 2)
        | some k => preqDo s k (f.ext.getLsbD 0)
      putGM r.1 (onceDone (schedAll x x.g.pos 4 f 1 eff r.2) c f preqSpec eff))

/-- TCLAIM, GDEC, QTAKE and QACK are in flight with what they ask; TPLACE answers from its core's reservation; PWRQ, PWRARM and VEERHOLD read and set the group's power and veer state (R461-R464, R475, R477, R486). -/
def Obligations.AgentAndPowerResults : Prop :=
  OnceResult .tclaim (fun _ => agentRd (.val .z32) .no) (fun (_ : Unit) _ x f _ => cntOf (touchSrc x f (agentRd (.val .z32) .no)).g 2 ≠ 63)
    (fun _ s x c f eff =>
      let y := touchSrc x f (agentRd (.val .z32) .no)
      let l := (lowLane eff).getD 0
      launchPlain s (onceDone y c f (agentRd (.val .z32) .no) eff) (.tclaim (rdOpd y f.a .z32 l)) 2 [valLane l []] (dstOf y.g f.d f.sn) eff (wordR 0xE0 f)) ∧
  OnceResult .gdec (fun _ => agentRd (.val .z32) .no) (fun (_ : Unit) _ x f _ => cntOf (touchSrc x f (agentRd (.val .z32) .no)).g 2 ≠ 63)
    (fun _ s x c f eff =>
      let y := touchSrc x f (agentRd (.val .z32) .no)
      let l := (lowLane eff).getD 0
      launchPlain s (onceDone y c f (agentRd (.val .z32) .no) eff) (.gdec (rdOpd y f.a .z32 l / 2 ^ 16) (rdOpd y f.a .z32 l % 2 ^ 16)) 2 [valLane l []] (dstOf y.g f.d f.sn) eff (wordR 0xE2 f)) ∧
  OnceResult .qack (fun _ => agentRd (.val .z32) (.val .z32)) (fun (_ : Unit) _ x f _ => cntOf (touchSrc x f (agentRd (.val .z32) (.val .z32))).g 2 ≠ 63)
    (fun _ s x c f eff =>
      let y := touchSrc x f (agentRd (.val .z32) (.val .z32))
      let l := (lowLane eff).getD 0
      launchPlain s (onceDone y c f (agentRd (.val .z32) (.val .z32)) eff) (.qack (rdOpd y f.a .z32 l) (rdOpd y f.b .z32 l)) 2 [valLane l []] (dstOf y.g f.d f.sn) eff (wordR 0xE4 f)) ∧
  OnceResult .qtake (fun _ => agentRd (.val .b64) .no)
    (fun (k : Nat) s x f eff =>
      let y := touchSrc x f (agentRd (.val .b64) .no)
      let p := rdOpd y f.a .b64 ((lowLane eff).getD 0)
      cntOf y.g 0 ≠ 63 ∧ isScratch p = true ∧ checkPtr s y.g p 64 2 false = .ok (.pool k))
    (fun k s x c f eff =>
      let y := touchSrc x f (agentRd (.val .b64) .no)
      let l := (lowLane eff).getD 0
      launchPlain s (onceDone y c f (agentRd (.val .b64) .no) eff) (.qtake (BitVec.ofNat 64 (rdOpd y f.a .b64 l))) 0
        [{ valLane l [] with loc := .pool k }] (dstOf y.g f.d f.sn) eff (wordR 0xE3 f)) ∧
  OnceResult .tplace (fun _ => agentRd (.val .z32) (.val .z32))
    (fun (_ : Unit) s x f eff =>
      let y := touchSrc x f (agentRd (.val .z32) (.val .z32))
      (match liveGrid s (partOf s y.g) (rdOpd y f.a .z32 ((lowLane eff).getD 0)) with
        | some g => teamCores g (coreOf s y.g)
        | none => [coreOf s y.g]).all (fun k => (coreAt s k).alloc.isEmpty) = true)
    (fun _ s x c f eff =>
      let y := touchSrc x f (agentRd (.val .z32) (.val .z32))
      let l := (lowLane eff).getD 0
      let num := rdOpd y f.a .z32 l
      let r := match f.ext.toNat % 4 with
        | 0 => placeRsv (putGM s y) (partOf s y.g) (coreOf s y.g) num
        | 1 => placeBind (putGM s y) (partOf s y.g) (coreOf s y.g) num (rdOpd y f.b .z32 l)
        | _ => placeFree (putGM s y) (coreOf s y.g)
      modGM r.1 y.g.id (fun z => onceDone (schedAll z z.g.pos 4 f 1 (oneLane l) r.2) c f (agentRd (.val .z32) (.val .z32)) eff)) ∧
  OnceResult .pwrq (fun _ => pwrqSpec) (fun (_ : Unit) _ _ _ _ => True)
    (fun _ s x c f eff => putGM s (onceDone (schedAll x x.g.pos 4 f 1 eff (pwrqVal s x.g (f.ext.toNat % 8))) c f pwrqSpec eff)) ∧
  OnceResult .pwrarm (fun _ => noSpec) (fun (_ : Unit) _ _ f _ => f.ext.getLsbD 0 = true)
    (fun _ s x c f eff => modT (putGM s { onceDone x c f noSpec eff with g := { (onceDone x c f noSpec eff).g with armed := true } }) x.g.team
      (fun t => { t with lastSeen := (partAt s (partOf s x.g)).thr.active })) ∧
  OnceResult .pwrarm (fun _ => noSpec) (fun (_ : Unit) _ _ f _ => f.ext.getLsbD 0 = false)
    (fun _ s x c f eff => putGM s { onceDone x c f noSpec eff with g := { (onceDone x c f noSpec eff).g with armed := false } }) ∧
  OnceResult .veerhold (fun _ => holdSpec) (fun (_ : Unit) _ _ _ _ => True)
    (fun _ s x0 c f eff =>
      let x := touchSrc x0 f holdSpec
      let gr := holdGrant s x.g (rdOpd x f.a .z32 ((lowLane eff).getD 0)) (timeRead s x.g)
      modT (putGM s (onceDone (schedAll x x.g.pos 4 f 1 eff gr) c f holdSpec eff)) x.g.team (fun y => { y with holdEnd := timeRead s x.g + gr }))

/-- BINIT initialises its object, BARV and BEXP send their updates, BWAIT and AWAIT park until their condition holds, WATCH is in flight, PAUSE parks or ends at once, TBAR, SBAR and GBAR arrive (R315-R324). -/
def Obligations.BarrierInstructionResults : Prop :=
  MemResult .binit 0xA0 (fun _ => 2) (fun _ => 2) (fun _ => 0)
    (fun (a : Nat × Nat) s x f eff =>
      let b := rdOpd x f.b .z64 ((lowLane eff).getD 0)
      objChk s x f ((lowLane eff).getD 0) = .go a.1 a.2 ∧ 0 < b % 65536 ∧ b / 65536 < 2 ^ 47 ∧
        earlierAt s x.g.id eff (.pool a.2) 32 = false ∧ imageHere s (ctxOfObj s a.2) = true ∧ objNamed s x.g.team a.2 = false)
    (fun a s x c f eff =>
      let b := rdOpd x f.b .z64 ((lowLane eff).getD 0)
      poolWr (forgetObj (putGM s (memDone x c f 2 eff)) a.2) a.2 (leBytes 32 (objPack 0 (b % 65536) (b % 65536) (b / 65536) (b / 65536) 0 false false true 0))) ∧
  MemResult .barv 0xA1 (fun _ => 2) (fun _ => 0) (fun _ => 1)
    (fun (a : Nat × Nat) s x f eff =>
      objChks ((if f.sub.getLsbD 0 then lanesOf eff else (lanesOf eff).take 1).map (fun l => (l, objChk s x f l))) = .go a.1 a.2 ∧ cntOf x.g 2 ≠ 63)
    (fun _ s x c f eff => updLaunch s x c f 0 eff (wordM 0xA1 f)
      (objAt ((if f.sub.getLsbD 0 then lanesOf eff else (lanesOf eff).take 1).map (fun l => (l, objChk s x f l)))) (fun _ _ => ⟨true, 0, 0, false, 0, false⟩)) ∧
  MemResult .bexp 0xA2 (fun _ => 2) (fun _ => 2) (fun _ => 1)
    (fun (a : Nat × Nat) s x f eff =>
      objChks (((lanesOf eff).take 1).map (fun l => (l, objChk s x f l))) = .go a.1 a.2 ∧ cntOf x.g 2 ≠ 63 ∧
      rdOpd x f.b .z64 ((lowLane eff).getD 0) < 2 ^ 47)
    (fun _ s x c f eff => updLaunch s x c f 2 eff (wordM 0xA2 f) (objAt (((lanesOf eff).take 1).map (fun l => (l, objChk s x f l))))
      (fun x l => ⟨f.sub.getLsbD 0, rdOpd x f.b .z64 l, 0, false, 0, f.sub.getLsbD 1⟩)) ∧
  MemResult .bwait 0xA3 (fun _ => 2) (fun _ => 1) (fun _ => 1)
    (fun (a : Nat × Nat) s x f eff => objChk s x f ((lowLane eff).getD 0) = .go a.1 a.2 ∧ earlierAt s x.g.id eff (.pool a.2) 32 = false ∧
      objInit (objRd s a.2) = true)
    (fun a s x c f eff =>
      let p := rdOpd x f.b .z32 ((lowLane eff).getD 0)
      let d := dstOf x.g f.d f.sn
      let s1 := parkWait (putGM s (memDone x c f 1 eff)) x.g.id (.bwait a.2 (BitVec.ofNat 64 a.1) (BitVec.ofNat 32 p) d eff f.scope) f.gd.sw
      if phasePast (objPhase (objRd s a.2)) p then phaseWake s1 x.g a.2 d eff f.scope false else s1) ∧
  MemResult .await 0xA5 (fun _ => 2) (fun f => if f.size = 3 then 2 else 1) (fun f => if f.size = 3 then 2 else 1)
    (fun (a : Nat × Nat × Nat) s x f eff => (laneAddr x f ((lowLane eff).getD 0)).2 = some a.2.2 ∧
      (match checkPtr s x.g a.2.2 (sizeBytes f) 0 true with
        | .ok (.lat _ _ _) => false
        | _ => true) = true ∧
      objPlace a.2.2 32 (checkPtr s x.g a.2.2 (sizeBytes f) 0 true) = .go a.1 a.2.1 ∧
      earlierAt s x.g.id eff (.pool a.2.1) 32 = false ∧ objInit (objRd s a.2.1) = true)
    (fun a s x c f eff =>
      let p := rdOpd x f.b .z32 ((lowLane eff).getD 0)
      let d := dstOf x.g f.d f.sn
      let s1 := parkWait (putGM s (memDone x c f (if f.size = 3 then 2 else 1) eff)) x.g.id
        (.awaitPhase a.2.1 (BitVec.ofNat 64 a.1) (BitVec.ofNat 32 p) d eff f.scope ((if f.size = 3 then 2 else 1) == 2)) f.gd.sw
      if phaseReached (objPhase (objRd s a.2.1)) p then phaseWake s1 x.g a.2.1 d eff f.scope ((if f.size = 3 then 2 else 1) == 2) else s1) ∧
  (∀ (s : State) (g : Group) (c : Clause) (f : FormM) (q part region off : Nat) (r : Region), Issues s g c →
    let nB := if f.size = 3 then 2 else 1
    frameFail g [(f.a, 2), (f.b, nB), (f.d, nB)] = none → effFirst s g f.gd ≠ 0 →
    let x := memAt s g 0xA5 f 2 nB
    let eff := effFirst s g f.gd
    let t := memFrom s g 0xA5 f
    (laneAddr x f ((lowLane eff).getD 0)).2 = some q → checkPtr t x.g q (sizeBytes f) 0 true = .ok (.lat part region off) →
    regionAt t part region = some r → off % cellBytes r.ty = 0 →
    earlierAt t x.g.id eff (.lat part region off) (max (sizeBytes f) (if isGcount t (.lat part region off) then 64 else 0)) = false →
    exec (.await f) s = .next (awaitCellState t x c (wordM 0xA5 f) f nB eff q part region off r)) ∧
  MemResult .watch 0xA6 (fun _ => 2) (fun _ => 0) (fun _ => 0)
    (fun (a : Nat × Loc) s x f eff => (laneAddr x f ((lowLane eff).getD 0)).2 = some a.1 ∧
      checkPtr s x.g a.1 (sizeBytes f) (if ptrSpace a.1 == 1 then 1 else 0) true = .ok a.2 ∧
      (ptrSpace a.1 = 1 ∨ ptrSpace a.1 = 8 ∨ ptrSpace a.1 = 2 ∨ ptrSpace a.1 = 3) ∧ cntOf x.g 0 ≠ 63)
    (fun a s x c f eff => addOp { putGM s (memDone x c f 0 eff) with nextId := s.nextId + 1 }
      { id := s.nextId, g := x.g.id, kind := .watch, ctr := 0, lanes := [laneOp ⟨(lowLane eff).getD 0, a.1, watchLoc a.2⟩ []], dst := .none, eff := eff, size := 1,
        hold := false, order := .rlx, scope := .grp, word := wordM 0xA6 f, mate := none, inc := 0, absent := false }) ∧
  OnceResult .pause (fun _ => pauseSpec) (fun (_ : Unit) _ _ _ _ => True)
    (fun _ s x0 c f eff =>
      let x := touchSrc x0 f a32Spec
      let a := rdOpd x f.a .z32 ((lowLane eff).getD 0)
      let d := dstOf x.g f.d f.sn
      let s1 := parkWait (putGM s (onceDone x c f a32Spec eff)) x.g.id (.pause (s.tick + (if a = 0 then 65536 else min a 65536)) d eff) f.gd.sw
      match x.g.watch with
      | some w => if w.armed then (match w.trig with
          | some r => pauseEnd s1 x.g.id d eff r
          | none => s1) else pauseEnd s1 x.g.id d eff 5
      | none => pauseEnd s1 x.g.id d eff 5) ∧
  OnceResult .tbar (fun _ => noSpec) (fun (_ : Unit) _ _ _ _ => True)
    (fun _ s x c f eff => modT (parkWait (putGM s (onceDone x c f noSpec eff)) x.g.id (.tbar (((getT s x.g.team).map Team.tInst).getD 0)) f.gd.sw) x.g.team
      (fun t => { t with tArr := t.tArr ++ [x.g.id] })) ∧
  OnceResult .sbar (fun _ => noSpec) (fun (_ : Unit) _ _ _ _ => True)
    (fun _ s x c f eff => modT (parkWait (putGM s (onceDone x c f noSpec eff)) x.g.id (.sbar (((getT s x.g.team).map Team.sInst).getD 0)) f.gd.sw) x.g.team
      (fun t => { t with sArr := t.sArr ++ [x.g.id] })) ∧
  OnceResult .gbar (fun _ => noSpec) (fun (_ : Unit) _ _ _ _ => True)
    (fun _ s x c f eff => modT (parkWait (putGM s (onceDone x c f noSpec eff)) x.g.id (.gbar (((getT s x.g.team).map Team.gInst).getD 0)) f.gd.sw) x.g.team
      (fun t => { t with gArr := t.gArr ++ [x.g.id] }))

/-- CPY, GATH, SCAT, CFILL, MMA and ADRAIN are accepted where their blocks pass the checks, AZERO, AMOV and AINS where their tiles do; ORSV makes a reservation, OREL releases one, OQRY answers (R335, R353-R362); that the value of OQRY is the one at its issue (log 44) and that D of a matrix command leaves out its own entry (log 105) are the model's readings. -/
def Obligations.EngineCommandResults : Prop :=
  CopyResult .cpy .cpy ∧ CopyResult .gath .gath ∧ CopyResult .scat .scat ∧ CopyResult .cfill .cfill ∧
  BlockResult .mma .mma mmaBuild ∧ BlockResult .adrain .adrain drainBuild ∧
  (∀ mk kind u v, (mk, kind, u, v) ∈ [(Instr.azero, MKind.azero, 16384, FormQ.d), (Instr.amov, MKind.amov, 256, FormQ.d), (Instr.ains, MKind.ains, 256, FormQ.b)] →
    ∀ (s : State) (g : Group) (c : Clause) (f : FormQ) (l : Loc), Issues s g c →
    frameFail g [(f.a, 2), (v f, if kind = .azero then 0 else 64 * moveN f / g.width)] = none → (kind ≠ .azero → 64 * moveN f % g.width = 0) →
    effFirst s g f.gd ≠ 0 →
    let x := qAt s g
    let eff := effFirst s g f.gd
    let p := blkPtr x f eff
    let r := if kind = .azero then extChk s x.g p 0 u (moveN f) (fun i => ((i * u : Nat) : Int)) 0 ((moveN f * u : Nat) : Int) else contigChk s x.g p (moveN f * u) 0
    d4Full x.g = false → queueWait s x.g = false → ptrSpace p = 7 → otherCore s x.g p = false → ptrOff p % u = 0 → r = .ok l →
    exec (mk f) s = .next (putCmd s (putGM s { qDone x c f 2 0 with g := if kind = .azero then (qDone x c f 2 0).g else cntInc (qDone x c f 2 0).g 4 })
      { freshCmd s x eff kind with acc := extKey r, n := moveN f, reg := (((opdRegs x.g (v f) 1).head?).getD 0), sn := f.sn, resvs := resvIds s x.g (unitPtrs p u (moveN f)) })) ∧
  QResult .orsv (fun _ => 2) (fun _ => 0) (fun _ => 2)
    (fun (a : Nat × Nat) s x f eff => blockChkN s x.g (blkPtr x f eff) 16 (ownBlock s x.g) = .go a.1 ∧ d4Full x.g = false ∧
      earlierAt s x.g.id eff (.pool a.1) 16 = false ∧ orsvRefusal (f.sub.getLsbD 1) (memRdV s.mem a.1 16) = none ∧
      (coreAt s (coreOf s x.g)).resvs.length < 32 ∧ lowestRun (coreAt s (coreOf s x.g)) (f.sub.getLsbD 1) (bits (memRdV s.mem a.1 16) 31 0) = some a.2)
    (fun a s x c f eff =>
      let isAcc := f.sub.getLsbD 1
      let core := coreOf s x.g
      let w := memRdV s.mem a.1 16
      let r : Resv := { id := s.nextId, ctx := x.g.ctx, team := x.g.team, isAcc := isAcc, base := a.2, len := bits w 31 0,
                        edesc := bits w 71 64, scoff := bits w 63 32, releasing := none }
      let s1 := modCore (zeroRange { s with nextId := s.nextId + 1 } core isAcc a.2 (bits w 31 0)) core (fun k => { k with resvs := k.resvs ++ [r] })
      launchPlain s1 (qDone { x with m := s1.mem } c f 2 0) .query 4
        [valLane ((lowLane eff).getD 0) (valWords 8 ((if isAcc then 7 else 6) * 2 ^ 60 + rankOf s x.g * 2 ^ 48 + a.2))] (dstOf x.g f.d f.sn) eff (wordQ 0xB8 f)) ∧
  QResult .orel (fun _ => 2) (fun _ => 0) (fun _ => 1)
    (fun (r : Resv) s x f eff => (ptrSpace (blkPtr x f eff) = 6 ∨ ptrSpace (blkPtr x f eff) = 7) ∧ otherCore s x.g (blkPtr x f eff) = false ∧ d4Full x.g = false ∧
      resvOf s x.g (blkPtr x f eff) = some r ∧ r.base = ptrOff (blkPtr x f eff) ∧ ptrClean (blkPtr x f eff) = true)
    (fun r s x c f eff =>
      let core := coreOf s x.g
      let s1 := modCore { s with nextId := s.nextId + 1 } core (fun k =>
        { k with resvs := k.resvs.map (fun y => if y.id = r.id then { y with releasing := some s.nextId } else y) })
      launchPlain (freeResv s1 core r.id) (qDone x c f 2 0) .query 4 [valLane ((lowLane eff).getD 0) [0]] (dstOf x.g f.d f.sn) eff (wordQ 0xB9 f)) ∧
  QResult .oqry (fun _ => 0) (fun _ => 0) (fun _ => 1) (fun (_ : Unit) _ x _ _ => d4Full x.g = false)
    (fun _ s x c f eff => launchPlain s (qDone x c f 0 0) .query 4
      [valLane ((lowLane eff).getD 0) [BitVec.ofNat 32 (oqryValue s (coreOf s x.g) f.sub.toNat)]] (dstOf x.g f.d f.sn) eff (wordQ 0xBA f))

/-- JST, JLD, JLDN, JADD, JTRADE and JQRY are in flight with the stack's lattice engine; COLL is accepted, XFENCE waits for earlier fabric writes, XQRY answers (R381-R388, R394, R404-R408); that the value of XQRY is the one at its issue is the model's reading (log 44). -/
def Obligations.LatticeFabricInstructionResults : Prop :=
  LatResult .jst 0xC8 .jst .rel ∧ LatResult .jld 0xC9 .jld .acq ∧ LatResult .jldn 0xCA .jldn .acq ∧ LatResult .jadd 0xCB .jadd .rel ∧
  LatCmdResult .jtrade 0xCC (fun _ => 1) (fun _ => .jtrade) ∧
  LatCmdResult .jqry 0xCD (fun f => if f.sub.toNat % 8 = 4 then 2 else 1) (fun f => .jqry (f.sub.toNat % 8)) ∧
  QResult .coll (fun _ => 2) barRegs (fun _ => 1)
    (fun (a : State × Coll) s x f eff => cntOf x.g 6 ≠ 63 ∧ collWait s x.g = false ∧ ∃ (k : Nat) (lS lR : Loc) (b : Option Nat),
      blockChk s x.g (blkPtr x f eff) (ownBlock s x.g) = .go k ∧ earlierAt s x.g.id eff (.pool k) 64 = false ∧
      (let w := memRdV s.mem k 64
       let d := collBlkOf w
       a.1 = consultAll s x.g [d.send, d.recv] ∧
       (let n := (membersOf (partAt a.1 (partOf a.1 x.g)) d.mgrp).length
        collRefusal (partAt a.1 (partOf a.1 x.g)) d w (barPtr x f eff) = none ∧
        collExt d.kind (contigChk a.1 x.g d.send (sendLen d.kind n d.count d.ty) 1) = .ok lS ∧
        collExt d.kind (contigChk a.1 x.g d.recv (recvLen d.kind n d.count d.ty) 2) = .ok lR ∧
        BarOk a.1 x.g (barPtr x f eff) b ∧ a.2 = newColl a.1 x.g ((lowLane eff).getD 0) f.scope d (.ok lS) (.ok lR) b)))
    (fun a _ x c f eff => collAccept a.1 x c f (barRegs f) eff a.2) ∧
  MemResult .xfence 0xD1 (fun f => if f.a = .zero then 0 else 2) (fun _ => 0) (fun _ => 1)
    (fun (_ : Unit) s x f eff =>
      let y := ocWriteBackAll x
      (f.a ≠ .zero → ptrSpace (rdOpd x f.a .b64 ((lowLane eff).getD 0)) = 9) ∧ cntOf y.g 6 ≠ 63 ∧
      (relOrder f.order = true → fenceDrained s y.g f.scope = true))
    (fun _ s x c f eff =>
      let y := ocWriteBackAll x
      let s1 := launchPlain s (memDone y c f 0 eff) (.xfence (if f.a = .zero then none else some (ptrF1 (rdOpd x f.a .b64 ((lowLane eff).getD 0))))) 6
        [valLane ((lowLane eff).getD 0) []] (dstOf y.g f.d f.sn) eff (wordM 0xD1 f)
      if relOrder f.order then markHold (releaseAct s1 y.g) y.g.id else s1) ∧
  QResult .xqry (fun f => if f.a = .zero then 0 else 2) (fun _ => 0) (fun _ => 1) (fun (_ : Unit) _ x _ _ => cntOf x.g 6 ≠ 63)
    (fun _ s x c f eff =>
      let v := match xqryValue (partAt s (partOf s x.g)) f.sub.toNat (blkPtr x f eff) with
        | some v => BitVec.ofNat 32 v
        | none => Config.freeWord s.fresh
      launchPlain { s with fresh := s.fresh + 1 } (qDone x c f (if f.a = .zero then 0 else 2) 0) (.xqry v.toNat) 6 [valLane ((lowLane eff).getD 0) [v]]
        (dstOf x.g f.d f.sn) eff (wordQ 0xD2 f))

/-- Starting a clause, its boundary, the issue choice and its aging, the landing of fixed-latency writes, switch points, entry sets, operand cache fills, waking from SLEEP and HALT, and the group's leaving its slot (R43, R45, R49, R54, R56, R61, R219-R227, R255, R272, R277, R302). -/
def Obligations.SequencerEventResults : Prop :=
  (∀ (s : State) (gid : Nat) (refetch : BitVec 4) (g : Group) (f : Fibre) (gr gr1 : Grid) (h : Header) (w : Nat),
    getG s gid = some g → g.cur = some f → gridOf s g = some gr → mayStart s g = true → throttleWaits s g = false →
    let e := (codeEnt s (coreOf s g) gr).getD (objTable s gr.part (codeObj gr))
    let s1 := objCachePut s (coreOf s g) e
    codeOk e f.pc = true → codeHere s1 (coreOf s g) gr e f.pc 8 = true → headerFetch s1 gr e f.pc refetch = (gr1, w) → headerCheck e g f.pc w = none → headerOf w = some h →
    codeHere s1 (coreOf s g) gr e f.pc (8 * (h.cnt + 1)) = true → (∀ d ∈ List.range 8, h.wait.getLsbD d = true → cntOf g d = 0) →
    let s2 := modGrid s1 gr.id (fun _ => fetchLines s1 gr1 e f.pc h.cnt (refetch &&& 14))
    let x := landAll (gmOf s2 g)
    exec (.clauseStart gid refetch) s = .next (putGM s2 { x with g := { x.g with
      pos := 0, phase := .inClause ⟨f.pc, h.cls, h.cnt, 0, h.u⟩
      ready := s2.fresh
      cls := h.cls
      suspect := h.cls == 0 && (coreAt s2 (coreOf s g)).squall
      suspects := if h.cls == 0 && (coreAt s2 (coreOf s g)).squall then 1 else 0 } })) ∧
  (∀ (s : State) (gid : Nat) (g : Group) (b y : Bool), getG s gid = some g → g.phase = .boundary b y → g.park = .none → g.trapDue = none → g.ended = false → g.halted = false →
    let x := landAll (gmOf s g)
    exec (.clauseBoundary gid) s = .next (putGM s (storeFibres { x with g := boundaryGroup s (wakeNow s x.g) b y }))) ∧
  (∀ (s : State) (core slice : Nat) (g : Group),
    let all := (issuable s core slice).map (fun g => markUrgent (sliceNow s g) g)
    s.turn = [] → pickGroup all = some g →
    let chosen := (if g.width < 32 then packOf 3 [g] all else [g]).map Group.id
    exec (.sliceIssue core slice) s = .next { modSlice s core slice (fun sl => { sl with cycles := sl.cycles + livePasses g }) with
      cur := some g.id
      turn := chosen
      groups := s.groups.map (fun h =>
        if chosen.contains h.id then { h with waited := 0, urgent := none, tried := false }
        else if all.any (fun a => a.id == h.id) then markUrgent (sliceNow s h + livePasses g) { h with waited := h.waited + livePasses g } else h) }) ∧
  (∀ (s : State) (gid : Nat), exec (.groupUrgent gid) s =
    .next (modG s gid (fun g => markUrgent (sliceNow s g) g))) ∧
  (∀ (s : State) (gid : Nat) (g : Group) (p : Pend) (rest : List Pend), getG s gid = some g → g.pend = p :: rest →
    (p.at' ≤ g.pos ∨ (∀ c, g.phase = .inClause c → g.park = .sw)) →
    exec (.fixedLatencyLanding gid) s = .next (putGM s (landAt (gmOf s g) p.at'))) ∧
  (∀ (s : State) (gid : Nat) (g : Group), getG s gid = some g → g.park = .sw → cntZero g = true → (pendDue g = none ∨ inClauseNow g = false) →
    (g.halted = true ∨ inClauseNow g = false ∨ veerStops s (coreOf s g) = false) →
    let x := landAll (gmOf s g)
    let y := { x with g := { x.g with park := .none } }
    exec (.switchPoint gid) s = .next (putGM s (if othersWait s g && inClauseNow g && !canIssue s y.g then ocRelease y else y))) ∧
  (∀ (s : State) (gid : Nat) (g : Group), getG s gid = some g → wantsSet s g = true → canAcquire s g = true →
    exec (.entrySetAcquire gid) s = .next (takeSet s g).1) ∧
  (∀ (s : State) (gid : Nat) (g h : Group), getG s gid = some g → wantsSet s g = true → canAcquire s g = false →
    s.groups.find? (fun h => h.id != g.id && h.slot.map (fun a => (a.core, a.slice)) == g.slot.map (fun a => (a.core, a.slice)) && givesSet s h) = some h →
    exec (.entrySetAcquire gid) s = .next (modGM s h.id ocRelease)) ∧
  (∀ (s : State) (gid : Nat) (o : Op) (y : LaneOp), s.ops.find? (fun o => o.g == gid && o.kind == .ocfill) = some o → o.lanes.find? (fun y => !laneOver y) = some y →
    let s1 := modGM s gid (fun x => { x with g := { x.g with oc := x.g.oc.map (fun oc =>
      { oc with ents := oc.ents.map (fun e => e.map (fun e => if e.reg = y.lane then entFill x.m x.g e else e)) }) } })
    exec (.operandCacheFillDone gid) s = .next (opEnd (setLane s1 o.id y.lane (fun y => { y with st := .performed })) o.id)) ∧
  (∀ (s : State) (op : Nat) (o : Op), getOp s op = some o → o.kind = .ocdrop → exec (.ocdropComplete op) s = .next (opEnd s op)) ∧
  (∀ (s : State) (op : Nat) (o : Op), getOp s op = some o → o.kind = .ocsync → exec (.ocsyncComplete op) s = .next (opEnd s op)) ∧
  (∀ (s : State) (gid : Nat), exec (.sleepWake gid) s = .next (modG s gid (fun g =>
    let g := wakeNow s g
    if g.phase = .asleep && g.fibres.any (fun h => h.wake.isNone) then { g with phase := .boundary false false } else g))) ∧
  (∀ (s : State) (core : Nat), let due := fun (g : Group) => match g.park with
      | .agentIdle t => g.agent && coreOf s g == core && ((coreAt s core).agent.event || decide (t ≤ s.tick))
      | _ => false
    s.groups.any due = true →
    exec (.haltIdleWake core) s = .next { modCore s core (fun c => { c with agent := { c.agent with event := false } }) with
      groups := s.groups.map (fun g => if due g then unpark g else g) }) ∧
  (∀ (s : State) (gid : Nat) (g : Group), getG s gid = some g → g.left = false → g.ended = true → cntZero g = true →
    let s1 := freeGrans (dropWaiter (modGM s gid ocRelease) g) g.ctx (stackGrans g.width g.depth + fibreGrans g.width)
    let s2 := modG s1 gid (fun g => { g with left := true, slot := none, park := .none, armed := false, watch := none, halted := false })
    exec (.groupLeaveSlot gid) s = .next (if frameNamed s2 g || g.frame = 0 then s2 else
      let s3 := freeGrans s2 g.ctx (frameGrans g.width g.frame)
      modG { s3 with mem := memZero s3.mem (frameKey gid 0) (4 * g.frame * g.width) } gid (fun g => { g with frame := 0 })))

/-- Loads return, stores and atomics are performed, parked loads and fences go on, caches and pinned lines fill, and the allocator answers, retries, gives up and shrinks (R144, R221, R228, R230-R249). -/
def Obligations.PoolEventResults : Prop :=
  (∀ (s : State) (op : Nat) (lanes : Mask) (bytes : W32) (o : Op), getOp s op = some o → retKind o.kind = true →
    exec (.poolLoadReturn op ⟨lanes, bytes⟩) s = .next ((lanesOf lanes).foldl (fun s l => performLane s op l bytes) s)) ∧
  (∀ (s : State) (op : Nat) (lanes : Mask) (bytes : W32) (o : Op), getOp s op = some o → o.kind = .watch →
    exec (.poolLoadReturn op ⟨lanes, bytes⟩) s = .next (watchDone s o)) ∧
  (∀ (s : State) (op : Nat) (lanes : Mask) (bytes : W32) (o : Op), getOp s op = some o → o.kind = .st →
    exec (.storePerformed op ⟨lanes, bytes⟩) s = .next ((lanesOf lanes).foldl (fun s l => performLane s op l bytes) s)) ∧
  (∀ (s : State) (op : Nat) (lanes : Mask) (o : Op), getOp s op = some o → isRmw o.kind = true →
    exec (.atomicPerformed op lanes) s = .next ((lanesOf lanes).foldl (fun s l => performLane s op l (BitVec.allOnes 32)) s)) ∧
  (∀ (s : State) (op num : Nat) (lanes : Mask) (o : Op), getOp s op = some o → o.kind = .tclaim num →
    exec (.atomicPerformed op lanes) s = .next (agentReturn (claim s (agentPart s o.g) (agentCore s o.g) num).1 o (claim s (agentPart s o.g) (agentCore s o.g) num).2)) ∧
  (∀ (s : State) (op run node : Nat) (lanes : Mask) (o : Op), getOp s op = some o → o.kind = .gdec run node →
    exec (.atomicPerformed op lanes) s = .next (agentReturn (decNode s (agentPart s o.g) run node).1 o (decNode s (agentPart s o.g) run node).2)) ∧
  (∀ (s : State) (op : Nat) (o : Op), getOp s op = some o → opPresent s o = true →
    exec (.parkedLoadWake op) s = .next (modG s o.g (fun g => if g.park = .absent op then { unpark g with waitEntry := false } else g))) ∧
  (∀ (s : State) (gid : Nat) (g : Group) (n : Order) (sc : Scope), getG s gid = some g → g.park = .fence n sc → fenceDrained s g sc = true →
    exec (.fenceDrainDone gid) s = .next (modG s gid (fun g => { g with park := .none }))) ∧
  (∀ (s : State) (core : Nat) (obj : ObjKey) (g : Group), s.groups.find? (fun g => g.park == .objMiss obj && coreOf s g == core) = some g →
    fillHeld s core (partOf s g) obj = false →
    let s1 := objCachePut s core (entFetch s (partOf s g) obj)
    exec (.objectCacheFill core obj) s = .next { s1 with groups := s1.groups.map (fun h =>
      if h.park == .objMiss obj && coreOf s h == core && partOf s h == partOf s g then { h with park := .none } else h) }) ∧
  (∀ (s : State) (ctx : Nat) (line : LineKey), exec (.lpinFillDone ctx line) s = .next (modC s ctx (fun c => { c with l1 := c.l1.map (fun l =>
    if l.key == line && l.filling then { l with filling := false, data := uniRd s l.part l.ua 128 } else l) }))) ∧
  (∀ (s : State) (core : Nat) (r : AllocReq) (rest : List AllocReq), (coreAt s core).alloc = r :: rest →
    exec (.allocatorAnswer core) s = .next (allocAnswer (modCore s core (fun c => { c with alloc := rest })) r)) ∧
  (∀ (s : State) (core : Nat), exec (.stallGrowRetry core) s = .next (modCore s core (fun c =>
    if c.freed then { c with freed := false, alloc := c.alloc ++ c.stalled.filter (growWaits s), stalled := c.stalled.filter (fun r => !growWaits s r) } else c))) ∧
  (∀ (s : State) (gid t : Nat) (g : Group) (c : Ctx) (r : AllocReq), getG s gid = some g → g.park = .growWait t → ctxOf s g = some c →
    ((coreAt s c.core).alloc ++ (coreAt s c.core).stalled).find? (fun r => r.g == gid) = some r → t + 65536 ≤ s.tick →
    exec (.stallGrowTimeout gid) s = .next (allocTrap (allocDrop s gid c.core) r g (allocPlan s r g c).2.1)) ∧
  (∀ (s : State) (gid : Nat) (g : Group) (c : Ctx) (r : AllocReq), getG s gid = some g → ctxOf s g = some c → g.park = .shrinkWait → r.g = gid → r.grow = false →
    (coreAt s (coreOf s g)).stalled.find? (fun r => r.g == gid && !r.grow) = some r →
    let t := allocDrop s gid (coreOf s g)
    let p := allocPlan t r g c
    p.2.2.2 = true → copiesIn t (shrinkRange r g c p.2.1.toNat).1 (shrinkRange r g c p.2.1.toNat).2 = false →
    exec (.shrinkAfterCopies gid) s = .next (allocFinish (allocApply (allocTouch t r gid) r g c p.1 p.2.1.toNat p.2.2.1) r gid true p.2.1.toNat))

/-- The delivery of a trap found at issue, of one pending at a switch point or a boundary, of the throttle trap, the steps of halting and killing, and the end of a team (R26, R281-R285, R295-R303, R475). -/
def Obligations.TrapAndContextEventResults : Prop :=
  (∀ (s : State) (gid : Nat) (g : Group) (r : TrapRec), getG s gid = some g → g.trapDue = some r → g.suspect = false →
    exec (.trapDelivery gid) s = .next (takeTrap s gid r.cause r.sub r.lanes r.addr r.word r.pc r.resume (restOf g))) ∧
  (∀ (s : State) (gid : Nat) (g : Group) (p : PendTrap) (f : Fibre), getG s gid = some g → pendDue g = some p → g.cur = some f →
    g.halted = false → g.ended = false → g.trapDue = none → g.slot.isSome = true → g.phase = .header → g.park = .none →
    exec (.switchPointTrap gid) s = .next (takeTrap (dropPend s gid p) gid p.cause p.sub p.lanes p.addr (fetchAt s g f.pc) f.pc f.pc none)) ∧
  (∀ (s : State) (gid : Nat) (g : Group) (p : PendTrap) (f : Fibre) (c : Clause), getG s gid = some g → pendDue g = some p → g.cur = some f →
    g.halted = false → g.ended = false → g.trapDue = none → g.slot.isSome = true → g.phase = .inClause c → g.park = .sw → cntZero g = true →
    exec (.switchPointTrap gid) s = .next (takeTrap (dropPend s gid p) gid p.cause p.sub p.lanes p.addr (fetchAt s g c.h) c.h (pcOf c) (some c))) ∧
  (∀ (s : State) (gid : Nat) (g : Group), getG s gid = some g → g.suspect = true → exec (.trapDelivery gid) s = .next s) ∧
  (∀ (s : State) (team : Nat) (t : Team) (g : Group), getT s team = some t →
    let gs := s.groups.filter (fun g => g.team == team && !g.ended)
    (gs.find? (fun g => g.held.isSome)).or (lowestGroup (gs.filter Group.armed)) = some g →
    let active := (partAt s (partOf s g)).thr.active
    let sub := if active then 0 else 1
    (active = t.lastSeen → exec (.throttleTrap team) s = .next (modG s g.id (fun g => { g with held := none }))) ∧
    (active ≠ t.lastSeen → g.hMode = true → exec (.throttleTrap team) s = .next (modG s g.id (fun g => { g with held := some sub }))) ∧
    (active ≠ t.lastSeen → g.hMode = false → atBoundary s g = true →
      exec (.throttleTrap team) s = .next (takeThrottle (modT (modG s g.id (fun g => { g with held := none })) team (fun t => { t with lastSeen := active })) g sub))) ∧
  (∀ (s : State) (ctx : Nat), exec (.haltRequest ctx) s =
    .next (throttleAll (modC s ctx (fun c => if c.haltReq && c.state == .running then { c with state := .halting, haltReq := false } else c)))) ∧
  (∀ (s : State) (gid : Nat) (g : Group) (c : Ctx), getG s gid = some g → ctxOf s g = some c → c.state = .halting → mayHalt g = true → g.halted = false →
    exec (.groupHalted gid) s = .next (haltDone (haltGroup s g) c.id)) ∧
  (∀ (s : State) (grid : Nat) (gr : Grid), getGrid s grid = some gr → gr.killDue = true → gr.killed = false →
    exec (.gridKill grid) s = .next (killGrid s grid)) ∧
  (∀ (s : State) (ctx : Nat) (c : Ctx), getC s ctx = some c → c.state = .killing →
    (s.ops.any (fun o => (s.groups.filter (fun g => g.ctx == ctx)).any (fun g => g.id == o.g)) || s.reqs.any (fun r => r.ctx == ctx) || s.mcmds.any (fun m => m.ctx == ctx)) = false →
    let s1 := (s.groups.filter (fun g => g.ctx == ctx)).foldl (fun s g => { s with mem := memZero s.mem (frameKey g.id 0) (4 * g.frame * g.width) }) s
    let s2 := { s1 with groups := s1.groups.map (fun g => if g.ctx = ctx then { g with left := true, slot := none, frame := 0, halted := false } else g) }
    let s3 := agentEvent (modC (freeCtx s2 c) ctx (fun c => { c with incarn := c.incarn + 1 })) (· == c.core)
    exec (.killComplete ctx) s = .next (if s3.ctxs.all (fun d => d.team != c.team || d.state == .free) then modT s3 c.team (fun t => { t with ended := true }) else s3)) ∧
  (∀ (s : State) (team : Nat) (t : Team), getT s team = some t → t.ended = true →
    (s.groups.filter (fun g => g.team == team)).all (fun g => g.ended) = true →
    (s.groups.filter (fun g => g.team == team)).all (fun g => g.left && g.frame == 0) = true → teamBusy s t = false →
    s.cores.any (fun c => c.resvs.any (fun r => r.team == team)) = false →
    let cs := s.ctxs.filter (fun c => c.team == team && c.state == .running)
    exec (.teamEnd team) s = .next (agentEvent (cs.foldl freeCtx s) (fun k => cs.any (fun c => c.core == k)))) ∧
  (∀ (s : State) (team : Nat) (t : Team), getT s team = some t → t.ended = false →
    (s.groups.filter (fun g => g.team == team)).all (fun g => g.ended) = true →
    (s.groups.filter (fun g => g.team == team)).all (fun g => g.left && g.frame == 0) = false →
    exec (.teamEnd team) s = .next (modGrid (modT { s with nextId := s.nextId + 1, cores := s.cores.map (fun c => { c with resvs := c.resvs.map (fun r =>
        if r.team = team then { r with releasing := r.releasing.or (some s.nextId) } else r) }) } team (fun t => { t with ended := true }))
      t.grid (fun gr => { gr with endedTeams := gr.endedTeams + 1, progress := s.tick })))

/-- Updates reach their object, waiters wake, continuations fire, watches trigger and time out, and instances complete (R310-R325). -/
def Obligations.BarrierEventResults : Prop :=
  (∀ (s : State) (upd : Nat) (u : Upd), s.upds.find? (fun u => u.id == upd) = some u → updDue s u = true →
    u.reply.bind (fun r => (getOp s r.1).map (fun o => (o, r.2))) = none →
    exec (.barrierUpdate upd) s = .next (objUpdate { s with
      upds := s.upds.filter (fun v => v.id != upd), colls := s.colls.filter (fun c => !(c.sent && u.src.group == engineGroup c.id)) } u.ctx u.obj u.item u.src).1) ∧
  (∀ (s : State) (upd lane : Nat) (u : Upd) (o : Op) (g : Group), s.upds.find? (fun u => u.id == upd) = some u → updDue s u = true →
    let s0 := { s with upds := s.upds.filter (fun v => v.id != upd), colls := s.colls.filter (fun c => !(c.sent && u.src.group == engineGroup c.id)) }
    u.reply.bind (fun r => (getOp s r.1).map (fun o => (o, r.2))) = some (o, lane) → getG s0 o.g = some g →
    let s1 := performStart s0 g o
    let src := if relOrder o.order then { u.src with view := lanesView s1 o.g (updLanes o lane) } else u.src
    let r := objUpdate (if relOrder o.order then (updLanes o lane).foldl (fun s l => noteOut s o.g l o.id src) s1 else s1) u.ctx u.obj u.item src
    exec (.barrierUpdate upd) s = .next (opEnd (setLane (returnValue r.1 o lane [BitVec.ofNat 32 r.2]) o.id lane (fun y => { y with st := .performed })) o.id)) ∧
  (∀ (s : State) (gid : Nat) (g : Group), getG s gid = some g → g.waitEntry = true → g.halted = false → exec (.phaseWaiterWake gid) s = .next (phaseTest s g)) ∧
  (∀ (s : State) (gid : Nat) (g : Group), getG s gid = some g → g.waitEntry = true → g.halted = false → exec (.pauseWake gid) s = .next (pauseTest s g)) ∧
  (∀ (s : State) (gid : Nat) (g : Group) (k : ContRec) (rest : List ContRec), getG s gid = some g → g.firing = k :: rest →
    let f : Fibre := { pc := k.pc, pred := k.pred, wbase := k.wbase, waitc := 0, wake := none, hnd := k.hnd && g.hMode, rem := none }
    exec (.continuationFire gid) s = .next (modG (learnObj (acquireAct s g) g .team k.obj k.pred) gid (fun g => { g with
      firing := rest
      fibres := g.fibres ++ [f]
      phase := if g.phase = .asleep then .boundary false false else g.phase }))) ∧
  (∀ (s : State) (gid : Nat) (g : Group), getG s gid = some g → g.waitEntry = false → g.halted = false →
    (∀ k q p d eff sc, g.park = .bwait k q p d eff sc → exec (.waitPoll gid) s = .next (phaseTest s g)) ∧
    (∀ k q p d eff sc w, g.park = .awaitPhase k q p d eff sc w → exec (.waitPoll gid) s = .next (phaseTest s g)) ∧
    (∀ t d eff, g.park = .pause t d eff → exec (.waitPoll gid) s = .next (pauseTest s g)) ∧
    (∀ op o, g.park = .absent op → getOp s op = some o → opPresent s o = true →
      exec (.waitPoll gid) s = .next (modG s o.g (fun g => if g.park = .absent op then { unpark g with waitEntry := false } else g))) ∧
    (∀ i, g.park = .tbar i → exec (.waitPoll gid) s = .next (teamBarrier s g.team))) ∧
  (∀ (s : State) (gid t : Nat) (g : Group) (d : Dst) (eff : Mask), getG s gid = some g → g.park = .pause t d eff → t ≤ s.tick → g.halted = false →
    g.watch.bind Watch.trig = none → exec (.pauseTimeout gid) s = .next (pauseEnd s gid d eff 4)) ∧
  (∀ (s : State) (id share : Nat), exec (.barrierInstanceComplete .team id share) s = .next (teamBarrier s id)) ∧
  (∀ (s : State) (id share : Nat), exec (.barrierInstanceComplete .stack id share) s = .next (stackBarrier s id share)) ∧
  (∀ (s : State) (id share : Nat), exec (.barrierInstanceComplete .grid id share) s = .next (gridBarrier s id)) ∧
  (∀ (s : State) (grid : Nat) (gr : Grid) (gu : Gust), getGrid s grid = some gr → gr.gust = some gu → gu.start + gu.wave * gu.gap ≤ s.tick →
    exec (.gustWaveRelease grid) s = .next (releaseWave s grid gu gr.lr.teams))

/-- The steps of a streamer request from acceptance to completion (R338-R344). -/
def Obligations.StreamerEventResults : Prop :=
  (∀ (s : State) (req : Nat) (r : Req), getReq s req = some r → r.state = .queued → r.bulk = false →
    ((coreQueue s (reqCore s r)).find? (fun e => e.state == .queued && !e.bulk)).map Req.id = some req →
    (coreAt s (reqCore s r)).paused = false → ((coreQueue s (reqCore s r)).filter (fun e => e.state == .active)).length < 4 →
    exec (.streamerRequestActive req) s = .next (modReq s req (fun r => reqIssued { r with state := .active }))) ∧
  (∀ (s : State) (req : Nat) (r : Req), getReq s req = some r → MayRead s r →
    (runReads r).any (fun x => linkLost s r.part x.1) = false → reqReach s r = .ready → (hostLines s (runReads r)).isEmpty = true →
    sourceBad s r = false → exec (.streamerLineRead req) s = .next (match unitDo r r.next with
      | .unread => readList s r
      | .skip | .drop => passRow s r
      | .zero | .move | .fill => issueRun s r)) ∧
  (∀ (s : State) (req : Nat) (r : Req), getReq s req = some r → MayRead s r →
    (runReads r).any (fun x => linkLost s r.part x.1) = false → reqReach s r = .ready → (hostLines s (runReads r)).isEmpty = true →
    sourceBad s r = true → exec (.streamerLineRead req) s = .next (modReq s req (abortReq s))) ∧
  (∀ (s : State) (req : Nat) (r : Req), getReq s req = some r → MayRead s r →
    (runReads r).any (fun x => linkLost s r.part x.1) = true → exec (.streamerLineRead req) s = .next (modReq s req (abortReq s))) ∧
  (∀ (s : State) (req lane : Nat) (ok : Bool) (vals : List W32) (r : Req), getOp s req = none → getReq s req = some r → MayRead s r →
    (hostLines s (runReads r)).isEmpty = false → reqReach s r = .ready → exec (.hostCompletion req lane ok vals) s =
      .next (if ok then readLine (hostArrives s (runReads r) vals) r else modReq s r.id (abortReq s))) ∧
  (∀ (s : State) (req line : Nat) (r : Req) (l : CopyLine), getReq s req = some r → r.lines.find? (fun l => l.id == line) = some l → landFree s r l = true →
    ((∀ b ∈ l.bytes, linkLost s r.part b.1 = false) ∨ ctxOut s r.ctx = true) →
    let s1 := l.bytes.foldl (fun s b => sendByte s (reqSrc s r) (reqEng s r) b.1 b.2) s
    exec (.streamerLineLand req line) s = .next (modReq s1 req (fun r => { r with
      lines := r.lines.filter (fun e => e.id != line), absent := l.bytes.foldl (fun a b => clearAbsent a b.1 1) r.absent
      landed := r.landed + l.bytes.length, sinceCredit := r.sinceCredit + 1 }))) ∧
  (∀ (s : State) (req line : Nat) (r : Req) (l : CopyLine), getReq s req = some r → r.lines.find? (fun l => l.id == line) = some l →
    (∃ b ∈ l.bytes, linkLost s r.part b.1 = true) → ctxOut s r.ctx = false →
    exec (.streamerLineLand req line) s = .next (modReq s req (abortReq s))) ∧
  (∀ (s : State) (req obj : Nat) (r : Req), getReq s req = some r → r.bar = some obj → r.killed = false → r.finalSent = false →
    (r.scope = .sys → s.hwrites.any (fun w => w.g == r.g) = false) → reqLanded r = true →
    exec (.streamerCredit req) s = .next (modReq
      (sendCredit s r obj ⟨r.bcred != 0, 0, if r.bcred = 1 then 0 else reqBytes r - r.credited, r.err, r.zeros - r.zerosSent, false⟩) req
      (fun r => { r with credited := reqBytes r, zerosSent := r.zeros, sinceCredit := 0, finalSent := true }))) ∧
  (∀ (s : State) (req obj : Nat) (r : Req), getReq s req = some r → r.bar = some obj → r.killed = false → r.finalSent = false →
    (r.scope = .sys → s.hwrites.any (fun w => w.g == r.g) = false) → reqLanded r = false → r.bcred ≠ 1 → 16 ≤ r.sinceCredit → r.err = false →
    exec (.streamerCredit req) s = .next (modReq (sendCredit s r obj ⟨false, 0, r.landed - r.credited, false, r.zeros - r.zerosSent, false⟩) req
      (fun r => { r with credited := r.landed, zerosSent := r.zeros, sinceCredit := 0 }))) ∧
  (∀ (s : State) (req num cell : Nat) (r : Req), getReq s req = some r → r.gcnt = some (num, cell) → r.gdone = false → r.killed = false → finalDone s r = true →
    (r.scope = .sys → s.hwrites.any (fun w => w.g == r.g) = false) →
    exec (.gcountCredit req) s = .next (modReq (gcountAdd s r.part num (reqCore s r / Config.coresPerStack) cell (if r.gone then 1 else reqBytes r) (fullView s (engineNo r.id))) req
      (fun r => { r with gdone := true }))) ∧
  (∀ (s : State) (req : Nat) (r : Req), getReq s req = some r → finalDone s r = true → (r.gcnt = none ∨ r.gdone = true ∨ r.killed = true) →
    exec (.requestComplete req) s = .next { s with reqs := s.reqs.filter (fun e => e.id != req) }) ∧
  (∀ (s : State) (req : Nat) (r : Req), getReq s req = some r → r.bulk = true → r.state = .queued → r.bs = none →
    let b := bulkPick s (homeHalf s r r.dst)
    let k := reqCore s r / Config.coresPerStack
    exec (.bulkHandoff req) s = .next (sendPkt (modReq s req (fun r => { r with state := .bulkSent, bs := some b }))
      (vsDie k) (b / 8) (stackStop k) (dieStop (b / 8)) r.part none 64 (.bulk req))) ∧
  (∀ (s : State) (req : Nat) (r : Req) (p : Pkt), getReq s req = some r → r.state = .bulkSent → s.pkts.find? (fun p => p.delivered && p.msg == .bulk req) = some p →
    (s.reqs.filter (fun e => e.bs == r.bs && (e.state == .bulk || e.state == .stopped))).length < 64 →
    exec (.bulkHandoff req) s = .next (modReq (delPkt s p.id) req (fun r => { r with state := .bulk }))) ∧
  (∀ (s : State) (pkt : Nat) (p : Pkt) (u : Upd), getPkt s pkt = some p → p.delivered = true → p.msg = .bulkCredit u →
    exec (.bulkCreditArrival pkt) s = .next { delPkt s pkt with upds := (delPkt s pkt).upds ++ [u] }) ∧
  (∀ (s : State) (req n : Nat) (r : Req), getReq s req = some r → r.state = .stopped → r.pageAt = some n → r.err = false →
    granNone (granAt (partAt s r.part) n) = false → (granAt (partAt s r.part) n).moving = none →
    exec (.copyPageResume req) s = .next (modReq s req (fun r => { r with state := resumeState r, pageAt := none }))) ∧
  (∀ (s : State) (req : Nat), exec (.copyAbort req) s = .next (modReq s req (fun r =>
    let lines := r.lines.filter (fun l => !l.bytes.any (fun b => linkLost s r.part b.1 || (match reqPlace s r b.1 1 with
      | .page _ => true
      | .ready | .held | .host => false)))
    let absent := lines.foldl (fun a l => l.bytes.foldl (fun a b => markAbsent a b.1 1) a) []
    if r.finalSent then r
    else if r.killed then { r with lines := lines, absent := absent }
    else { r with err := true, next := reqUnits r, pageAt := none, state := if r.bulk then .bulk else .issued, lines := lines, absent := absent })))

/-- The steps of the matrix engine: a step of an MMA, its report, the begin and end of AZERO, AMOV, AINS and ADRAIN, the rows and lines of a drain, and a freed reservation (R354-R373). -/
def Obligations.MatrixEventResults : Prop :=
  (∀ (s : State) (cmd : Nat) (c : MCmd), getCmd s cmd = some c → stepDue s c = true →
    let ws := mmaStepWords s c
    let fl : Flags := ws.foldl (fun f w => f ||| w.2) 0
    let err : BitVec 8 := if stepBad s c then merrFlag else 0
    let s1 := (engineRds s (cmdEng s c) true 1 (stepPlaces c c.step (c.step + 1))).1
    exec (.mmaStep cmd) s = .next (modCmd (tileWr s1 c.acc (ws.map (·.1))) cmd (fun c =>
      { c with step := c.step + 1, suspect := squalling s c, flags := c.flags ||| fl.setWidth 8 ||| err, state := if c.step + 1 = c.steps then .stepsDone else .begun }))) ∧
  (∀ (s : State) (cmd : Nat) (c : MCmd), getCmd s cmd = some c → c.kind = .mma → c.state = .stepsDone → c.suspect = false → ctxHere s c.ctx = true → ctxPaused s c.ctx = false → updatesBefore s c = false →
    exec (.mmaResults cmd) s = .next (cmdReport s c 18 ⟨true, 0, 0, c.flags.getLsbD 7, 0, false⟩)) ∧
  (∀ (s : State) (cmd : Nat) (c : MCmd), getCmd s cmd = some c → c.state = .queued → cmdTurn s c = true → c.kind = .azero →
    exec (.matrixCommandBegin cmd) s = .next (modCmd { s with mem := memZero s.mem c.acc (accSpan c) } cmd (fun c => { c with state := .begun, tile := [] }))) ∧
  (∀ (s : State) (cmd : Nat) (c : MCmd), getCmd s cmd = some c → c.state = .queued → cmdTurn s c = true → c.kind = .amov →
    exec (.matrixCommandBegin cmd) s = .next (modCmd s cmd (fun d => { d with
      state := .begun, tile := accWords s c.acc (64 * c.n) }))) ∧
  (∀ (s : State) (cmd : Nat) (c : MCmd), getCmd s cmd = some c → c.state = .queued → cmdTurn s c = true → c.kind = .ains →
    exec (.matrixCommandBegin cmd) s = .next (modCmd s cmd (fun c => { c with state := .begun, tile := [] }))) ∧
  (∀ (s : State) (cmd : Nat) (c : MCmd), getCmd s cmd = some c → c.state = .queued → cmdTurn s c = true → c.kind = .adrain →
    exec (.matrixCommandBegin cmd) s = .next (modCmd s cmd (fun d => { d with 
      state := .begun, tile := tileWords s c.acc, flags := d.flags ||| (if badKey s c.acc 16384 then merrFlag else 0) }))) ∧
  (∀ (s : State) (cmd : Nat) (c : MCmd), getCmd s cmd = some c → c.state = .begun → ctxHere s c.ctx = true → c.kind = .azero →
    exec (.matrixCommandFinish cmd) s = .next (delCmd s cmd)) ∧
  (∀ (s : State) (cmd : Nat) (c : MCmd) (g : Group), getCmd s cmd = some c → c.state = .begun → ctxHere s c.ctx = true → c.kind = .amov → getG s c.g = some g →
    exec (.matrixCommandFinish cmd) s = .next (delCmd (modGM s c.g (fun x => { amovWords x c with g := cntDec (amovWords x c).g 4 })) cmd)) ∧
  (∀ (s : State) (cmd : Nat) (c : MCmd) (g : Group), getCmd s cmd = some c → c.state = .begun → ctxHere s c.ctx = true → c.kind = .ains → getG s c.g = some g →
    exec (.matrixCommandFinish cmd) s = .next (delCmd (modG (tileWr { s with fresh := s.fresh + 1 } c.acc (ainsWords s g c)) c.g (fun g => cntDec g 4)) cmd)) ∧
  (∀ (s : State) (cmd : Nat) (c : MCmd), getCmd s cmd = some c → c.kind = .adrain → c.state = .begun → c.step < drainRows c → ctxHere s c.ctx = true → ctxPaused s c.ctx = false →
    let e := drainRow c
    let left := (((rowPlaces c c.step).zip [e.1, e.2.1]).flatMap (fun x => placed x.1.1 x.2)).drop c.made
    let bs := left.takeWhile (fun b => writable s c b.1 1)
    let ls := bs.zipIdx.foldl (fun ls b => joinByte ls (s.nextId + b.2) b.1) c.lines
    (left.head?.any (fun b => linkLost s c.part b.1) = true → exec (.drainRow cmd) s = .next (abortDrain s cmd)) ∧
    (left.head?.any (fun b => linkLost s c.part b.1) = false → bs = left → exec (.drainRow cmd) s =
      .next (modCmd { s with nextId := s.nextId + bs.length } cmd (fun d => { d with step := d.step + 1, made := 0, lines := ls, flags := d.flags ||| e.2.2.setWidth 8 }))) ∧
    (left.head?.any (fun b => linkLost s c.part b.1) = false → bs ≠ [] → bs.length < left.length → exec (.drainRow cmd) s =
      .next (modCmd { s with nextId := s.nextId + bs.length } cmd (fun d => { d with made := d.made + bs.length, lines := ls })))) ∧
  (∀ (s : State) (cmd line : Nat) (c : MCmd) (l : CopyLine), getCmd s cmd = some c → c.lines.find? (fun l => l.id == line) = some l → lineDue s c l = true →
    l.bytes.any (fun b => linkLost s c.part b.1) = false →
    (c.add = true → l.bytes.any (fun b => (hostFrame s b.1).isSome) = false) →
    (c.add = true → l.bytes.any (fun b => (staleAt s (cmdSrc s c) b.1 1).isSome) = false) →
    let r := if c.add then addLine (cmdEng s c) l.bytes (s, 0) else (l.bytes.foldl (fun s b => sendByte s (cmdSrc s c) (cmdEng s c) b.1 b.2) s, 0)
    let err : BitVec 8 := if c.add && l.bytes.any (fun b => badLine s b.1 1) then merrFlag else 0
    exec (.drainLinePerformed cmd line) s = .next (modCmd r.1 cmd (fun c => { c with
      lines := c.lines.filter (fun e => e.id != line), absent := l.bytes.foldl (fun a b => clearAbsent a b.1 1) c.absent
      flags := c.flags ||| r.2.setWidth 8 ||| err }))) ∧
  (∀ (s : State) (cmd line : Nat) (c : MCmd) (l : CopyLine), getCmd s cmd = some c → c.lines.find? (fun l => l.id == line) = some l → ctxHere s c.ctx = true →
    (l.bytes.any (fun b => linkLost s c.part b.1) = true ∨ (lineDue s c l = true ∧ c.add = true ∧ l.bytes.any (fun b => (hostFrame s b.1).isSome) = true)) →
    exec (.drainLinePerformed cmd line) s = .next (abortDrain s cmd)) ∧
  (∀ (s : State) (cmd : Nat) (c : MCmd), getCmd s cmd = some c → c.killed = true → c.lines = [] → exec (.drainComplete cmd) s = .next (delCmd s cmd)) ∧
  (∀ (s : State) (cmd : Nat) (c : MCmd), getCmd s cmd = some c → c.killed = false → c.kind = .adrain → c.state = .begun → c.step = drainRows c → c.lines = [] →
    ctxHere s c.ctx = true → ctxPaused s c.ctx = false → updatesBefore s c = false →
    exec (.drainComplete cmd) s = .next (cmdReport (if c.clr && !c.flags.getLsbD 6 then { s with mem := memZero s.mem c.acc 16384 } else s) c 12
      ⟨true, 0, c.credit, c.flags.getLsbD 6 || c.flags.getLsbD 7, 0, false⟩)) ∧
  (∀ (s : State) (cmd n : Nat) (c : MCmd), getCmd s cmd = some c → c.state = .stopped → c.pageAt = some n → granNone (granAt (partAt s c.part) n) = false →
    (granAt (partAt s c.part) n).moving = none →
    exec (.drainPageResume cmd) s = .next (modCmd s cmd (fun c => { c with state := .begun, pageAt := none }))) ∧
  (∀ (s : State) (cmd : Nat), exec (.drainAbort cmd) s = .next (modCmd s cmd (fun c =>
    if c.kind == .adrain && (c.state == .begun || c.state == .stopped) then { stopDrain s c with flags := c.flags ||| 0x40 } else c))) ∧
  (∀ (s : State) (cmd : Nat) (c : MCmd), getCmd s cmd = some c → c.suspect = true →
    exec (.matrixStepReexecute cmd) s = .next (modCmd { s with sqcnt := s.sqcnt + 1 } cmd (fun c => { c with suspect := false }))) ∧
  (∀ (s : State) (core rec : Nat), exec (.reservationFreed core rec) s = .next (freeResv s core rec)) ∧
  (∀ (s : State) (op : Nat) (o : Op), getOp s op = some o → o.kind = .query → o.ctr = 4 → frameHere s o.g = true →
    exec (.matrixQueryComplete op) s = .next (cmdReturn s o ((o.lanes.head?.map LaneOp.val).getD [])))

/-- The steps of the lattice engines: a lane of a lattice access, its reply, thresholds, the cell and region caches, trades, their packets and acknowledgements, JTRADE and JQRY (R382-R397); the moment at which a JQRY reads is the model's reading (log 44). -/
def Obligations.LatticeEventResults : Prop :=
  (∀ (s : State) (op off : Nat) (o : Op) (x : LaneOp) (g : Group) (r : Region), getOp s op = some o → o.lanes.find? (fun x => x.st == .sent) = some x →
    getG s o.g = some g → latRegion s x.loc = some (r, off) → latBehind s o = false → mayReach s (opSrc s o) (baseDie (stackOf s g)) = true → o.kind = .jtrade →
    exec (.latticeLanePerformed op) s = .next (jtradeGo s g o r)) ∧
  (∀ (s : State) (op off : Nat) (o : Op) (x : LaneOp) (g : Group) (r : Region), getOp s op = some o → o.lanes.find? (fun x => x.st == .sent) = some x →
    getG s o.g = some g → latRegion s x.loc = some (r, off) → latBehind s o = false → mayReach s (opSrc s o) (baseDie (stackOf s g)) = true →
    o.kind ≠ .jtrade → orderFree s o x = true →
    let line : CellLine := ⟨partOf s g, r.num, off / 64⟩
    (nth s.cellCache (stackOf s g) []).contains line = true →
    exec (.latticeLanePerformed op) s = .next (latLane (cellUse s (stackOf s g) line) g o x r off)) ∧
  (∀ (s : State) (op : Nat) (o o1 : Op) (g : Group), getOp s op = some o → o.kind ≠ .jtrade → o.lanes.any (fun x => x.st == .sent) = false →
    getG s o.g = some g → frameHere s o.g = true →
    let vs := o.lanes.filter (fun x => x.st == .valued)
    vs ≠ [] → replyStale s (opSrc s o) = false → pathOpen s (baseDie (stackOf s g)) (opSrc s o).1 = true →
    let s1 := vs.foldl (fun s x => setLane (returnValue s o x.lane x.val) op x.lane (fun y => { y with st := .performed })) s
    getOp s1 op = some o1 →
    exec (.latticeReply op) s = .next (if o1.lanes.all (fun x => x.st == .performed || x.st == .failed) then opEnd s1 op else s1)) ∧
  (∀ (s : State) (op : Nat) (o : Op), getOp s op = some o → o.kind ≠ .jtrade → o.lanes.any (fun x => x.st == .sent) = false → frameHere s o.g = true →
    let vs := o.lanes.filter (fun x => x.st == .valued)
    vs ≠ [] → replyStale s (opSrc s o) = true →
    exec (.latticeReply op) s = .next (vs.foldl (fun s x => dropLane s o x.lane (opSrc s o).1) s)) ∧
  (∀ (s : State) (op : Nat), exec (.thresholdReached op) s = .next (thresholdGo op true s)) ∧
  (∀ (s : State) (op : Nat), exec (.thresholdPoll op) s = .next (thresholdGo op false s)) ∧
  (∀ (s : State) (stack part region line : Nat), exec (.cellCacheFill stack part region line) s = .next { s with
    cellCache := s.cellCache.modify stack (fun ls => ((⟨part, region, line⟩ : CellLine) :: ls.filter (· != ⟨part, region, line⟩)).take 65536) }) ∧
  (∀ (s : State) (core region : Nat) (g : Group), s.groups.find? (fun g => g.park == .regionMiss region && coreOf s g == core) = some g →
    pathOpen s (coreDie core) (baseDie (core / Config.coresPerStack)) = true →
    let key := partOf s g * 4096 + region
    let s1 := modCore s core (fun c => { c with regionCache := (key :: c.regionCache.filter (· != key)).take 16 })
    exec (.regionCacheFill core region) s = .next { s1 with groups := s1.groups.map (fun g =>
      if g.park == .regionMiss region && coreOf s1 g == core then { g with park := .none, fetched := key :: g.fetched } else g) }) ∧
  (∀ (s : State) (part region : Nat) (r : Region), regionAt s part region = some r → 1 < (stacksOf (partAt s part)).length →
    r.lastInstant < s.tick / r.period * r.period → r.trade.isSome = true →
    exec (.tradeInstant part region) s = .next (modRegion s part region (fun r' => { r' with lastInstant := s.tick / r.period * r.period }))) ∧
  (∀ (s : State) (part region : Nat) (r : Region), regionAt s part region = some r → 1 < (stacksOf (partAt s part)).length →
    r.lastInstant < s.tick / r.period * r.period → r.trade = none →
    let ks := stacksOf (partAt s part)
    let ρs := (List.range ks.length).filter (fun ρ => r.sched != 2 || ρ != 0)
    exec (.tradeInstant part region) s = .next (ρs.foldl (tradeSend part ks region r.taken) (modRegion s part region (fun r' => { r' with
      lastInstant := s.tick / r.period * r.period, taken := r'.taken + 1
      trade := some { m := r.taken, acks := 0, spokes := if r.sched = 2 then ks.tail else [], hubSent := r.sched != 2 } })))) ∧
  (∀ (s : State) (pkt part num inst m fromK toK n : Nat) (p : Pkt) (ls : List TradeLine) (rels : List (Nat × View)), getPkt s pkt = some p → p.delivered = true →
    p.msg = .trade part num inst m fromK toK n ls rels →
    let ps := partsOf s (.trade part num inst m fromK toK n [] [])
    n ≤ ps.length → liveInst s part num inst = true →
    let s1 := modRegion (applyLines (ps.foldl (fun s q => delPkt s q.id) s) part num toK (ps.flatMap (fun q => linesOfMsg q.msg)) rels) part num (fun r =>
      { r with trade := r.trade.map (fun t => { t with spokes := t.spokes.filter (· != fromK) }) })
    exec (.tradePacketApply pkt) s = .next (ps.foldl (fun s q => latSend s part toK fromK (some q.incarn) 0 (.tradeAck part num inst m toK fromK)) s1)) ∧
  (∀ (s : State) (pkt part num inst m fromK toK n : Nat) (p : Pkt) (ls : List TradeLine) (rels : List (Nat × View)), getPkt s pkt = some p → p.delivered = true →
    p.msg = .trade part num inst m fromK toK n ls rels →
    let ps := partsOf s (.trade part num inst m fromK toK n [] [])
    n ≤ ps.length → liveInst s part num inst = false →
    exec (.tradePacketApply pkt) s = .next (ps.foldl (fun s q => delPkt s q.id) s)) ∧
  (∀ (s : State) (pkt op part num inst m fromK toK n : Nat) (p : Pkt) (ls : List TradeLine) (rels : List (Nat × View)), getPkt s pkt = some p → p.delivered = true →
    p.msg = .jtrade op part num inst m fromK toK n ls rels →
    let ps := partsOf s (.jtrade op part num inst m fromK toK n [] [])
    n ≤ ps.length → (liveInst s part num inst && (regionAt s part num).any (fun r => decide (r.completed < m))) = false →
    exec (.tradePacketApply pkt) s = .next (ps.foldl (fun s q => latSend s part toK fromK (some q.incarn) 0 (.jtradeAck op toK))
      (if liveInst s part num inst then applyLines (ps.foldl (fun s q => delPkt s q.id) s) part num toK (ps.flatMap (fun q => linesOfMsg q.msg)) rels
        else ps.foldl (fun s q => delPkt s q.id) s))) ∧
  (∀ (s : State) (pkt part num inst m a b : Nat) (p : Pkt), getPkt s pkt = some p → p.delivered = true → p.msg = .tradeAck part num inst m a b →
    exec (.tradeAck pkt) s = .next (modRegion (delPkt s pkt) part num (fun r => match r.trade with
      | none => r
      | some t => if r.inst ≠ inst ∨ t.m ≠ m then r
        else if t.acks ≤ 1 ∧ t.hubSent = true then { r with trade := none, completed := r.completed + 1 } else { r with trade := some { t with acks := t.acks - 1 } }))) ∧
  (∀ (s : State) (pkt op k : Nat) (p : Pkt), getPkt s pkt = some p → p.delivered = true → p.msg = .jtradeAck op k →
    exec (.tradeAck pkt) s = .next (modOp (delPkt s pkt) op (fun o => { o with lanes := o.lanes.map (fun y => { y with data := y.data.modify (k + 1) (· - 1) }) }))) ∧
  (∀ (s : State) (part region : Nat) (r : Region) (t : Trade), regionAt s part region = some r → r.trade = some t → t.hubSent = false → t.spokes = [] →
    exec (.starHubSend part region) s = .next (tradeSend part (stacksOf (partAt s part)) region t.m
      (modRegion s part region (fun r => { r with trade := r.trade.map (fun t => { t with hubSent := true }) })) 0)) ∧
  (∀ (s : State) (op : Nat) (o : Op), getOp s op = some o → o.kind = .jtrade → jtradeOver s o = true → frameHere s o.g = true →
    exec (.jtradeComplete op) s = .next (cmdReturn s o ((o.lanes.head?.map LaneOp.val).getD []))) ∧
  (∀ (s : State) (op field off : Nat) (o : Op) (x : LaneOp) (g : Group) (r : Region), getOp s op = some o → o.kind = .jqry field →
    o.lanes.find? (fun x => x.st == .sent) = some x → getG s o.g = some g → latBehind s o = false → frameHere s o.g = true →
    replyStale s (opSrc s o) = false → mayReach s (opSrc s o) (baseDie (stackOf s g)) = true → latRegion s x.loc = some (r, off) →
    exec (.latticeQueryComplete op) s = .next (cmdReturn s o
      (valWords (if field = 4 then 8 else 4) (jqryValue r (stacksOf (partAt s (partOf s g))).length (stackOf s g) field))))

/-- The steps of the fabric engines and of the peers: replies, acceptance at the port, acknowledgements, inbound accesses, XFENCE, XQRY, collectives, and a peer's reset (R400-R413). The steps and the moments of a collective are the model's reading (log 50), the peers as parties its choice (log 51). -/
def Obligations.FabricEventResults : Prop :=
  (∀ (s : State) (op lane : Nat) (vals : List W32) (tag : FabTag) (o : Op) (g : Group) (x : LaneOp), getOp s op = some o → getG s o.g = some g →
    o.lanes.find? (fun x => x.lane == lane) = some x → x.st = .peer → frameHere s o.g = true →
    fabStale s (partOf s g) (((fabTargets (partAt s (partOf s g)) x.loc).head?).getD 0) tag.incarn (some tag.req) = false →
    let s1 := fabFlag s o.g (isRmw o.kind || acqOrder o.order) tag.mism
    let s2 := fabricSync (if acqOrder o.order && wideScope o.scope then acquireAct s1 g else s1) g o lane (((fabTargets (partAt s (partOf s g)) x.loc).head?).getD 0)
    let ws := laneReturns o (wordBytes o.size vals)
    exec (.peerAccessReply op lane 0 ⟨vals, tag⟩) s = .next (opEnd (setLane (returnValue s2 o lane ws) op lane (fun x => { x with st := .performed, val := ws })) op)) ∧
  (∀ (s : State) (op lane status : Nat) (vals : List W32) (tag : FabTag) (o : Op) (g : Group) (x : LaneOp), getOp s op = some o → getG s o.g = some g →
    o.lanes.find? (fun x => x.lane == lane) = some x → x.st = .peer → frameHere s o.g = true → status ≠ 0 →
    (status ≠ 1 → fabStale s (partOf s g) (((fabTargets (partAt s (partOf s g)) x.loc).head?).getD 0) tag.incarn (some tag.req) = false) →
    exec (.peerAccessReply op lane status ⟨vals, tag⟩) s = .next (failLane s o lane 0x10 (if status = 1 then 0 else 2))) ∧
  (∀ (s : State) (op lane status : Nat) (vals : List W32) (tag : FabTag) (o : Op) (g : Group) (x : LaneOp), getOp s op = some o → getG s o.g = some g →
    o.lanes.find? (fun x => x.lane == lane) = some x → x.st = .peer → frameHere s o.g = true → status ≠ 1 →
    fabStale s (partOf s g) (((fabTargets (partAt s (partOf s g)) x.loc).head?).getD 0) tag.incarn (some tag.req) = true →
    exec (.peerAccessReply op lane status ⟨vals, tag⟩) s = .next (dropStale s (partOf s g))) ∧
  (∀ (s : State) (op : Nat) (o : Op), getOp s op = some o → exec (.fabricPortAccept op) s = .next (o.lanes.foldl (fun s x => portLane op s x.lane) s)) ∧
  (∀ (s : State) (write member : Nat) (failed : Bool) (tag : FabTag) (w : PeerWrite), getWrite s write = some w → w.pending.contains member = true →
    fabStale s (w.part) member tag.incarn (some tag.req) = false →
    exec (.peerWriteAck write ⟨member, failed, tag⟩) s = .next (stepWrite (fabFlag s w.g w.red.isSome tag.mism) write (fun w =>
      { w with pending := w.pending.filter (· != member), failed := w.failed || failed }))) ∧
  (∀ (s : State) (write member : Nat) (failed : Bool) (tag : FabTag) (w : PeerWrite), getWrite s write = some w → w.pending.contains member = true →
    fabStale s (w.part) member tag.incarn (some tag.req) = true →
    exec (.peerWriteAck write ⟨member, failed, tag⟩) s = .next (dropStale s (w.part))) ∧
  (∀ (s : State) (u : FabricUpdate) (me : Nat), (partAt s u.part).member = some me → (membersOf (partAt s u.part) u.group).contains me = true →
    (peerAt s u.part u.member).isSome = true → fabStale s u.part u.member u.incarn none = false →
    let e := objTable s u.part u.obj
    let ua := e.ubase + u.off
    entGrants e u.off u.size (if u.red.isSome then 10 else 2) = true → uniHere s u.part ua u.size = true →
    let a := outsideAcc u
    let s0 := { s with fresh := s.fresh + 1 }
    exec (.multicastApply ⟨some u, []⟩) s = .next (answerUpdate (fabricWrite s0 a (outsideRel s0 a u.part u.order) u.part ua (leBytes u.size (match u.red with
        | some op => atomNew op.toNat u.size (leValue (uniRd s u.part ua u.size)) u.data
        | none => u.data))) true (mismatch s a.me u.strong u.red.isSome (.uni u.part ua) u.size) u)) ∧
  (∀ (s : State) (u : FabricUpdate) (me : Nat), (partAt s u.part).member = some me → (membersOf (partAt s u.part) u.group).contains me = true →
    (peerAt s u.part u.member).isSome = true → fabStale s u.part u.member u.incarn none = false →
    entGrants (objTable s u.part u.obj) u.off u.size (if u.red.isSome then 10 else 2) = false →
    exec (.multicastApply ⟨some u, []⟩) s = .next (answerUpdate s false false u)) ∧
  (∀ (s : State) (write : Nat) (w : PeerWrite), getWrite s write = some w → w.own = true → ownBefore s w = false →
    let d := ownDo w
    let e := objTable s (w.part) d.obj
    let ua := e.ubase + d.off
    entGrants e d.off d.size (if d.red.isSome then 10 else 2) = true → uniHere s (w.part) ua d.size = true →
    let s0 := ownFlag w.part ua { s with fresh := s.fresh + 1 } w
    exec (.multicastApply ⟨none, [write]⟩) s = .next (stepWrite (fabricWrite s0 (ownAcc w) w.rels w.part ua
      (leBytes d.size (match d.red with
        | some op => atomNew op.toNat d.size (leValue (uniRd s w.part ua d.size)) d.data
        | none => d.data))) write (fun w => { w with own := false, failed := w.failed || false }))) ∧
  (∀ (s : State) (acc : FabricAccess) (q : Peer), peerAt s acc.part acc.member = some q → fabStale s acc.part acc.member acc.incarn none = false →
    let e := objTable s acc.part acc.obj
    let ua := e.ubase + acc.off
    entGrants e acc.off acc.size (accessRights acc.kind) = true → uniHere s acc.part ua acc.size = true →
    let r := fabricAccess s acc ua
    exec (.inboundFabricAccess acc) s = .next { r.1 with fabOut := r.1.fabOut ++ [⟨acc.part, acc.member, acc.incarn, true, match acc.kind with
      | .write _ => []
      | .read | .atom _ _ | .acas _ _ => r.2.1, r.2.2⟩] }) ∧
  (∀ (s : State) (acc : FabricAccess) (q : Peer), peerAt s acc.part acc.member = some q → fabStale s acc.part acc.member acc.incarn none = false →
    entGrants (objTable s acc.part acc.obj) acc.off acc.size (accessRights acc.kind) = false →
    exec (.inboundFabricAccess acc) s = .next { s with fabOut := s.fabOut ++ [⟨acc.part, acc.member, acc.incarn, false, [], false⟩] }) ∧
  (∀ (s : State) (acc : FabricAccess) (q : Peer), peerAt s acc.part acc.member = some q → q.incarn ≠ acc.incarn →
    exec (.inboundFabricAccess acc) s = .next (modP s acc.part (fun p => { p with staleFab := p.staleFab + 1 }))) ∧
  (∀ (s : State) (op : Nat) (m : Option Nat) (o : Op) (g : Group), getOp s op = some o → o.kind = .xfence m → getG s o.g = some g → xWaits s g op m = false →
    frameHere s o.g = true →
    exec (.xfenceDone op) s = .next (cmdReturn (modG s o.g (fun g => { g with xf := g.xf.map (fun x : XfFail => if !xCounts op m x then x else match m with
      | none => { x with byAll := true }
      | some k => { x with byOne := k :: x.byOne }) })) o [BitVec.ofNat 32 (min (g.xf.filter (xCounts op m)).length 0xFFFFFFFF)])) ∧
  (∀ (s : State) (op v : Nat) (o : Op), getOp s op = some o → o.kind = .xqry v → frameHere s o.g = true →
    exec (.fabricQueryComplete op) s = .next (cmdReturn s o [BitVec.ofNat 32 v])) ∧
  (∀ (s : State) (coll : Nat) (peers : List PeerColl) (c : Coll), getColl s coll = some c → c.out = none → freshPeers s c peers = peers → (peers = [] → c.n = 1) →
    collMatch c peers = some false →
    exec (.collectiveComplete coll peers) s = .next (modColl s coll (fun c => { c with out := some false, peers := peers }))) ∧
  (∀ (s : State) (coll : Nat) (peers : List PeerColl) (c : Coll), getColl s coll = some c → c.out = none → freshPeers s c peers = peers → (peers = [] → c.n = 1) →
    collMatch c peers = some true →
    exec (.collectiveComplete coll peers) s = .next (failColls s (fun e => e.id == coll))) ∧
  (∀ (s : State) (coll : Nat) (peers : List PeerColl) (c : Coll), getColl s coll = some c → c.out = some false → c.sent = false → freshPeers s c peers = peers →
    peers.any (fun q => !q.agrees) = true →
    exec (.collectiveComplete coll peers) s = .next (failColls s (fun e => e.id == coll))) ∧
  (∀ (s : State) (coll : Nat) (c : Coll), getColl s coll = some c → (c.out = none ∧ c.n ≠ 1) ∨ (c.out = some false ∧ c.sent = false) → readDue s c = true →
    exec (.collectiveComplete coll []) s = .next (collRead s c)) ∧
  (∀ (s : State) (coll : Nat) (peers : List PeerColl) (c : Coll) (err : Bool), getColl s coll = some c → c.out = some err → c.sent = false → c.staged = false →
    freshPeers s c peers = peers → (err = false → c.own.isSome = true ∧ peers.any (fun q => !q.agrees) = false) → ctxOut s c.ctx = false →
    exec (.collectiveComplete coll peers) s = .next (collStage s c err)) ∧
  (∀ (s : State) (coll : Nat) (peers : List PeerColl) (c : Coll) (l : CopyLine) (err : Bool), getColl s coll = some c → c.out = some err → c.sent = false → c.staged = true →
    freshPeers s c peers = peers → (err = false → c.own.isSome = true ∧ peers.any (fun q => !q.agrees) = false) → collNext s c = some l →
    exec (.collectiveComplete coll peers) s = .next (collLand s c l)) ∧
  (∀ (s : State) (coll : Nat) (peers : List PeerColl) (c : Coll) (err : Bool), getColl s coll = some c → c.out = some err → c.sent = false → c.staged = true →
    freshPeers s c peers = peers → (err = false → c.own.isSome = true ∧ peers.any (fun q => !q.agrees) = false) → c.lines = [] → ctxOut s c.ctx = false →
    s.colls.any (fun e => decide (e.id < c.id) && collOrdered e c && !(e.sent && !creditOut s e.id)) = false →
    exec (.collectiveComplete coll peers) s = .next (collReport s c err)) ∧
  (∀ (s : State) (coll : Nat) (c : Coll), getColl s coll = some c → c.out = none → c.since + 2 ^ 30 < s.tick →
    exec (.collectiveTimeout coll) s = .next (failColls s (fun e => e.id == coll))) ∧
  (∀ (s : State) (part member incarn : Nat),
    let s1 := modP s part (fun p => { p with peers := p.peers.map (fun q => if q.member = member then { q with incarn := incarn } else q) })
    let mine := fun (g : Nat) => match getG s g with
      | some h => partOf s h == part
      | none => false
    let lost := s.ops.flatMap (fun o => if mine o.g then (o.lanes.filter (fun x => x.st == .peer && (match x.loc with
        | .peer m _ _ => m == member
        | _ => false))).map (fun x => (o.id, x.lane)) else [])
    let s2 := lost.foldl (fun s x => match getOp s x.1 with
      | some o => failLane s o x.2 0x10 0
      | none => s) s1
    let ws := s.pwrites.filter (fun w => w.part == part && w.pending.contains member)
    let s3 := ws.foldl (fun s w => stepWrite s w.id (fun w => { w with pending := w.pending.filter (· != member), failed := true })) s2
    exec (.peerResetLearned part member incarn) s = .next (failColls s3 (fun c => c.part == part && (membersOf (partAt s part) c.mgrp).contains member)))

/-- Admission, starvation and delivery on the ring, die and module resets, incarnation tables and the requests lost with a die (R18-R24, R41). -/
def Obligations.RingAndDieEventResults : Prop :=
  (∀ (s : State) (pkt : Nat) (p : Pkt), getPkt s pkt = some p → p.flying = false → p.delivered = false → (dieAt s p.src).loaded = true →
    (dieAt s p.src).announcing = false → hasTurn s p = true → (stopDir s p.srcStop p.up).used + p.flits + 2 ≤ 16 →
    throughFlits s p.srcStop p.up = false → (stopDir s (nextStop p.srcStop p.up) p.up).starved = false →
    exec (.ringPacketAdmit pkt) s = .next (modStop (modPkt s pkt (fun p => { p with flying := true, fl := List.replicate p.flits p.srcStop })) p.srcStop p.up
      (fun d => { d with used := d.used + p.flits, refused := 0, starved := false, turn := p.part }))) ∧
  (∀ (s : State) (pkt : Nat) (p : Pkt), getPkt s pkt = some p → p.flying = false → p.delivered = false → (dieAt s p.src).loaded = true →
    (dieAt s p.src).announcing = false → hasTurn s p = true →
    (16 < (stopDir s p.srcStop p.up).used + p.flits + 2 ∨ throughFlits s p.srcStop p.up = true ∨ (stopDir s (nextStop p.srcStop p.up) p.up).starved = true) →
    exec (.ringPacketAdmit pkt) s = .next (modStop s p.srcStop p.up (fun d => { d with refused := d.refused + 1 }))) ∧
  (∀ (s : State) (stop : Nat) (up : Bool), exec (.ringAdmissionStarved stop up) s =
    .next (modStop s stop up (fun d => if 256 ≤ d.refused then { d with starved := true } else d))) ∧
  (∀ (s : State) (pkt : Nat) (p : Pkt), getPkt s pkt = some p → p.flying = true → p.delivered = false →
    let r := p.fl.foldl (hopFlit p) (s, [])
    (r.2.any (· != p.dstStop) = true ∨ (dieAt s p.dst).loaded = false) →
    exec (.ringPacketDelivery pkt) s = .next (modPkt r.1 pkt (fun q => { q with fl := r.2 }))) ∧
  (∀ (s : State) (pkt : Nat) (p : Pkt), getPkt s pkt = some p → p.flying = true → p.delivered = false →
    let r := p.fl.foldl (hopFlit p) (s, [])
    r.2.any (· != p.dstStop) = false → (dieAt s p.dst).loaded = true →
    let t := modStop r.1 p.dstStop p.up (fun d => { d with used := d.used - p.flits })
    exec (.ringPacketDelivery pkt) s = .next (if pktStale t p then modDie (delPkt t pkt) p.dst (fun d => { d with stale := d.stale + 1 })
      else modPkt t pkt (fun q => { q with flying := false, delivered := true, fl := [] }))) ∧
  (∀ (s : State), exec (.dieReset 0) s = .next (moduleReset s)) ∧
  (∀ (s : State), exec (.dieReset 1) s = .next (baseBReset s)) ∧
  (∀ (s : State) (die : Nat), 2 ≤ die → die < Config.numDies → exec (.dieReset die) s = .next (computeReset s die)) ∧
  (∀ (s : State) (die : Nat), (dieAt s die).loaded = false → exec (.incarnationTableLoad die) s =
    .next (wbFlush (modDie s die (fun d => { d with table := s.dies.map Die.incarn, loaded := true, announcing := true })))) ∧
  (∀ (s : State) (die : Nat), (dieAt s die).announcing = true → (die ≤ 1 → stillOut s die = false) → exec (.incarnationAnnounce die) s =
    .next (wbFlush (modDie { s with dies := s.dies.map (fun d => { d with table := d.table.set die (dieAt s die).incarn }) } die (fun d => { d with announcing := false })))) ∧
  (∀ (s : State) (die target : Nat), target ≤ 1 → (dieAt s target).announcing = true →
    let s1 := failLanes s (lanesToward s (fun core => sentFrom core die) target) 0
    let rs := s.reqs.filter (fun r => sentFrom (reqCore s r) die && reqOut s r target)
    let s2 := rs.foldl (fun s r => modReq s r.id (abortToward s target)) s1
    let cs := s.mcmds.filter (fun c => sentFrom (coreOfCtx s c.ctx) die && cmdOut s c target)
    let s3 := (cs.map MCmd.id).foldl abortDrain s2
    let lost := fun (c : Coll) => sentFrom (coreOfCtx s c.ctx) die && collOut s c target
    exec (.targetResetCompletion die target) s = .next (if s.colls.any lost then failColls s3 lost else s3)) ∧
  (∀ (s : State), exec .baseDieBError s = .next (baseBReset s)) ∧
  (∀ (s : State), exec .baseDieAError s = .next (moduleReset s)) ∧
  (∀ (s : State), exec .modulePowerOn s = .next (keepOutside s State.reset)) ∧
  (∀ (s : State) (link : Nat), exec (.linkRetrain link) s = .next { s with
    links := s.links.set link true, msix := s.msix ++ s.heldMsix.filter (fun x => funcLink s x.1 == link)
    heldMsix := s.heldMsix.filter (fun x => !(funcLink s x.1 == link)) })

/-- The ordering point, host memory requests, the HREQ commands and OTINV (R419-R427, R430, R440, R441). That a line is written and acknowledged in one event is the model's reading (log 60). -/
def Obligations.HostPortEventResults : Prop :=
  (∀ (s : State) (req : HostReq), linkUp s req.link = true → funcTakes s req = true → reqFits s req req.data.length = true →
    exec (.inboundPostedWrite req) s = .next { s with nextId := s.nextId + 1, inb := s.inb ++ [{ id := s.nextId, inc := (dieAt s (portDie req.link)).incarn, req := req, lines := inbLines (reqUa s req) req.data }] }) ∧
  (∀ (s : State) (req : HostReq), linkUp s req.link = true → (funcTakes s req && reqFits s req req.data.length) = false →
    exec (.inboundPostedWrite req) s = .next (logUr s)) ∧
  (∀ (s t : State) (req : HostReq) (status : Nat) (ep : Bool) (bs : List Byte), linkUp s req.link = true → funcTakes s req = true → reqFits s req req.len = true → readTurn s req = true →
    readLines s (senderNow s (portDie req.link)) req.part false [] (linePieces (reqUa s req) req.len) = some (t, status, ep, bs) →
    exec (.inboundRead req) s = .next { t with cpls := t.cpls ++ [⟨req.link, req.rid, status, ep, bs⟩] }) ∧
  (∀ (s : State) (req : HostReq), linkUp s req.link = true → (funcTakes s req && reqFits s req req.len) = false →
    exec (.inboundRead req) s = .next { s with cpls := s.cpls ++ [⟨req.link, req.rid, 1, false, []⟩] }) ∧
  (∀ (s t : State) (req : HostReq) (k : FabricKind), linkUp s req.link = true → funcTakes s req = true → (req.data.length = 4 ∨ req.data.length = 8) →
    reqUa s req % req.data.length = 0 → reqFits s req req.data.length = true → readTurn s req = true → inbReach s (senderNow s (portDie req.link)) req.part (reqUa s req) = .go t →
    atomicKind req = some k → badLine t (.uni req.part (reqUa s req)) req.data.length = false →
    let r := hostAccess (countHost t req.part (reqUa s req)) req.part (reqUa s req) req.data.length .ar k
    exec (.inboundAtomicop req) s = .next { r.1 with cpls := r.1.cpls ++ [⟨req.link, req.rid, 0, false, r.2⟩] }) ∧
  (∀ (s : State) (req : HostReq), linkUp s req.link = true → (funcTakes s req = false ∨ reqFits s req req.data.length = false ∨ atomicKind req = none) →
    exec (.inboundAtomicop req) s = .next { s with cpls := s.cpls ++ [⟨req.link, req.rid, 1, false, []⟩] }) ∧
  (∀ (s : State) (req line : Nat) (i : Inbound) (l : InbLine), s.inb.find? (fun i => i.id == req) = some i → i.lines.find? (fun l => l.id == line && !l.acked) = some l →
    mayRelease s i = true → (partAt s i.req.part).enable = true →
    exec (.inboundLineAck req line) s = .next (match inbReach s (portDie i.req.link, i.inc) i.req.part l.ua with
      | .held => s
      | .refused => logUr (ackLine s req line)
      | .go t =>
        let home := homeDie t i.req.part (l.ua / 4096)
        if reqStale t (portDie i.req.link, i.inc) home then countStale (ackLine s req line) home
        else ackLine (hostAccess (countHost t i.req.part l.ua) i.req.part l.ua l.data.length (if i.req.ro then .rlx else .rel) (.write (leValue l.data))).1 req line)) ∧
  (∀ (s : State) (op : Nat) (lanes : Mask), exec (.hostMemoryRequest op lanes) s = .next ((lanesOf lanes).foldl (hostLane op) s)) ∧
  (∀ (s : State) (op lane : Nat) (vals : List W32) (o : Op) (g : Group) (x : LaneOp), getOp s op = some o → getG s o.g = some g →
    o.lanes.find? (fun x => x.lane == lane) = some x → x.st = .host → frameHere s o.g = true →
    exec (.hostCompletion op lane false vals) s = .next (failLane s o lane 0x10 4)) ∧
  (∀ (s : State) (op lane p ua : Nat) (vals : List W32) (o : Op) (g : Group) (x : LaneOp), getOp s op = some o → getG s o.g = some g →
    o.lanes.find? (fun x => x.lane == lane) = some x → x.st = .host → frameHere s o.g = true → x.loc = .uni p ua →
    exec (.hostCompletion op lane true vals) s = .next (hostPerform (uniPut s p ua (wordBytes o.size vals)) g o x)) ∧
  (∀ (s : State) (part gran : Nat), HreqFree s part gran → hreqRefuse s part gran false = none →
    let g := granAt (partAt s part) gran
    exec (.hreqQuery part gran) s = .next (hreqDone (hreqSet s part gran 0 0) ((match g.state with
      | .none => 0
      | .hbm k => 1 * 2 ^ 8 + k * 2 ^ 16 + hbmHalf k * 2 ^ 20
      | .tier2 h => 2 * 2 ^ 8 + h * 2 ^ 20
      | .host _ => 3 * 2 ^ 8) + b2n g.pinned * 2 ^ 21))) ∧
  (∀ (s : State) (part gran : Nat), HreqFree s part gran → hreqRefuse s part gran false = none → (granAt (partAt s part) gran).state ≠ .none →
    exec (.hreqPin part gran) s = .next (hreqDone (setPins (hreqSet s part gran 1 0) part (pageOf (sizeOfPage s part gran) gran) true) 0)) ∧
  (∀ (s t : State) (part gran : Nat), HreqFree s part gran → hreqRefuse s part gran false = none → (granAt (partAt s part) gran).state = .none →
    backPage (hreqSet s part gran 1 0) part gran (hostHalf (partAt s part)) = some t →
    exec (.hreqPin part gran) s = .next (hreqDone (setPins t part (pageOf (sizeOfPage s part gran) gran) true) 0)) ∧
  (∀ (s : State) (part gran : Nat), HreqFree s part gran → hreqRefuse s part gran false = none →
    exec (.hreqUnpin part gran) s = .next (hreqDone (setPins (hreqSet s part gran 2 0) part (pageOf (sizeOfPage s part gran) gran) false) 0)) ∧
  (∀ (s : State) (part gran hpa : Nat), HreqFree s part gran → hreqRefuse s part gran true = none → (granAt (partAt s part) gran).state ≠ .none →
    exec (.hreqTohost part gran hpa) s = .next { startMove (hreqSet s part gran 3 hpa) part (pageOf (sizeOfPage s part gran) gran)
      (fun n => .host (hpa / 4096 * 4096 + 4096 * n - 4096 * gran)) with hres := hresBusy, hcmd := some ⟨part, gran, 3, hpa, false⟩ }) ∧
  (∀ (s : State) (part gran : Nat) (st : GranState), HreqFree s part gran → hreqRefuse s part gran true = none → granHost (granAt (partAt s part) gran) = true →
    placeOn (partAt s part) (hostHalf (partAt s part)) (pageOf (sizeOfPage s part gran) gran).length ((mpEntry s part (4096 * gran)).bind ObjEnt.hint) = some st →
    exec (.hreqTodev part gran) s = .next { startMove (hreqSet s part gran 4 0) part (pageOf (sizeOfPage s part gran) gran) (fun _ => st) with hres := hresBusy, hcmd := some ⟨part, gran, 4, 0, false⟩ }) ∧
  (∀ (s : State) (part gran : Nat), HreqFree s part gran → hreqRefuse s part gran true = none →
    let ns := pageOf (sizeOfPage s part gran) gran
    exec (.hreqDrop part gran) s = .next (hreqDone (modP (ns.foldl (fun s n => zeroGran s part n) (hreqSet s part gran 5 0)) part
      (fun p => ns.foldl (fun p n => modGran p n (fun g => { g with state := .none })) p)) 0)) ∧
  (∀ (s : State) (part obj : Nat), (partAt s part).otinvBusy = false →
    exec (.otinvWrite part obj) s = .next (modP s part (fun p => { p with otinvObj := obj % 2 ^ 24, otinvBusy := true }))) ∧
  (∀ (s : State) (part : Nat), (partAt s part).otinvBusy = true →
    let bad := fun e : ObjEnt => e.key == ObjKey.g (partAt s part).otinvObj
    exec (.otinvComplete part) s = .next (modP (dropCached s part bad) part (fun p => { p with otinvBusy := false, mpCache := p.mpCache.filter (fun e => !bad e) }))) ∧
  (∀ (s : State) (g : Nat), exec (.systemReleaseFlush g) s = .next { s with hwrites := s.hwrites.filter (fun w => w.g != g) })

/-- Page requests and their answers, the page-request ring, and the steps of a page's move (R433, R436-R439). That the frames of a larger page are contiguous, and that a second answer for a page leaves its backing, are the model's readings (log 55). -/
def Obligations.PageEventResults : Prop :=
  (∀ (s : State) (part gran ctx : Nat) (asker : PageAsker) (w x a e : Bool), askerAt s part gran asker = some (ctx, w, x, a, e) →
    (partAt s part).preqs.any (fun r => r.joined.contains asker) = false → asksFor (partAt s part) gran = true →
    exec (.pageRequest part gran asker) s = .next (modP (askerWaits s gran ctx asker) part (fun p => { p with
      preqs := p.preqs.map (fun r => if r.gran = gran ∧ ¬r.dead then { r with joined := r.joined ++ [asker] } else r) }))) ∧
  (∀ (s : State) (part gran ctx : Nat) (asker : PageAsker) (w x a e : Bool), askerAt s part gran asker = some (ctx, w, x, a, e) →
    (partAt s part).preqs.any (fun r => r.joined.contains asker) = false → asksFor (partAt s part) gran = false →
    let s1 := askerWaits s gran ctx asker
    let r : PageReq := { rid := (partAt s1 part).nextRid % 2 ^ 32, gran := gran, cinc := ((getC s1 ctx).map Ctx.incarn).getD 0, ctx := ctx
                         write := w, exec := x, atom := a, eng := e, joined := [asker], dead := false }
    let s2 := modP s1 part (fun p => { p with nextRid := (partAt s1 part).nextRid + 1, preqs := p.preqs ++ [r] })
    exec (.pageRequest part gran asker) s = .next (pushRec s2 part (requestRec s1 part r))) ∧
  (∀ (s : State) (part head : Nat),
    let s1 := modP s part (fun p => { p with prqHead := BitVec.ofNat 16 head })
    exec (.prqptrHeadWrite part head) s = .next (drainRecs (partAt s1 part).heldRecs s1 part)) ∧
  (∀ (s t : State) (ans : PageAnswer) (r : PageReq), AnswerFor s ans r 0 → (granAt (partAt s (ansPart ans)) r.gran).state = .none → backPage s (ansPart ans) r.gran (touchHalf s r) = some t →
    exec (.pageAnswerZero ans) s = .next { settle t (ansPart ans) r resumeAsker with answ0 := ans.lo, answ1 := ans.hi }) ∧
  (∀ (s t : State) (ans : PageAnswer) (r : PageReq), AnswerFor s ans r 1 → (granAt (partAt s (ansPart ans)) r.gran).state = .none → backPage s (ansPart ans) r.gran (touchHalf s r) = some t →
    let hpa := ans.hi.toNat / 4096 * 4096
    exec (.pageAnswerCopy ans) s = .next { settle (pushRec (fromHost t (ansPart ans) r.gran) (ansPart ans) (noticeRec (ansPart ans) hpa)) (ansPart ans) r resumeAsker with
      answ0 := ans.lo, answ1 := ans.hi }) ∧
  (∀ (s : State) (ans : PageAnswer) (r : PageReq), AnswerFor s ans r 0 → (granAt (partAt s (ansPart ans)) r.gran).state ≠ .none →
    exec (.pageAnswerZero ans) s = .next { settle s (ansPart ans) r resumeAsker with answ0 := ans.lo, answ1 := ans.hi }) ∧
  (∀ (s : State) (ans : PageAnswer) (r : PageReq), AnswerFor s ans r 2 → (granAt (partAt s (ansPart ans)) r.gran).state ≠ .none →
    exec (.pageAnswerMap ans) s = .next { settle (pushRec s (ansPart ans) (noticeRec (ansPart ans) (ans.hi.toNat / 4096 * 4096))) (ansPart ans) r resumeAsker with
      answ0 := ans.lo, answ1 := ans.hi }) ∧
  (∀ (s : State) (ans : PageAnswer) (r : PageReq), AnswerFor s ans r 2 → (granAt (partAt s (ansPart ans)) r.gran).state = .none →
    let hpa := ans.hi.toNat / 4096 * 4096
    let ps := sizeOfPage s (ansPart ans) r.gran
    let t := modP s (ansPart ans) (fun p => (pageOf ps r.gran).foldl (fun p n => modGran p n (fun g =>
      { g with state := .host (hpa + 4096 * n - 4096 * r.gran), psize := ps })) p)
    exec (.pageAnswerMap ans) s = .next { settle t (ansPart ans) r resumeAsker with answ0 := ans.lo, answ1 := ans.hi }) ∧
  (∀ (s : State) (ans : PageAnswer) (r : PageReq), AnswerFor s ans r 3 →
    exec (.pageAnswerFail ans) s = .next { settle s (ansPart ans) r failAsker with answ0 := ans.lo, answ1 := ans.hi }) ∧
  (∀ mk st, (mk, st) ∈ [(Instr.pageAnswerZero, 0), (Instr.pageAnswerCopy, 1), (Instr.pageAnswerMap, 2), (Instr.pageAnswerFail, 3)] →
    ∀ (s : State) (ans : PageAnswer), bits ans.lo.toNat 44 42 = st →
    exec (mk ans) s = .next { pageAnswer s ans.lo.toNat ans.hi.toNat with answ0 := ans.lo, answ1 := ans.hi }) ∧
  (∀ (s : State) (part gran : Nat) (st : GranState), (granAt (partAt s part) gran).moving = some st →
    (moveDies s part gran st).all (mayReach s (senderNow s 0)) = true →
    let bs := if granHost (granAt (partAt s part) gran) then (List.range 4096).map (Config.freeByte s.fresh) else uniRd s part (4096 * gran) 4096
    let s1 := modP (zeroGran { s with fresh := s.fresh + 1 } part gran) part (fun p => modGran p gran (fun g => { g with state := st, moving := none }))
    exec (.pageMoveStep part gran) s = .next (hreqNext (uniPut s1 part (4096 * gran) bs)))

/-- PCFG, teardown and its completion, function-level reset, MCTP management, register writes, and the epochs of page placement (R399, R403, R416-R418, R432, R441, R442). -/
def Obligations.PartitionEventResults : Prop :=
  (∀ (s : State) (part : Nat) (val : W64) (grant : List Nat), ((partAt s part).enable && !val.getLsbD 9) = false →
    exec (.partitionEnable part val grant) s = .next (pcfgWrite s part val grant)) ∧
  (∀ (s : State) (part : Nat), (partAt s part).enable = true → exec (.partitionTeardown part) s = .next (teardown s part)) ∧
  (∀ (s : State) (part : Nat), (partAt s part).teardown = true → partQuiet s part = true →
    let s1 := dropUni (dropCached s part (fun _ => true)) part
    let s2 := modP s1 part (fun p => { p with
      teardown := false, faulted := false, grans := [], regions := [], mpCache := [], grant := List.replicate 14 0, otinvBusy := false })
    let mine := s2.hcmd.any (fun c => c.part == part)
    exec (.teardownComplete part) s = .next { dropPkts s2 (fun k => k.part == part) with
      hres := if mine then BitVec.ofNat 64 (Config.freeByte s2.fresh 0).toNat else s2.hres
      hcmd := if mine then none else s2.hcmd
      fresh := s2.fresh + 1
      grids := s2.grids.filter (fun g => g.part != part), runs := s2.runs.filter (fun r => r.part != part)
      strong := s2.strong.filter (fun r => r.part % outsideBase != part)
      cellCache := s2.cellCache.map (fun l => l.filter (fun c => c.part != part))
      cores := s2.cores.zipIdx.map (fun c => if coreOfPart (partAt s part) c.2 then
        { c.1 with regionCache := c.1.regionCache.filter (fun r => r / 4096 != part) } else c.1) }) ∧
  (∀ (s : State) (part : Nat), ((partAt s part).epoch + 1) * 2 ^ 20 ≤ s.tick →
    let s1 := modP { s with fresh := s.fresh + 1 } part (fun p => { p with epoch := s.tick / 2 ^ 20, grans := p.grans.map (epochCount s.fresh) })
    let s1 := (advisedFirst (pageStats s1 part) [1, 4]).foldl (moveUp part) s1
    let s2 := (advisedFirst (pageStats s1 part) [1, 4]).foldl (moveAcross part) s1
    let hot := (pageStats s2 part).filter (fun x => match x.state with
      | .hbm _ => true
      | .none | .tier2 _ | .host _ => false)
    exec (.epochEnd part) s = .next ((advisedFirst (hot.foldr insertPage []) [2]).foldl (moveDown part) s2)) ∧
  (∀ (s : State) (part : Nat), (partAt s part).enable = true →
    let s1 := emptyIntakes (killPart s part) part false
    let s2 := modP s1 part (fun p => { p with preqs := p.preqs.map (fun r => { r with joined := [], dead := true }) })
    exec (.functionLevelReset (part + 1)) s = .next { s2 with
      inb := s2.inb.filter (fun i => i.req.part != part)
      runs := s2.runs.map (fun r => if r.part = part ∧ ¬r.done then
        { r with status := 4, nodes := r.nodes.map (fun n => if n.state = .waiting then { n with state := .skipped } else n) } else r) }) ∧
  (∀ (s : State), exec (.functionLevelReset 0) s = .next { s with heldMsix := s.heldMsix.filter (fun x => x.1 != 0) }) ∧
  (∀ (s : State) (off : Nat) (val : W64), exec (.mctpMessage (.write off val)) s = .next (pfReg s off val)) ∧
  (∀ (s : State) (part member : Nat) (members : List Nat), exec (.mctpMessage (.domain part member members)) s = .next (modP s part (fun p => { p with
    member := some member
    peers := (sortedMembers (members.filter (· != member))).map (fun m => (p.peers.find? (fun q => q.member == m)).getD (Peer.new m)) }))) ∧
  (∀ (s : State) (part : Nat), exec (.mctpMessage (.leaveDomain part)) s = .next (modP s part (fun p => { p with member := none, peers := [], groups := [] }))) ∧
  (∀ (s : State) (part member obj len rights : Nat),
    exec (.mctpMessage (.importX part member obj len rights)) s = .next (putImport s part (.x member obj) len rights)) ∧
  (∀ (s : State) (part group obj len rights : Nat),
    exec (.mctpMessage (.importM part group obj len rights)) s = .next (putImport s part (.m group obj) len rights)) ∧
  (∀ (s : State) (part : Nat) (key : ObjKey), exec (.mctpMessage (.dropImport part key)) s =
    .next (modP s part (fun p => { p with imports := p.imports.filter (fun x => x.key != key) }))) ∧
  (∀ (s : State) (part group : Nat) (members : List Nat), exec (.mctpMessage (.group part group members)) s =
    .next (modP s part (fun p => { p with groups := { num := group, members := sortedMembers members } :: p.groups.filter (fun g => g.num != group) }))) ∧
  (∀ (s : State) (part : Nat) (levels : List (Nat × Nat)), exec (.mctpMessage (.hops part levels)) s =
    .next (modP s part (fun p => { p with peers := p.peers.map (fun q =>
      match levels.find? (fun l => l.1 == q.member) with
      | some l => { q with hops := l.2, reach := true }
      | none => { q with reach := false }) }))) ∧
  (∀ (s : State) (off : Nat) (val : W64), linkUp s 0 = true → exec (.registerWrite 0 off val) s = .next (pfReg s off val)) ∧
  (∀ (s : State) (func off : Nat) (val : W64), 0 < func → func ≤ Config.numParts → exec (.registerWrite func off val) s = .next (vfReg s (func - 1) off val))

/-- Submissions to QIN, the queue registers, the packets of a queue, and the agents' QTAKE and QACK (R443-R458, R464). That a packet of a reserved KIND is consumed by CMD_NOP is the model's reading (log 64). -/
def Obligations.CommandQueueEventResults : Prop :=
  (∀ (s : State) (part queue : Nat) (bytes : List Byte), funcUp s part = true → (partAt s part).enable = true → bytes.length = 64 → (queueAt s part queue).enable = true →
    exec (.qinSubmission part queue bytes) s = .next (partEvent (modQ s part queue (fun q => submit q bytes)) part)) ∧
  (∀ (s : State) (part queue : Nat) (val : W64), funcUp s part = true → (partAt s part).enable = true →
    exec (.qcfgEnable part queue val) s = .next (modQ s part queue (fun q =>
      if val.getLsbD 2 && !q.enable then
        { q with vec := (val.extractLsb' 8 11).toNat, enable := val.getLsbD 2, prio := (val.extractLsb' 0 2).toNat, last := 0, qcseq := 0 }
      else { q with vec := (val.extractLsb' 8 11).toNat, enable := val.getLsbD 2, prio := (val.extractLsb' 0 2).toNat }))) ∧
  (∀ (s : State) (part queue : Nat) (val : W64), funcUp s part = true → (partAt s part).enable = true →
    exec (.qstatusClear part queue val) s = .next (modQ s part queue (fun q => { q with overf := q.overf && !val.getLsbD 31, gap := q.gap && !val.getLsbD 30 }))) ∧
  (∀ (s : State) (part queue : Nat) (c : CmdPkt), TurnOf s part queue c → (c.kind = 0 ∨ 7 ≤ c.kind) →
    exec (.cmdNop part queue) s = .next (tookTurn (begun s part queue 1) part queue)) ∧
  (∀ (s : State) (part queue : Nat) (c : CmdPkt), TurnOf s part queue c → c.kind = 6 →
    exec (.cmdFence part queue) s = .next (tookTurn (begun s part queue 1) part queue)) ∧
  (∀ (s : State) (part queue n : Nat) (c : CmdPkt), TurnOf s part queue c → c.kind = 3 → packetCode s part [] c = 0 →
    let s1 := tookTurn (begun s part queue 1) part queue
    s1.runs.any (fun r => r.part == part && r.queue == queue && r.seq == c.seq && !r.done) = false → pick s1 (freeRuns s1) = some n →
    (queueAt s part queue).inBatch = false →
    exec (.cmdGraph part queue) s = .next { s1 with
      fresh := s1.fresh + 1, nextId := s1.nextId + 1
      runs := s1.runs ++ [{ id := s1.nextId, num := n, part := part, queue := queue, seq := c.seq, nodes := runNodes s1 part c.arg0
                            crec := BitVec.ofNat 64 c.arg1, status := 0, faultNode := 0, rec1 := none, done := false }] }) ∧
  (∀ (s : State) (part queue : Nat) (c : CmdPkt), TurnOf s part queue c → c.kind = 3 → packetCode s part [] c ≠ 0 → (queueAt s part queue).inBatch = false →
    exec (.cmdGraph part queue) s = .next (rejectGraph part queue (tookTurn (begun s part queue 1) part queue) c (packetCode s part [] c))) ∧
  (∀ (s : State) (part queue : Nat) (c : CmdPkt), TurnOf s part queue c → c.kind = 4 → packetCode s part [] c = 0 →
    let s1 := tookTurn (begun s part queue 1) part queue
    exec (.cmdRcreate part queue) s = .next (modP { s1 with nextId := s1.nextId + 1, fresh := s1.fresh + 8 } part (fun p =>
      { p with regions := p.regions ++ [regionOf s1 p (c.arg0 % 4096) (regionRec c) s1.tick s1.nextId] }))) ∧
  (∀ (s : State) (part queue : Nat) (c : CmdPkt), TurnOf s part queue c → c.kind = 5 → packetCode s part [] c = 0 →
    let s1 := tookTurn (begun s part queue 1) part queue
    exec (.cmdRdestroy part queue) s = .next (dropDead (modRegion s1 part (c.arg0 % 4096) (fun r =>
      { r with dying := r.dying.or (some (queue, (s1.grids.filter (fun g => g.part == part)).map Grid.id)) })) part)) ∧
  (∀ (s : State) (part queue : Nat) (c : CmdPkt), cmdTurn? s part queue = some c → batchFull (queueAt s part queue) = false → c.kind = 1 →
    (queueAt s part queue).inBatch = false →
    exec (.cmdBegin part queue) s = .next (modQ (tookTurn s part queue) part queue (fun q => { q with inBatch := true, committed := false }))) ∧
  (∀ (s : State) (part queue : Nat) (c : CmdPkt), cmdTurn? s part queue = some c → (queueAt s part queue).inBatch = true → (queueAt s part queue).committed = false →
    (headBatch (queueAt s part queue)).2 = true →
    let cs := (headBatch (queueAt s part queue)).1
    let s1 := tookTurn s part queue
    exec (.cmdCommit part queue) s = .next (match wholeCode s part cs with
      | 0 => modQ (begun s1 part queue 1) part queue (fun q => { q with committed := true })
      | code => cs.foldl (fun s c => rejectGraph part queue s c code)
          (modQ (begun s1 part queue cs.length) part queue (fun q => { q with inBatch := false, committed := false })))) ∧
  (∀ (s : State) (part queue : Nat) (c : CmdPkt), cmdTurn? s part queue = some c → (queueAt s part queue).inBatch = true → (queueAt s part queue).committed = true → c.kind = 2 →
    exec (.cmdCommit part queue) s = .next (modQ (begun (tookTurn s part queue) part queue 1) part queue (fun q => { q with inBatch := false, committed := false }))) ∧
  (∀ (s : State) (op n : Nat) (o : Op) (x : LaneOp) (rest : List LaneOp), getOp s op = some o → o.kind = .qtake n → o.lanes = x :: rest →
    let r := takePkt s (agentPart s o.g) (agentCore s o.g) x.loc
    exec (.qtakeQackComplete op) s = .next (agentReturn r.1 o r.2)) ∧
  (∀ (s : State) (op q seq : Nat) (o : Op), getOp s op = some o → o.kind = .qack q seq →
    let r := ackPkt s (agentPart s o.g) (agentCore s o.g) q seq
    exec (.qtakeQackComplete op) s = .next (agentReturn r.1 o r.2)) ∧
  (∀ (s : State),
    let s1 := (List.range s.cores.length).foldl (fun s k => returnClaim (dropResv s k) k) s
    exec .firmwareRestart s = .next { s1 with
      restart := true
      parts := s1.parts.map (fun p => { p with queues := p.queues.map (fun q =>
        { q with intake := q.intake.map (fun k => { k with taken := none }), batchBy := none }) }) }) ∧
  (∀ (s : State), exec .firmwareRestartEnd s = .next { s with restart := false })

/-- The life of a grid and of a run, and the three limits of a queue's watchdog (R454-R459, R465). That GRID_COMPLETE itself counts the successors down and removes the grid, its teams and its groups is the model's choice (log 63). -/
def Obligations.GridAndRunEventResults : Prop :=
  (∀ (s : State) (run node num : Nat) (r : Run) (n : Node), getRun s run = some r → r.nodes[node]? = some n → pick s (freeGrids s r.part) = some num →
    r.done = false → n.pred = 0 → n.state = .waiting → (partAt s r.part).enable = true → (partAt s r.part).faulted = false →
    let g := freshGrid s.nextId num r.part run node n.lr (gridShares s r.part n.lr)
    exec (.gridStart run node) s = .next (modNode { s with
      fresh := s.fresh + 1, nextId := s.nextId + 1
      grids := s.grids.map (fun h => if h.part = g.part ∧ codeObj h = codeObj g then { h with icache := [] } else h) ++ [{ g with progress := s.tick }] }
      run node (fun n => { n with state := .started }))) ∧
  (∀ (s : State) (grid : Nat) (g : Grid), getGrid s grid = some g → gridOver s g = true →
    let ts := (s.teams.filter (fun t => t.grid == grid)).map Team.id
    let s1 := modRun s g.run (fun r => runAfter r g)
    let s2 := modP s1 g.part (fun p => { p with regions := p.regions.map (fun r => { r with dying := r.dying.map (fun d => (d.1, d.2.filter (· != grid))) }) })
    let s3 := partEvent (dropDead s2 g.part) g.part
    exec (.gridComplete grid) s = .next { s3 with
      groups := s3.groups.filter (fun h => !ts.contains h.team), teams := s3.teams.filter (fun t => t.grid != grid)
      grids := s3.grids.filter (fun h => h.id != grid)
      cur := s3.cur.filter (fun i => s3.groups.any (fun h => h.id == i && !ts.contains h.team)) }) ∧
  (∀ (s : State) (run : Nat) (r : Run), getRun s run = some r → r.done = false →
    r.nodes.all (fun n => n.state == .completed || n.state == .faulted || n.state == .skipped) = true →
    s.hwrites.any (fun w => (getG s w.g).isNone) = false →
    exec (.runComplete run) s = .next (writeCompletion { partEvent s r.part with runs := s.runs.filter (fun x => x.id != run) } r.part r.queue r.crec.toNat
      (completionRec s r.status none (if r.nodes.any (fun n => n.state == .faulted) then some r.faultNode else none) r.rec1))) ∧
  (∀ (s : State) (grid : Nat) (g : Grid), getGrid s grid = some g → g.preDone ≠ some g.progress → ranOut s (gridQueue s g).wPre g.progress = true →
    exec (.watchdogPreempt grid) s = .next { modGrid s grid (fun g => { g with preDone := some g.progress }) with
      ctxs := s.ctxs.map (fun c => if c.grid = grid ∧ c.state = .running then { c with haltReq := true, saveReq := true } else c) }) ∧
  (∀ (s : State) (grid : Nat) (g : Grid), getGrid s grid = some g → g.killed = false → g.killDue = false → ranOut s (gridQueue s g).wKill g.progress = true →
    exec (.watchdogKill grid) s = .next (modGrid s grid (fun g => { g with killDue := true, status := 3, killAt := g.killAt.or (some s.tick) }))) ∧
  (∀ (s : State) (grid t : Nat) (g : Grid), getGrid s grid = some g → g.killAt = some t → ranOut s (gridQueue s g).wFence t = true →
    exec (.watchdogFence grid) s = .next ((((s.ctxs.filter (fun c => c.grid == grid && c.state != .free)).map Ctx.core).eraseDups).foldl fenceCore s))

/-- Control intervals, the facility cap, current ratings, ratio changes, squalls and their re-execution, and the instants, starts and ends of veers (R468-R486). -/
def Obligations.PowerAndVeerEventResults : Prop :=
  (∀ (s : State) (env : PowerEnv), 20000 * (s.interval + 1) ≤ s.tick →
    let gs := grantsOf s env
    let s1 := { s with interval := s.interval + 1, sweep := sweepNext s, fcapBusy := s.fcapBusy && (sweepNext s).isSome
                       overcap := s.overcap + (if 0 < gs.1 then 1 else 0), cores := s.cores.map (fun c => { c with capped := false }) }
    let rows := gs.2.map (sweptRow s)
    let s2 := rows.foldl (fun (s : State) r =>
      modP s r.part (fun p => { p with watts := r.g, gcause := r.cause, ppwr := nth env.mean r.part 0 % 65536 })) s1
    let s3 := (List.range Config.numStacks).foldl (fun s k => modStack s k (match rows.find? (fun r => (partAt s r.part).stackBits.getLsbD k) with
      | some r => stackNext env k (fitPoint env k r.g r.d) r.cause
      | none => stackNext env k 0 0)) s2
    let s4 := { s3 with cores := s3.cores.zipIdx.map (fun c => { c.1 with slices := c.1.slices.zipIdx.map (fun x =>
      { x.1 with set := min (aimRatio s3 c.2 x.2) (x.1.ratio + 1) }) }) }
    exec (.controlInterval env) s = .next { throttleAll s4 with parts := (throttleAll s4).parts.map (fun p => { p with thrSeen := p.thr }) }) ∧
  (∀ (s : State) (val : W64), s.fcapActed.map (·.1) ≠ some (val.extractLsb' 32 16).toNat →
    exec (.fcapWrite val) s = .next { s with
      fcapWatts := (val.extractLsb' 0 16).toNat, fcapSeq := (val.extractLsb' 32 16).toNat
      fcapActed := some ((val.extractLsb' 32 16).toNat, (val.extractLsb' 0 16).toNat), fcapBusy := true, sweep := some 0 }) ∧
  (∀ (s : State) (stack : Nat),
    let s1 := modStack s stack (fun sp =>
      let low := min 8 (sp.heat + sp.amp)
      let amp := sp.amp + if low < 8 then 1 else 0
      let low1 := min 8 (sp.heat + amp)
      if sp.railHit ≠ 0 then sp
      else { sp with amp := amp, railHit := 1, target := max sp.target low1
                     cause := if sp.target ≤ low1 then (if amp ≤ sp.heat then 4 else 5) else sp.cause })
    exec (.currentRatingReached stack) s = .next { s1 with cores := s1.cores.zipIdx.map (fun c =>
      if (coresOfStack stack).contains c.2 then { c.1 with slices := c.1.slices.zipIdx.map (fun x => { x.1 with set := min (aimRatio s1 c.2 x.2) x.1.set }) }
      else c.1) }) ∧
  (∀ (s : State) (stack : Nat),
    let t := (nth s.stackPower stack StackPower.reset).target
    exec (.ratioChange stack) s = .next (throttleAll ((coresOfStack stack).foldl (fun s c => modCore s c (fun c : Core => { c with
      resync := c.resync || c.clk != pointClock t, clk := pointClock t, slices := c.slices.map (fun sl => { sl with ratio := sl.set }) }))
      (modStack s stack (fun sp => { sp with point := t }))))) ∧
  (∀ (s : State) (core : Nat), (coreAt s core).paused = false → coreIssues s core = true →
    let s2 := modCore { s with sqcnt := s.sqcnt + 1 } core (fun c => { c with squall := true, resync := true })
    exec (.squall core) s = .next { s2 with
      fresh := s2.fresh + 1
      groups := s2.groups.map (fun g => if coreOf s g == core && g.slot.isSome && !g.ended && squallHits s g then { g with suspect := true, suspects := max 1 g.suspects } else g)
      mcmds := s2.mcmds.map (fun c => if coreOfCtx s c.ctx == core && c.kind == .mma && decide (0 < c.step) && Config.raceChoice s.fresh c.id % 2 == 1 then
        { c with suspect := true } else c) }) ∧
  (∀ (s : State) (core : Nat), ((coreAt s core).paused = true ∨ coreIssues s core = false) → exec (.squall core) s = .next { s with sqcnt := s.sqcnt + 1 }) ∧
  (∀ (s : State) (gid : Nat) (g : Group), getG s gid = some g → g.suspect = true → (g.trapDue.isSome = true ∨ ∀ c, g.phase ≠ .inClause c) →
    exec (.clauseReexecute gid) s = .next (if (coreAt s (coreOf s g)).squall then
      (let s1 := modG s gid (fun g => { g with suspects := g.suspects + 1 })
       if 1 ≤ g.suspects then throttleAll (modCore s1 (coreOf s g) (fun c => { c with capped := true, slices := c.slices.map (fun sl =>
         { sl with ratio := min sl.ratio 4, set := min sl.set 4 }) })) else s1)
      else modG s gid (fun g => { g with suspect := false, suspects := 0 }))) ∧
  (∀ (s : State) (core : Nat), exec (.squallStretchEnd core) s = .next (modCore s core (fun c => { c with squall := false }))) ∧
  (∀ (s : State) (stack : Nat) (heats hot lee : List Nat), s.vperiod ≠ 0 → nth s.veerAt stack 0 < lastInstant s stack → nth s.veers stack none = none →
    let s1 := { s with veerAt := s.veerAt.set stack (lastInstant s stack) }
    chooseHot s stack heats = some hot → chooseLee s stack heats hot = some lee → hot ≠ lee →
    2 * s.mindiff ≤ unitHeat heats hot - unitHeat heats lee + (unitHeat heats lee - unitHeat heats hot) →
    exec (.veerInstant stack heats) s = .next { s1 with veers := s1.veers.set stack (some { instant := lastInstant s stack, hot := hot, lee := lee, stage := if heldBack s (hot ++ lee) then .deferred else .stopping }) }) ∧
  (∀ (s : State) (stack : Nat) (v : Veer), nth s.veers stack none = some v → v.stage = .deferred → (unitOk s v.hot && unitOk s v.lee) = false →
    exec (.veerStart stack) s = .next (setVeer s stack none)) ∧
  (∀ (s : State) (stack : Nat) (v : Veer), nth s.veers stack none = some v → v.stage = .deferred → unitOk s v.hot = true → unitOk s v.lee = true →
    (heldBack s (v.hot ++ v.lee) = false ∨ v.instant + 200000 ≤ s.tick) →
    exec (.veerStart stack) s = .next (setVeer s stack (some { v with stage := .stopping }))) ∧
  (∀ (s : State) (stack : Nat) (v : Veer), nth s.veers stack none = some v → v.stage = .stopping →
    let units := v.hot ++ v.lee
    let s1 := stopUnits s units
    exec (.veerStart stack) s = .next (if s1.groups.any (fun g => units.contains (coreOf s1 g) && keepsGoing g) then s1
      else throttleAll (units.foldl (fun s c => modCore s c (fun k => { k with paused := true })) (setVeer s1 stack (some { v with stage := .paused }))))) ∧
  (∀ (s : State) (stack : Nat) (v : Veer), nth s.veers stack none = some v → v.stage = .paused → linesLand s (v.hot ++ v.lee) = false →
    let units := v.hot ++ v.lee
    let done := setVeer s stack (some { v with stage := .moved })
    let s1 := l1Act done (fun c => units.contains c.core) (fun _ => true) true (fun _ => none)
    exec (.veerStart stack) s = .next (if (v.hot.zip v.lee).all (fun x => imageFits s x.1 x.2 && imageFits s x.2 x.1) then
        countVeers ((v.hot.zip v.lee).foldl (fun s (x : Nat × Nat) => exchange s x.1 x.2) s1) units
      else done)) ∧
  (∀ (s : State) (stack : Nat) (v : Veer), nth s.veers stack none = some v → v.stage = .moved →
    let units := v.hot ++ v.lee
    let s1 := units.foldl (fun s c => modCore s c (fun k => { k with paused := false })) s
    let s2 := { setVeer s1 stack none with
      groups := s1.groups.map (fun g => if units.contains (coreOf s1 g) && g.slot.isSome && (ctxOf s1 g).any (fun c => c.state == .running) then
        { g with halted := false } else g) }
    let s3 := units.foldl (fun t c => boostOver s t c) s2
    exec (.veerPauseEnd stack) s = .next (((units.flatMap (carried s3)).filter (fun c => c.state == .halting)).foldl
      (fun s c => haltDone ((groupsOf s c.id).foldl haltGroup s) c.id) s3))

/-- R159: the six instructions complete, and each element of the result is the sum, difference, negation, absolute value, minimum or maximum of the elements modulo 2^w, or with `.sat` clamped to the element type's range. -/
def Obligations.ElementArithmetic : Prop :=
  LaneResult .iadd 0x05 (fun f => spAB f.ty 4) (fun f i => outV (iaddVal f.ty (variant f) i.a i.b)) ∧
  LaneResult .isub 0x06 (fun f => spAB f.ty 4) (fun f i => outV (isubVal f.ty (variant f) i.a i.b)) ∧
  LaneResult .ineg 0x09 (fun f => spA f.ty 4) (fun f i => outV (inegVal f.ty (variant f) i.a)) ∧
  LaneResult .iabs 0x0A (fun f => spA f.ty 4) (fun f i => outV (iabsVal f.ty (variant f) i.a)) ∧
  LaneResult .imin 0x0B (fun f => spAB f.ty 4) (fun f i => outV (iminVal f.ty i.a i.b)) ∧
  LaneResult .imax 0x0C (fun f => spAB f.ty 4) (fun f i => outV (imaxVal f.ty i.a i.b)) ∧
  (∀ (ty : Ty) (a b e : Nat), e < (tyElems ty).2 →
    let x := elemAt ty a e
    let y := elemAt ty b e
    elemAt ty (iaddVal ty false a b) e = x + y ∧ elemAt ty (isubVal ty false a b) e = x - y ∧ elemAt ty (inegVal ty false a) e = -x ∧
    elemAt ty (iabsVal ty false a) e = (if tySigned ty && x.msb then -x else x) ∧
    elemAt ty (iminVal ty a b) e = (if (if tySigned ty then x.sle y else x.ule y) then x else y) ∧
    elemAt ty (imaxVal ty a b) e = (if (if tySigned ty then x.sle y else x.ule y) then y else x)) ∧
  (∀ (ty : Ty) (a b e : Nat), e < (tyElems ty).2 → tySigned ty = true →
    let x := (elemAt ty a e).toInt
    let y := (elemAt ty b e).toInt
    let w := (tyElems ty).1
    let clamp := fun r : Int => max (-2 ^ (w - 1)) (min (2 ^ (w - 1) - 1) r)
    (elemAt ty (iaddVal ty true a b) e).toInt = clamp (x + y) ∧ (elemAt ty (isubVal ty true a b) e).toInt = clamp (x - y) ∧
    (elemAt ty (inegVal ty true a) e).toInt = clamp (-x) ∧ (elemAt ty (iabsVal ty true a) e).toInt = clamp x.natAbs) ∧
  (∀ (ty : Ty) (a b e : Nat), e < (tyElems ty).2 → tySigned ty = false →
    let x := (elemAt ty a e).toNat
    let y := (elemAt ty b e).toNat
    (elemAt ty (iaddVal ty true a b) e).toNat = min (x + y) (2 ^ (tyElems ty).1 - 1) ∧ (elemAt ty (isubVal ty true a b) e).toNat = x - y ∧
    elemAt ty (inegVal ty true a) e = 0 ∧ (elemAt ty (iabsVal ty true a) e).toNat = x)

/-- R160: the sum with carry and the difference with borrow of 32 or 64 bits, the carry-out written back to bit l of kC; with C = k0 the carry-in reads 1 and the carry-out is discarded. -/
def Obligations.CarryArithmetic : Prop :=
  LaneResult .iaddc 0x07 (fun f => ⟨.val f.ty, .val f.ty, .msk, .valK (tyN f.ty), 4⟩) (fun f i => let r := addCarry (tyElems f.ty).1 i.a i.b (!f.ext.getLsbD 0 && i.kc); ⟨r.1, false, r.2, 0⟩) ∧
  LaneResult .isubb 0x08 (fun f => ⟨.val f.ty, .val f.ty, .msk, .valK (tyN f.ty), 4⟩) (fun f i => let r := subBorrow (tyElems f.ty).1 i.a i.b (!f.ext.getLsbD 0 && i.kc); ⟨r.1, false, r.2, 0⟩) ∧
  (∀ (w a b : Nat) (c : Bool), w = 32 ∨ w = 64 →
    let x := BitVec.ofNat w a
    let y := BitVec.ofNat w b
    let k := BitVec.ofNat w (if c then 1 else 0)
    BitVec.ofNat w (addCarry w a b c).1 = x + y + k ∧ ((addCarry w a b c).2 = true ↔ 2 ^ w ≤ x.toNat + y.toNat + k.toNat) ∧ (addCarry w a b c).1 < 2 ^ w ∧
    BitVec.ofNat w (subBorrow w a b c).1 = x - y - k ∧ ((subBorrow w a b c).2 = true ↔ x.toNat < y.toNat + k.toNat) ∧ (subBorrow w a b c).1 < 2 ^ w) ∧
  (∀ (g : Group) (l : Nat) (bs : List (Nat × Bool)), rdMask g (.k 0) l = true ∧ kput g 0 bs = g)

/-- R162: division truncates towards zero; a zero divisor gives all ones and the dividend, and the most negative value divided by -1 gives itself and remainder 0; with `.trap` a zero divisor in some effective lane takes the integer-divide trap and no lane is written. -/
def Obligations.DivisionResults : Prop :=
  LaneResultIf .idiv 0x11 (fun f _ => !variant f) (fun f _ => spAB f.ty (divLat f.ty)) (fun f _ i => outV (idivremVal f.ty i.a i.b).1) ∧
  LaneResultIf .irem 0x12 (fun f _ => !variant f) (fun f _ => spAB f.ty (divLat f.ty)) (fun f _ i => outV (idivremVal f.ty i.a i.b).2) ∧
  WholeResultIf .idiv 0x11 variant (fun f => spAB f.ty (divLat f.ty)) (fun f i => i.b % 2 ^ (tyElems f.ty).1 != 0) (fun f i => outV (idivremVal f.ty i.a i.b).1) ∧
  WholeResultIf .irem 0x12 variant (fun f => spAB f.ty (divLat f.ty)) (fun f i => i.b % 2 ^ (tyElems f.ty).1 != 0) (fun f i => outV (idivremVal f.ty i.a i.b).2) ∧
  (∀ mk op, (mk, op) ∈ [(Instr.idiv, 0x11), (Instr.irem, 0x12)] → ∀ (s : State) (g : Group) (c : Clause) (f : FormR), Issues s g c → variant f = true →
    frameFail g (laneOpds f (spAB f.ty (divLat f.ty))) = none →
    let x := touchSrc (due s g) f (spAB f.ty (divLat f.ty))
    let z := (lanesOf (effFirst s g f.gd)).filter (fun l => rdOpd x f.b f.ty l % 2 ^ (tyElems f.ty).1 == 0)
    z ≠ [] → exec (mk f) s = .next (takeTrap (putGM s x) x.g.id 0x08 0 (maskOf z) 0 (wordR op f) (pcOf c) (pcOf c) (some c))) ∧
  (∀ (ty : Ty) (a b : Nat), ty ∈ [Ty.s32, Ty.z32, Ty.s64, Ty.z64] →
    let w := (tyElems ty).1
    let x := BitVec.ofNat w a
    let y := BitVec.ofNat w b
    (y = 0 → idivremVal ty a b = (2 ^ w - 1, x.toNat)) ∧
    (y ≠ 0 → tySigned ty = true → idivremVal ty a b = ((x.sdiv y).toNat, (x.srem y).toNat)) ∧
    (y ≠ 0 → tySigned ty = false → idivremVal ty a b = (x.toNat / y.toNat, x.toNat % y.toNat)))

/-- R165: each element shifted by its count, read as the 32-bit B for one element and as element e of B for packed types; a count of the width or more gives 0, the sign, or the rotation modulo the width; FUNNEL shifts A and B joined. -/
def Obligations.ShiftResults : Prop :=
  LaneResult .shl 0x19 (fun f => ⟨.val f.ty, .val .z32, .no, .val (tyN f.ty), 4⟩) (fun f i => outV (shiftVal shlBits f.ty i.a i.b)) ∧
  LaneResult .shr 0x1A (fun f => ⟨.val f.ty, .val .z32, .no, .val (tyN f.ty), 4⟩) (fun f i => outV (shiftVal shrBits f.ty i.a i.b)) ∧
  LaneResult .sar 0x1B (fun f => ⟨.val f.ty, .val .z32, .no, .val (tyN f.ty), 4⟩) (fun f i => outV (shiftVal sarBits f.ty i.a i.b)) ∧
  LaneResult .rot 0x1C (fun f => ⟨.val f.ty, .val .z32, .no, .val (tyN f.ty), 4⟩) (fun f i => outV (shiftVal rotBits f.ty i.a i.b)) ∧
  LaneResult .funnel 0x1D (fun _ => spABC .b32 4) (fun f i => outV (funnelVal (f.ext.getLsbD 0) i.a i.b i.c)) ∧
  (∀ (w a n : Nat), w ∈ [8, 16, 32, 64] →
    let x := BitVec.ofNat w a
    BitVec.ofNat w (shlBits w a n) = x <<< n ∧ BitVec.ofNat w (shrBits w a n) = x >>> n ∧ BitVec.ofNat w (sarBits w a n) = x.sshiftRight n ∧
    BitVec.ofNat w (rotBits w a n) = x.rotateLeft n ∧ shlBits w a n < 2 ^ w ∧ shrBits w a n < 2 ^ w ∧ sarBits w a n < 2 ^ w ∧ rotBits w a n < 2 ^ w) ∧
  (∀ (f : Nat → Nat → Nat → Nat) (ty : Ty) (a b e : Nat), f ∈ [shlBits, shrBits, sarBits, rotBits] → e < (tyElems ty).2 →
    elemAt ty (shiftVal f ty a b) e = BitVec.ofNat _ (f (tyElems ty).1 (elemAt ty a e).toNat (if (tyElems ty).2 = 1 then b % 2 ^ 32 else (elemAt ty b e).toNat))) ∧
  (∀ (l : Bool) (a b c : Nat), funnelVal l a b c = (let v := BitVec.ofNat 32 a ++ BitVec.ofNat 32 b
    if l then ((v <<< (c % 64)) >>> 32).toNat else (BitVec.setWidth 32 (v >>> (c % 64))).toNat))

/-- R444: the outcome of a 64-byte submission by d = SEQ - LAST modulo 2^32 and by FILL; any other length and a disabled queue are dropped and logged; ENABLE from 0 to 1 sets LAST and QCSEQ to 0. -/
def Obligations.SubmissionTable : Prop :=
  (∀ (s : State) (part queue : Nat) (bytes : List Byte), funcUp s part = true → (partAt s part).enable = true →
    let q := queueAt s part queue
    let seq := (cmdPkt bytes).seq
    let d := (BitVec.ofNat 32 seq - BitVec.ofNat 32 q.last).toNat
    let done := fun (t : State) => ∃ cores, exec (.qinSubmission part queue bytes) s = .next { t with cores := cores }
    (bytes.length ≠ 64 ∨ q.enable = false → exec (.qinSubmission part queue bytes) s = .next { s with unsupported := s.unsupported + 1 }) ∧
    (bytes.length = 64 → q.enable = true →
      (d = 1 → q.intake.length < 256 → done (modQ s part queue (fun q => { q with last := seq, intake := q.intake ++ [{ raw := bytes, taken := none, started := false }] }))) ∧
      (d = 1 → 256 ≤ q.intake.length → done (modQ s part queue (fun q => { q with overf := true }))) ∧
      (d = 0 ∨ 2 ^ 31 ≤ d → done s) ∧
      (2 ≤ d → d < 2 ^ 31 → done (modQ s part queue (fun q => { q with gap := true }))))) ∧
  (∀ (s : State) (part queue : Nat) (val : W64), funcUp s part = true → (partAt s part).enable = true → val.getLsbD 2 = true →
    (queueAt s part queue).enable = false →
    ∃ t, exec (.qcfgEnable part queue val) s = .next t ∧ (queueAt t part queue).last = 0 ∧ (queueAt t part queue).qcseq = 0)

/-- R461, with R302 and R466: what an agent of a core receives and what it holds afterwards. -/
def Obligations.TicketClaims : Prop :=
  (∀ (s : State) (op num : Nat) (lanes : Mask) (o : Op) (gr : Grid), getOp s op = some o → o.kind = .tclaim num →
    liveGrid s (agentPart s o.g) num = some gr → (coreAt s (agentCore s o.g)).fenced = false → (coreAt s (agentCore s o.g)).agent.claim = none →
    let held := fun (t : State) (i : Nat) => modCore t (agentCore s o.g) (fun k => { k with agent := { k.agent with claim := some (gr.id, i) } })
    (∀ i, gr.shares.contains (agentCore s o.g / Config.coresPerStack) = true → gr.returned.min? = some i → exec (.atomicPerformed op lanes) s =
      .next (agentReturn (held (modGrid s gr.id (fun g => { g with returned := g.returned.filter (· != i) })) i) o i)) ∧
    (gr.returned = [] → gr.ticket < gr.lr.teams → exec (.atomicPerformed op lanes) s =
      .next (agentReturn (held (modGrid s gr.id (fun g => { g with ticket := g.ticket + 1 })) gr.ticket) o gr.ticket)) ∧
    (gr.returned = [] → gr.lr.teams ≤ gr.ticket → exec (.atomicPerformed op lanes) s = .next (agentReturn s o (2 ^ 32 - 1)))) ∧
  (∀ (s : State) (op num : Nat) (lanes : Mask) (o : Op), getOp s op = some o → o.kind = .tclaim num →
    liveGrid s (agentPart s o.g) num = none ∨ (coreAt s (agentCore s o.g)).agent.claim.isSome = true →
    exec (.atomicPerformed op lanes) s = .next (agentReturn s o (2 ^ 32 - 1)))

/-- R236: the causes of a store, atomic or reduction over all effective lanes, in their order, with the pointer each records, before any access. -/
def Obligations.StoreFaultOrder : Prop :=
  (∀ (mk : FormM → Instr) (op : Nat) (nB nD : FormM → Nat) (rights : BitVec 4) (atomic : Bool) (refuse : Loc → Nat → Bool),
    (mk, op, nB, nD, rights, atomic, refuse) ∈
      ([(.st, 0x61, fun f => regsOf (sizeBytes f), fun _ => 0, 2, false, fun _ _ => false),
        (.atom, 0x64, fun f => regsOf (sizeBytes f), fun f => regsOf (sizeBytes f), 11, true, fun l p => atomRefuse l p || isMcast l),
        (.acas, 0x65, fun f => 2 * regsOf (sizeBytes f), fun f => regsOf (sizeBytes f), 11, true, fun l p => atomRefuse l p || isMcast l),
        (.red, 0x66, fun f => regsOf (sizeBytes f), fun _ => 0, 10, true, atomRefuse)]
        : List ((FormM → Instr) × Nat × (FormM → Nat) × (FormM → Nat) × BitVec 4 × Bool × (Loc → Nat → Bool))) →
    ∀ (s : State) (g : Group) (c : Clause) (f : FormM), Issues s g c → frameFail g [(f.a, 2), (f.b, nB f), (f.d, nD f)] = none → effFirst s g f.gd ≠ 0 →
    let x := memAt s g op f 2 (nB f)
    let s1 := memFrom s g op f
    let eff := effFirst s g f.gd
    let trap := fun (cause : Nat) (addr : W64) => takeTrap (putGM s1 x) x.g.id cause 0 eff addr (wordM op f) (pcOf c) (pcOf c) (some c)
    (∀ cause addr, chkLanes s1 x f rights refuse (lanesOf eff) = .trap cause addr → cause = .capability ∧ exec (mk f) s = .next (trap 0x05 addr)) ∧
    (∀ ats a, chkLanes s1 x f rights refuse (lanesOf eff) = .go ats → ats.find? (fun a => isLat a.loc) = some a →
      exec (mk f) s = .next (trap 0x07 (BitVec.ofNat 64 a.ptr))) ∧
    (∀ ats a, chkLanes s1 x f rights refuse (lanesOf eff) = .go ats → ats.all (fun a => !isLat a.loc) = true → atomic = true →
      ats.find? (fun a => ptrOff a.ptr % sizeBytes f != 0) = some a → exec (mk f) s = .next (trap 0x06 (BitVec.ofNat 64 a.ptr))) ∧
    (∀ ats, chkLanes s1 x f rights refuse (lanesOf eff) = .go ats → ∀ a ∈ ats, ptrSpace a.ptr ≠ 7 ∧ (atomic = true → ptrSpace a.ptr ≠ 6)))

/-- R281, R283, R284, R304: every scheduled write lands, the record is written with DOUBLE where a handler was due, and the grid is to be killed; the two forced causes always go this way. -/
def Obligations.TrapToSystem : Prop :=
  (∀ (s : State) (g : Group) (cause sub : Nat) (lanes : Mask) (addr word : W64) (pc resume : Nat) (rem : Option Clause) (gr : Grid),
    getG s g.id = some g → gridOf s g = some gr →
    let x := landAll (gmOf s g)
    toUser s x.g cause sub = false →
    let r := trapRec x.g cause sub lanes addr word pc resume (g.hMode || (g.hMask.getLsbD cause && !forcedTrap cause sub)) false
    let h := { x.g with trec := r, trapDue := none }
    let t := takeTrap s g.id cause sub lanes addr word pc resume rem
    OnlyGroup s t g h ∧ t = { s with groups := t.groups, mem := x.m, grids := t.grids } ∧
    t.grids = s.grids.map (fun k => if k.id = gr.id then { k with killDue := true, rec1 := k.rec1.or (some r) } else k)) ∧
  (∀ (s : State) (g : Group) (cause sub : Nat), toUser s g cause sub = true ↔
    g.hMask.getLsbD cause = true ∧ g.hMode = false ∧ cause ≠ 0x03 ∧ ¬(cause = 0x10 ∧ sub = 1) ∧ wbaseOf g + g.hShift < g.frame ∧ handlerEntryOk s g = true)

/-- R281, R282, R284: the record, handler mode, and the handler fibre with the trapped predicate word, the window moved up by the handler shift, wait count 0 and the handler entry as program counter. -/
def Obligations.TrapToHandler : Prop :=
  ∀ (s : State) (g : Group) (cause sub : Nat) (lanes : Mask) (addr word : W64) (pc resume : Nat) (rem : Option Clause),
    getG s g.id = some g →
    let x := landAll (gmOf s g)
    toUser s x.g cause sub = true →
    let h := { x.g with
      trec := trapRec x.g cause sub lanes addr word pc resume false true, trapCount := g.trapCount + 1, hMode := true, trapDue := none, pos := 0
      phase := .header, park := .none, pendTraps := g.pendTraps.map (fun p => { p with kept := true })
      trapped := g.cur.map (fun f => { f with pc := resume, rem := rem }), trapRets := g.rets
      cur := some { pc := g.hEntry, pred := predOf g, wbase := wbaseOf g + g.hShift, waitc := 0, wake := none, hnd := true, rem := none } }
    let t := takeTrap s g.id cause sub lanes addr word pc resume rem
    OnlyGroup s t g h ∧ t = { s with groups := t.groups, mem := x.m }

/-- R284, R286, R292: the handler fibre is discarded, handler mode ends, and the trapped fibre goes on at RESUME with its predicate word and window base. -/
def Obligations.TrapThenReturn : Prop :=
  ∀ (s : State) (g : Group) (f : Fibre) (cause sub : Nat) (lanes : Mask) (addr word : W64) (pc resume : Nat) (rem : Option Clause),
    getG s g.id = some g → toUser s (landAll (gmOf s g)).g cause sub = true → g.cur = some f → f.pred ≠ 0 →
    f.pred &&& g.exited = 0 → f.pred &&& contLanes g = 0 →
    ∃ u, getG (takeTrap s g.id cause sub lanes addr word pc resume rem) g.id = some u ∧
      let r := returnTrap u resume rem
      r.cur = some { f with pc := resume, rem := none } ∧ r.hMode = false ∧ r.trapped = none ∧ r.pos = 0 ∧
      r.phase = (match rem with
        | some c => .inClause c
        | none => .header) ∧
      r.fibres = g.fibres.filter (fun h => !h.hnd) ∧ r.scal = u.scal ∧ r.masks = u.masks ∧ r.rets = g.rets ∧ r.trec = u.trec ∧
      r.exited = g.exited

/-- R76, in the order of R53: reserved opcodes, the codes from 0xF0, and bits 63:58 all ones are refused by the decoder, and such a word, where no check before fails, traps at its issue. -/
def Obligations.IllegalWords : Prop :=
  (∀ w : Nat, fld w 58 6 = 63 ∨ 0xF0 ≤ opField w ∨ (0x52 ≤ opField w ∧ opField w ≤ 0x5F) ∨ (0x77 ≤ opField w ∧ opField w ≤ 0x7F) ∨
      (0x8E ≤ opField w ∧ opField w ≤ 0x8F) ∨ (0x99 ≤ opField w ∧ opField w ≤ 0x9F) ∨ (0xAB ≤ opField w ∧ opField w ≤ 0xAF) ∨
      (0xB4 ≤ opField w ∧ opField w ≤ 0xB7) ∨ (0xC0 ≤ opField w ∧ opField w ≤ 0xC7) ∨ (0xCE ≤ opField w ∧ opField w ≤ 0xCF) ∨
      (0xD3 ≤ opField w ∧ opField w ≤ 0xD7) ∨ (0xDB ≤ opField w ∧ opField w ≤ 0xDF) ∨ (0xE5 ≤ opField w ∧ opField w ≤ 0xEF) →
    ∃ e, decodeNat w = .error e) ∧
  (∀ w : Nat, fld w 58 6 ≠ 63 → headerOf w = none) ∧
  (∀ (s : State) (g : Group) (c : Clause), Standing s g c →
    let w := wordAt s g c
    (∃ e, decode w = .error e) → fld w.toNat 58 6 = 63 ∨ formatOf (opField w.toNat) = none ∨ classCheck g c (opField w.toNat) = none →
    step s = .next (takeTrap (turned s) g.id 0x01 0 (effAt (turned s) g (guardOf w.toNat)) 0 w (pcOf c) (pcOf c) (some c)))

/-- R50: in group slot 15 of slice 0 the checks of privilege pass; elsewhere the header of a system-class clause, and each of the four instructions, takes the privileged-instruction trap. -/
def Obligations.SystemClassPlace : Prop :=
  (∀ (e : ObjEnt) (g : Group) (pc w : Nat) (h : Header), codeOk e pc = true → headerOf w = some h → h.cls = 5 → h.rsv = 0 → inAgentSlot g = false →
    headerCheck e g pc w = some (.privilegedInstr, 0)) ∧
  (∀ (e : ObjEnt) (g : Group) (pc w : Nat) (r : Cause × W64), inAgentSlot g = true → headerCheck e g pc w = some r → r.1 ≠ .privilegedInstr) ∧
  (∀ (s : State) (g : Group) (f : Fibre) (gr : Grid) (refetch : BitVec 4), getG s g.id = some g → g.cur = some f → gridOf s g = some gr → mayStart s g = true →
    g.held = none ∨ g.hMode = true →
    let e := (codeEnt s (coreOf s g) gr).getD (objTable s gr.part (codeObj gr))
    let s1 := objCachePut s (coreOf s g) e
    let r := headerFetch s1 gr e f.pc refetch
    codeHere s1 (coreOf s g) gr e f.pc 8 = true → headerCheck e g f.pc r.2 = some (.privilegedInstr, 0) →
    exec (.clauseStart g.id refetch) s =
      .next (takeTrap (modGrid s1 gr.id (fun _ => r.1)) g.id 0x03 0 f.pred 0 (BitVec.ofNat 64 r.2) f.pc f.pc none)) ∧
  (∀ (s : State) (g : Group) (c : Clause), Standing s g c →
    let w := wordAt s g c
    let op := opField w.toNat
    fld w.toNat 58 6 ≠ 63 → 0x95 ≤ op → op ≤ 0x98 → classOfOp op = c.cls → (clauseEnding op = true → c.idx + 1 = c.cnt) →
    (inAgentSlot g = false →
      step s = .next (takeTrap (turned s) g.id 0x03 0 (effAt (turned s) g (guardOf w.toNat)) 0 w (pcOf c) (pcOf c) (some c))) ∧
    (inAgentSlot g = true → classCheck g c op = none))

/-- R28, R42, R53: with no step of the environment put first, the group whose turn it is runs the instruction that its word decodes to, after the checks of class, place and privilege. -/
def Obligations.StepRunsDecoded : Prop :=
  (∀ (s : State) (g : Group) (c : Clause) (i : Instr), Standing s g c → decode (wordAt s g c) = .ok i →
    classCheck g c (opField (wordAt s g c).toNat) = none → step s = exec i (turned s)) ∧
  (∀ s : State, ∃ tick fresh cores upsets poison, timePasses s = { s with tick := tick, fresh := fresh, cores := cores, upsets := upsets, poison := poison } ∧
    s.tick ≤ tick ∧
    cores.map (fun c : Core => { c with slices := c.slices.map (fun x : Slice => { x with cycles := 0 }) }) =
      s.cores.map (fun c : Core => { c with slices := c.slices.map (fun x : Slice => { x with cycles := 0 }) })) ∧
  (∀ s : State, turned s = { timePasses s with turn := s.turn.tail, cur := s.turn.head? })

/-- R68: with no effective lane, every instruction only moves on to the next instruction or past its clause, taking one position at widths to 32 and none above, or takes a trap of R53. -/
def Obligations.NoEffectiveLane : Prop :=
  (∀ mk ∈ ([.ld, .st, .ldnp, .ldb, .atom, .acas, .red, .fence, .lpin, .lunpin, .linv, .lwb, .pres, .advise, .binit, .barv, .bexp, .bwait, .await, .watch,
      .jst, .jld, .jldn, .jadd, .xfence] : List (FormM → Instr)),
    ∀ (s : State) (g : Group) (c : Clause) (f : FormM), Issues s g c → effFirst s g f.gd = 0 →
    exec (mk f) s = .next (finish1 s (bump (due s g) (if g.width ≤ 32 then 1 else 0)) c f.gd.sw) ∨ (∃ w r, exec (mk f) s = frameOut s g c f.gd w r)) ∧
  (∀ mk ∈ ([.cpy, .gath, .scat, .cfill, .orsv, .orel, .oqry, .mma, .azero, .amov, .ains, .adrain, .jtrade, .jqry, .coll, .xqry] : List (FormQ → Instr)),
    ∀ (s : State) (g : Group) (c : Clause) (f : FormQ), Issues s g c → effFirst s g f.gd = 0 →
    exec (mk f) s = .next (finish1 s (bump (due s g) (if g.width ≤ 32 then 1 else 0)) c f.gd.sw) ∨ (∃ w r, exec (mk f) s = frameOut s g c f.gd w r) ∨ ∃ w, exec (mk f) s = illegalOut s g c f.gd w) ∧
  (∀ mk ∈ ([.bra, .brc, .call, .loop, .fspawn, .bcont] : List (FormJ → Instr)),
    ∀ (s : State) (g : Group) (c : Clause) (f : FormJ), Issues s g c → effAt s g f.gd = 0 →
    exec (mk f) s = .next (finish1 s (bump (due s g) (if g.width ≤ 32 then 1 else 0)) c f.gd.sw) ∨ (∃ w r, exec (mk f) s = frameOut s g c f.gd w r)) ∧
  (∀ mk ∈ ([.pgrow, .pshrink, .fgrow, .fshrink, .ocfill, .ocdrop, .ocsync, .objq, .brx, .callx, .ret, .fend, .fyield, .exit, .sleep, .sets, .trap, .tret,
      .tmask, .tsub, .ctxsave, .ctxload, .halt, .preq, .pause, .tbar, .sbar, .gbar, .pwrq, .pwrarm, .veerhold, .tclaim, .tplace, .gdec, .qtake, .qack] : List (FormR → Instr)),
    ∀ (s : State) (g : Group) (c : Clause) (f : FormR), Issues s g c → effAt s g f.gd = 0 →
    exec (mk f) s = .next (finish1 s (bump (due s g) (if g.width ≤ 32 then 1 else 0)) c f.gd.sw) ∨ (∃ w r, exec (mk f) s = frameOut s g c f.gd w r)) ∧
  (∀ (i : Instr) (s : State) (g : Group) (c : Clause) (f : FormR), laneForm i = some f → Issues s g c → 0 < g.width → g.trapDue = none → effAt s g f.gd = 0 →
    exec i s = .next (finish1 s (bump (due s g) (if g.width ≤ 32 ∨ i = .nop f then 1 else 0)) c f.gd.sw) ∨ (∃ w r, exec i s = frameOut s g c f.gd w r) ∨
    ∃ w, exec i s = illegalOut s g c f.gd w)

/-- R62, R154: the constants of each type, the lane index as an integer or exactly in a float type, the codes that discard a result, mask registers, and the frame test. -/
def Obligations.OperandForms : Prop :=
  (∀ (x : GM) (l : Nat) (ty : Ty), rdOpd x .zero ty l = 0 ∧ rdOpd x .ones ty l = (if tyWide ty then 2 ^ 64 - 1 else 2 ^ 32 - 1) ∧
    (tyFloat ty = false → rdOpd x .lane ty l = l)) ∧
  (∀ (x : GM) (l : Nat), l < 128 → ∀ p ∈ [(Ty.f32, FF.f32), (.f16, .f16), (.bf16, .bf16)],
    ∃ m e, fdec p.2 (rdOpd x .lane p.1 l) = .fin false m e ∧ (-200 : Int) ≤ e ∧ m * 2 ^ (e + 200).toNat = l * 2 ^ 200) ∧
  (∀ (x : GM) (l : Nat),
    [Opd.one, .half, .two, .negOne].map (fun o => rdOpd x o .f32 l) = [0x3F800000, 0x3F000000, 0x40000000, 0xBF800000] ∧
    [Opd.one, .half, .two, .negOne].map (fun o => rdOpd x o .f16 l) = [0x3C00, 0x3800, 0x4000, 0xBC00] ∧
    [Opd.one, .half, .two, .negOne].map (fun o => rdOpd x o .bf16 l) = [0x3F80, 0x3F00, 0x4000, 0xBF80]) ∧
  (∀ (x : GM) (p n : Nat) (sn : Bool) (vs : List (Nat × Nat)) (ws : List (Nat × List W32)),
    schedDst x p .zero n sn vs = x ∧ putDst x (dstOf x.g .zero sn) ws = x) ∧
  (∀ (x : GM) (l : Nat) (bs : List (Nat × Bool)), rdMask x.g (.k 0) l = true ∧ landWrite x (.kreg 0 bs) = x) ∧
  (∀ (x : GM) (n l : Nat) (b : Bool), n ≠ 0 → n < x.g.masks.length → l < 128 →
    let y := landWrite x (.kreg n [(l, b)])
    kbit y.g n l = b ∧ (∀ m k, k < 128 → m ≠ n ∨ k ≠ l → kbit y.g m k = kbit x.g m k) ∧ y = { x with g := { x.g with masks := y.g.masks } }) ∧
  (∀ (g : Group) (n : Fin 192) (c r : Nat), frameFail g [(.v n, c)] = some r ↔ c ≠ 0 ∧ r = wbaseOf g + n.val + c - 1 ∧ g.frame ≤ r)

/-- R219 to R224: what each operation on the entry set does to the values that registers read, where nothing has changed the frame behind the set; each keeps the set well formed and in step with the frame. -/
def Obligations.EntrySetOperations : Prop :=
  ∀ x : GM, SetOk x.g → CacheFresh x → Memory.wf x.m = true →
    (∀ r fill, r < 2 ^ 16 →
      let y := touchReg x fill r
      SetOk y.g ∧ CacheFresh y ∧ ∀ q l, q < 2 ^ 16 → l < x.g.width → readReg y q l = readReg x q l) ∧
    (∀ r l v thr, r < 2 ^ 16 → l < x.g.width →
      let y := putReg x r l v thr
      SetOk y.g ∧ CacheFresh y ∧ readReg y r l = v ∧ (thr = true → frameReg y.m y.g r l = v) ∧
      ∀ q k, q < 2 ^ 16 → k < x.g.width → q ≠ r ∨ k ≠ l → readReg y q k = readReg x q k) ∧
    (∀ r, let y := dropReg x r
      SetOk y.g ∧ CacheFresh y ∧ y.m = x.m ∧ (∀ q l, q ≠ r → readReg y q l = readReg x q l) ∧ ∀ l, readReg y r l = frameReg x.m x.g r l) ∧
    (∀ y ∈ [ocWriteBackAll x, ocRelease x], SetOk y.g ∧ CacheFresh y ∧
      ∀ q l, q < 2 ^ 16 → l < x.g.width → readReg y q l = readReg x q l ∧ frameReg y.m y.g q l = readReg x q l) ∧
    (SetOk (ocAcquire x.g) ∧ CacheFresh ⟨ocAcquire x.g, x.m⟩ ∧
      ∀ q l, q < 2 ^ 16 → l < x.g.width → readReg ⟨ocAcquire x.g, x.m⟩ q l = readReg x q l)

/-- R139, R184, R185, R275, R282, R475: the fields of the special registers as GETS reads them and what landing a SETS changes. -/
def Obligations.SpecialRegisterFields : Prop :=
  (∀ (s : State) (x : GM) (time l : Nat) (v : W32),
    let rd := fun (y : GM) n => specVal s y.g time n l
    let y := fun n => landWrite x (specWrite n v)
    (rd (y 0x0F) 0x0F = v.toNat % 32 ∧ y 0x0F = { x with g := { x.g with flags := (y 0x0F).g.flags } }) ∧
    (rd (y 0x10) 0x10 = v.toNat % 32 ∧ y 0x10 = { x with g := { x.g with trapen := (y 0x10).g.trapen } }) ∧
    (rd (y 0x12) 0x12 = v.toNat % 2 ∧ y 0x12 = { x with g := { x.g with scopeflag := (y 0x12).g.scopeflag } }) ∧
    (rd (y 0x13) 0x13 = v.toNat ∧ y 0x13 = { x with g := { x.g with hintmiss := (y 0x13).g.hintmiss } }) ∧
    rd x 0x0F < 32 ∧ rd x 0x10 < 32 ∧ rd x 0x12 < 2) ∧
  (∀ (s : State) (g : Group) (time l : Nat), g.trec.cause < 64 → g.trec.sub < 256 →
    let r := specVal s g time 0x11 l
    bits r 5 0 = g.trec.cause ∧ bit r 6 = (g.hMask != 0) ∧ bit r 7 = g.hMode ∧ bits r 15 8 = g.trec.sub ∧ r >>> 16 = g.trapCount.toNat) ∧
  (∀ (s : State) (g : Group) (time l : Nat),
    let t := (partAt s (partOf s g)).thr
    t.trans < 65536 → t.ratio < 16 → t.clock < 16 → t.cause < 8 →
    let r := specVal s g time 0x16 l
    r >>> 16 = t.trans ∧ bits r 15 12 = 0 ∧ bits r 11 8 = t.ratio ∧ bits r 7 4 = t.clock ∧ bit r 3 = t.active ∧ bits r 2 0 = t.cause)

/-- Frame of the 80 format R instructions of opcodes 0x00 to 0x51 (R56, R62, R66, R186, R220): registers change only by writes scheduled before or under a last-use mark; new writes go to D, the mask operands or the float flags; memory changes only in the group's own register segment. -/
def Obligations.LaneFrame : Prop :=
  ∀ (i : Instr) (f : FormR) (s t : State) (g h : Group) (c : Clause), laneForm i = some f → Issues s g c → SetOk g → CacheFresh (gmOf s g) →
    Memory.wf s.mem = true → exec i s = .next t → Untrapped t g h →
    let n := laneCounts i g.width
    let marked := markedBy g (f.lu.getLsbD 2) f.a n.1 ++ markedBy g (f.lu.getLsbD 1) f.b n.2.1 ++ markedBy g (f.lu.getLsbD 0) f.c n.2.2
    t = { s with groups := t.groups, mem := t.mem } ∧ OnlyGroup s t g h ∧ OwnFrame s t g ∧ OnlyLanded g h ∧ SetOk h ∧ CacheFresh (gmOf t h) ∧
    h = { g with
      scal := h.scal, masks := h.masks, flags := h.flags, trapen := h.trapen, scopeflag := h.scopeflag, hintmiss := h.hintmiss, oc := h.oc
      pend := h.pend, pos := h.pos, phase := h.phase, park := h.park, fetched := h.fetched, cur := h.cur, trapDue := h.trapDue
      tried := h.tried, regPast := h.regPast } ∧
    (∀ p ∈ h.pend, p ∈ g.pend ∨ OwnWrite g f p.w) ∧
    (∀ r l, r < 2 ^ 16 → l < g.width → NotDue g r l → r ∉ marked → readReg (gmOf t h) r l = readReg (gmOf s g) r l)

/-- Frame of LD, LDNP, LDB, ST, ATOM, ACAS and RED at their issue (R54, R222, R229): values return and stores are performed later. -/
def Obligations.AccessFrame : Prop :=
  ∀ mk nB, (mk, nB) ∈ ([(.ld, 0), (.ldnp, 0), (.ldb, 0), (.st, 1), (.atom, 1), (.acas, 2), (.red, 1)] : List ((FormM → Instr) × Nat)) →
    ∀ (f : FormM) (s t : State) (g h : Group) (c : Clause), Issues s g c → SetOk g → CacheFresh (gmOf s g) →
    Memory.wf s.mem = true → exec (mk f) s = .next t → Untrapped t g h →
    let marked := markedBy g (f.lu.getLsbD 1) f.a 2 ++ markedBy g (f.lu.getLsbD 0) f.b (nB * regsOf (sizeBytes f))
    t = { s with groups := t.groups, mem := t.mem, ops := t.ops, nextId := t.nextId, cores := t.cores } ∧
    (∀ k, coreAt t k = { coreAt s k with objCache := (coreAt t k).objCache, regionCache := (coreAt t k).regionCache }) ∧ OnlyGroup s t g h ∧ OwnFrame s t g ∧ OnlyLanded g h ∧
    SetOk h ∧ CacheFresh (gmOf t h) ∧ s.ops <+: t.ops ∧
    h = { g with
      scal := h.scal, masks := h.masks, flags := h.flags, trapen := h.trapen, scopeflag := h.scopeflag, hintmiss := h.hintmiss, oc := h.oc
      pend := h.pend, pos := h.pos, phase := h.phase, park := h.park, swDue := h.swDue, fetched := h.fetched, cur := h.cur, cnt := h.cnt
      tried := h.tried, regPast := h.regPast } ∧
    (∀ p ∈ h.pend, p ∈ g.pend) ∧
    (∀ r l, r < 2 ^ 16 → l < g.width → NotDue g r l → r ∉ marked → readReg (gmOf t h) r l = readReg (gmOf s g) r l)

/-- Frame of BRA, BRC, LOOP, CALL, FSPAWN, BRX, CALLX, RET, FEND, FYIELD, EXIT and SLEEP (R257, R262 to R272). -/
def Obligations.TransferFrame : Prop :=
  (∀ mk ∈ ([.bra, .brc, .loop, .call, .fspawn] : List (FormJ → Instr)), ∀ (f : FormJ) (s t : State) (g h : Group) (c : Clause),
    Issues s g c → SetOk g → CacheFresh (gmOf s g) →
    Memory.wf s.mem = true → exec (mk f) s = .next t → Untrapped t g h →
    t = { s with groups := t.groups, mem := t.mem } ∧ OnlyGroup s t g h ∧ OnlyLanded g h ∧ SetOk h ∧ CacheFresh (gmOf t h) ∧
    (∀ k, k / 2 ^ 64 ≠ keyBlock 2 g.id → k / 2 ^ 64 ≠ keyBlock 0 g.id ∨ mk f ≠ .call f → memRd t.mem k = memRd s.mem k) ∧
    h = { g with
      scal := h.scal, masks := h.masks, flags := h.flags, trapen := h.trapen, scopeflag := h.scopeflag, hintmiss := h.hintmiss, oc := h.oc
      pend := h.pend, pos := h.pos, phase := h.phase, park := h.park, fetched := h.fetched, cur := h.cur, fibres := h.fibres, idle := h.idle
      exited := h.exited, rets := h.rets, lastTime := h.lastTime, tried := h.tried, regPast := h.regPast } ∧
    (h.lastTime = g.lastTime) ∧
    (∀ p ∈ h.pend, p ∈ g.pend ∨ (mk f = .loop f ∧ ∃ v, p.w = .sreg (f.opd.toNat - 0xC0) v))) ∧
  (∀ mk ∈ ([.brx, .callx, .ret, .fend, .fyield, .exit, .sleep] : List (FormR → Instr)), ∀ (f : FormR) (s t : State) (g h : Group) (c : Clause),
    Issues s g c → SetOk g → CacheFresh (gmOf s g) →
    Memory.wf s.mem = true → exec (mk f) s = .next t → Untrapped t g h →
    t = { s with groups := t.groups, mem := t.mem } ∧ OnlyGroup s t g h ∧ OnlyLanded g h ∧ SetOk h ∧ CacheFresh (gmOf t h) ∧
    (∀ k, k / 2 ^ 64 ≠ keyBlock 2 g.id → k / 2 ^ 64 ≠ keyBlock 0 g.id ∨ mk f ≠ .callx f → memRd t.mem k = memRd s.mem k) ∧
    h = { g with
      scal := h.scal, masks := h.masks, flags := h.flags, trapen := h.trapen, scopeflag := h.scopeflag, hintmiss := h.hintmiss, oc := h.oc
      pend := h.pend, pos := h.pos, phase := h.phase, park := h.park, fetched := h.fetched, cur := h.cur, fibres := h.fibres, idle := h.idle
      exited := h.exited, rets := h.rets, lastTime := h.lastTime, tried := h.tried, regPast := h.regPast } ∧
    (mk f ≠ .sleep f → h.lastTime = g.lastTime) ∧
    (∀ p ∈ h.pend, p ∈ g.pend))

/-- R118, R140, R141, R142, R217, R230, R233, R401, R426: the place each lane stores to is computed at issue from its pointer; performing a lane writes its bytes there, little-endian, and every other byte of memory reads as its release action left it; a store to another member writes nothing here and goes to the port. -/
def Obligations.StoreFrame : Prop :=
  (∀ (s : State) (g : Group) (c : Clause) (f : FormM) (ats : List LaneAt), Issues s g c → frameFail g [(f.a, 2), (f.b, regsOf (sizeBytes f)), (f.d, 0)] = none →
    let s1 := memFrom s g 0x61 f
    let x := memAt s g 0x61 f 2 (regsOf (sizeBytes f))
    let eff := effFirst s g f.gd
    eff ≠ 0 → s.ops.all (fun o => decide (o.id < s.nextId)) = true → chkLanes s1 x f 2 (fun _ _ => false) (lanesOf eff) = .go ats →
    ats.all (fun a => !isLat a.loc) = true → cntOf x.g 1 ≠ 63 →
    ∃ t o, exec (.st f) s = .next t ∧ getOp t s.nextId = some o ∧ o.kind = .st ∧ o.order = f.order ∧ o.scope = f.scope ∧ o.size = sizeBytes f ∧
      o.lanes.map LaneOp.lane = lanesOf eff ∧
      ∀ y ∈ o.lanes, y.data = rdRegs x f.b (regsOf (sizeBytes f)) y.lane ∧
        ∃ q, (laneAddr x f y.lane).2 = some q ∧ checkPtr s1 x.g q (sizeBytes f) 2 false = .ok y.loc) ∧
  (∀ (s : State) (o : Op) (x : LaneOp) (g : Group) (bytes : W32) (k : Nat), getOp s o.id = some o → getG s o.g = some g → o.kind = .st → o.order ∈ [.rlx, .rel] → o.size ∈ [1, 2, 4, 8, 16, 32] → x.got = [] → x.lane < 128 →
    (∀ i, i < o.size → bytes.getLsbD i = true) →
    o.lanes.find? (fun y => y.lane == x.lane) = some x → orderFree s o x = true → Memory.wf s.mem = true →
    x.loc = .pool k →
    ∃ t, exec (storeEvent s o x bytes) s = .next t ∧ RecordsOnly (storeStart s g o x) t ∧
      (∀ i, i < o.size → memRd t.mem (k + i) = BitVec.ofNat 8 (wordsValue x.data / 256 ^ i)) ∧
      ∀ a, a < k ∨ k + o.size ≤ a → memRd t.mem a = memRd (storeStart s g o x).mem a) ∧
  (∀ (s : State) (o : Op) (x : LaneOp) (g : Group) (bytes : W32) (p ua : Nat), getOp s o.id = some o → getG s o.g = some g → o.kind = .st → o.order ∈ [.rlx, .rel] → o.size ∈ [1, 2, 4, 8, 16, 32] → x.got = [] → x.lane < 128 →
    (∀ i, i < o.size → bytes.getLsbD i = true) →
    o.lanes.find? (fun y => y.lane == x.lane) = some x → orderFree s o x = true → Memory.wf s.mem = true →
    x.loc = .uni p ua → laneReach s o x ∈ [.ready, .host] → (laneReach s o x = .host → linkUp s (partAt s (partOf s g)).link = true) →
    (laneReach s o x = .ready → l1Served s g o x = true ∨ staleAt s (opSrc s o) x.loc o.size = none) → replyStale s (opSrc s o) = false →
    wideScope o.scope = true → (∀ c ∈ s.ctxs, ∀ l ∈ c.l1, l.ua % 128 = 0) →
    let key := fun (a : Nat) => uniByteKey (partAt s p) p a
    ((List.range 256).map (fun i => key (lineOf ua + i))).Nodup →
    ∃ t, exec (storeEvent s o x bytes) s = .next t ∧ RecordsOnly (storeStart s g o x) t ∧
      (∀ i, i < o.size → memRd t.mem (key (ua + i)) = BitVec.ofNat 8 (wordsValue x.data / 256 ^ i)) ∧
      ∀ a, (∀ i, i < o.size → a ≠ key (ua + i)) → memRd t.mem a = memRd (storeStart s g o x).mem a) ∧
  (∀ (s : State) (o : Op) (x : LaneOp) (g : Group) (bytes : W32) (p ua : Nat), getOp s o.id = some o → getG s o.g = some g → o.kind = .st → o.order ∈ [.rlx, .rel] → o.size ∈ [1, 2, 4, 8, 16, 32] → x.got = [] → x.lane < 128 →
    (∀ i, i < o.size → bytes.getLsbD i = true) →
    o.lanes.find? (fun y => y.lane == x.lane) = some x → orderFree s o x = true → Memory.wf s.mem = true →
    x.loc = .uni p ua → laneReach s o x ∈ [.ready, .host] → (laneReach s o x = .host → linkUp s (partAt s (partOf s g)).link = true) →
    (laneReach s o x = .ready → l1Served s g o x = true ∨ staleAt s (opSrc s o) x.loc o.size = none) → replyStale s (opSrc s o) = false →
    wideScope o.scope = false → (∀ c ∈ s.ctxs, ∀ l ∈ c.l1, l.data.length = 128) →
    let key := fun (a : Nat) => uniByteKey (partAt s p) p a
    let line := fun (s : State) (a : Nat) => (getC s g.ctx).bind (fun c => l1Find c p a)
    ((List.range o.size).map (fun i => key (ua + i))).Nodup →
    ∃ t, exec (storeEvent s o x bytes) s = .next t ∧ RecordsOnly { storeStart s g o x with ctxs := t.ctxs, nextId := t.nextId } t ∧
      (∀ i, i < o.size → if line s (ua + i) = none then memRd t.mem (key (ua + i)) = BitVec.ofNat 8 (wordsValue x.data / 256 ^ i)
        else ∃ l, line t (ua + i) = some l ∧ nth l.data ((ua + i) % 128) 0 = BitVec.ofNat 8 (wordsValue x.data / 256 ^ i) ∧ l.written.getLsbD ((ua + i) % 128) = true) ∧
      (∀ a, (∀ i, i < o.size → line s (ua + i) = none → a ≠ key (ua + i)) → memRd t.mem a = memRd s.mem a) ∧
      (∀ a l, line s a = some l → (∀ i, i < o.size → a ≠ ua + i) → ∃ l', line t a = some l' ∧ nth l'.data (a % 128) 0 = nth l.data (a % 128) 0) ∧
      ∀ k, k ≠ g.ctx → getC t k = getC s k) ∧
  (∀ (s : State) (o : Op) (x : LaneOp) (g : Group), getOp s o.id = some o → getG s o.g = some g → o.kind = .st → isFabric x.loc = true →
    o.lanes.find? (fun y => y.lane == x.lane) = some x → orderFree s o x = true →
    let s1 := performStart s g o
    exec (.fabricPortAccept o.id) s = .next (o.lanes.foldl (fun s y => portLane o.id s y.lane) s) ∧
    ∃ t w, portLane o.id s x.lane = t ∧ t = { s1 with groups := t.groups, ops := t.ops, nextId := s1.nextId + 1, pwrites := s1.pwrites ++ [w] } ∧
      w.op = o.id ∧ w.g = o.g ∧ w.loc = x.loc ∧ w.size = o.size ∧ w.red = none ∧ w.data = wordsValue x.data ∧
      w.members = fabTargets (partAt s (partOf s g)) x.loc ∧ w.pending = w.members.filter (fun m => !isMe s (partOf s g) m) ∧
      w.own = w.members.any (isMe s (partOf s g)))

/-- R310, R308: apply(o, a, e, c, err, z, clr) on the 32 bytes of the object: arrivals, bytes, marks, and the completion of a phase; the reserved bits written 0 are the model's reading (log 91). -/
def Obligations.ObjectUpdate : Prop :=
  (∀ (o : Nat) (u : UpdItem), o < 2 ^ 256 →
    let r := objApply o u
    let pa := if u.a && bits o 63 48 != 0 then bits o 63 48 - 1 else bits o 63 48
    let pb := (((bits o 111 64 : Int) + u.e - u.c) % 2 ^ 48).toNat
    let fin := bit o 178 && pa == 0 && pb == 0
    r.2.1 = bits o 31 0 ∧ r.2.2 = fin ∧ r.1 < 2 ^ 256 ∧
    bits r.1 31 0 = (if fin then (bits o 31 0 + 1) % 2 ^ 32 else bits o 31 0) ∧ bits r.1 47 32 = bits o 47 32 ∧
    bits r.1 63 48 = (if fin then bits o 47 32 else pa) ∧ bits r.1 111 64 = (if fin then bits o 159 112 else pb) ∧
    bits r.1 159 112 = bits o 159 112 ∧ bits r.1 175 160 = min ((if u.clr then 0 else bits o 175 160) + u.z) 0xFFFF ∧
    bit r.1 176 = ((!u.clr && bit o 176) || u.err) ∧ bit r.1 177 = ((!u.clr && bit o 177) || (u.a && bits o 63 48 == 0)) ∧
    bit r.1 178 = bit o 178 ∧ bits r.1 191 179 = 0 ∧ bits r.1 207 192 = (if fin then 0 else bits o 207 192) ∧
    bits r.1 255 208 = 0) ∧
  (∀ (s : State) (ctx k : Nat) (u : UpdItem) (src : StrongRec), Memory.wf s.mem = true →
    let t := objUpdate s ctx k u src
    objRd t.1 k = (objApply (objRd s k) u).1 ∧ t.2 = objPhase (objRd s k) ∧ ∀ a, a < k ∨ k + 32 ≤ a → memRd t.1.mem a = memRd s.mem a)

/-- R374, R376, R377, R384, R385, R395: a join is at or above both its operands, and what a replica does to a cell only raises it. -/
def Obligations.LatticeJoins : Prop :=
  (∀ (ty c x y : Nat), ty < 8 → CellOk ty c → CellOk ty x → CellOk ty y →
    let j := latJoin ty
    CellOk ty (j c x) ∧ j c c = c ∧ j c x = j x c ∧ j c (j x y) = j (j c x) y ∧ j c (j c x) = j c x ∧ j x (j c x) = j c x ∧
    ∀ t, t < 2 ^ 64 → (ty = 2 ∨ ty = 3 → t < 2 ^ 32) → latReached ty (latValue ty c) t = true → latReached ty (latValue ty (j c x)) t = true) ∧
  (∀ (r : Region) (k i x : Nat), r.ty < 8 → CellOk r.ty (cellRd r k i) → CellOk r.ty x → r.reps.any (fun p => p.stack == k) = true →
    let q := cellJoin r k i x
    cellRd q k i = latJoin r.ty (cellRd r k i) x ∧ latJoin r.ty (cellRd r k i) (cellRd q k i) = cellRd q k i ∧
    ∀ m n, m ≠ k ∨ n ≠ i → cellRd q m n = cellRd r m n) ∧
  (∀ (r : Region) (k i a : Nat), r.ty = 6 → k < 8 → CellOk 6 (cellRd r k i) → r.reps.any (fun p => p.stack == k) = true →
    let q := cellAdd r k i a
    latJoin 6 (cellRd r k i) (cellRd q k i) = cellRd q k i ∧
    (∀ b, b < 8 → nth (elems 64 8 (cellRd q k i)) b 0 =
      (if b = k then min (nth (elems 64 8 (cellRd r k i)) k 0 + a) (2 ^ 64 - 1) else nth (elems 64 8 (cellRd r k i)) b 0)) ∧
    ∀ m n, m ≠ k ∨ n ≠ i → cellRd q m n = cellRd r m n)

/-- R88, R91: IEEE 754 rounding of an exact value in the four modes without flush-to-zero; values are compared as integers scaled by a power of two. -/
def Obligations.FloatRounding : Prop :=
  ∀ (f : FF) (md : RMode) (neg : Bool) (m : Nat) (e : Int), m ≠ 0 →
    let r := froundMag f md false neg m e
    match fdec f r.1 with
    | .fin sr mr er => sr = neg ∧
      (∀ k : Int, k ≤ e → k ≤ er →
        let v := scaled k neg m e
        let w := scaled k sr mr er
        ((r.2 &&& fIX != 0) = (v != w)) ∧
        ∀ x sx mx ex, fdec f x = .fin sx mx ex → k ≤ ex →
          let u := scaled k sx mx ex
          match md with
          | .rne => (v - w).natAbs ≤ (v - u).natAbs ∧ ((v - w).natAbs = (v - u).natAbs → u ≠ w → r.1 % 2 = 0)
          | .rz => w.natAbs ≤ v.natAbs ∧ (u.natAbs ≤ v.natAbs → u.natAbs ≤ w.natAbs)
          | .ru => v ≤ w ∧ (v ≤ u → w ≤ u)
          | .rd => w ≤ v ∧ (u ≤ v → u ≤ w))
    | .inf sr => sr = neg ∧ md ≠ .rz ∧ (md = .ru → neg = false) ∧ (md = .rd → neg = true) ∧ r.2 = (fOF ||| fIX) ∧
        ∀ k : Int, k ≤ e → k ≤ 0 → ∀ x sx mx ex, fdec f x = .fin sx mx ex → k ≤ ex → (scaled k sx mx ex).natAbs < (scaled k neg m e).natAbs
    | .nan _ => False

/-- The values that the spec states for reset (R22, R276, R417, R443, R465, R467 to R470, R475, R481); values that the model chose are not part of it. -/
def Obligations.ResetState : Prop :=
  let s := State.reset
  s.dies.length = 18 ∧ s.dies.all (fun d => d.incarn == 1) = true ∧ s.tick = 0 ∧
  s.cores.length = 160 ∧ s.cores.all (fun c => c.slices.length == 6 && c.slices.all (fun x => x.cycles == 0)) = true ∧
  s.parts.length = 8 ∧
  s.parts.all (fun p => !p.enable && p.ways == 0 && p.link == 0 && !p.scopemis && p.stackBits == 0 && p.shed == 0 && p.floor == 0 && p.cap == 0 &&
    p.gap == 0 && p.wave == 0 && p.thr == ⟨0, 8, 0, false, 0⟩ && p.queues.length == 64 &&
    p.queues.all (fun q => !q.enable && q.vec == 0 && q.prio == 0 && q.last == 0 && !q.overf && !q.gap && q.qcseq == 0 && q.wFence == 0 && q.wKill == 0 &&
      q.wPre == 0 && q.intake == [])) = true ∧
  s.sqcnt = 0 ∧ s.fcapWatts = 0 ∧ s.fcapSeq = 0 ∧ s.fcapBusy = false ∧ s.mindiff = 12 ∧ s.vperiod = 2000 ∧
  s.groups = [] ∧ s.ctxs = [] ∧ s.teams = [] ∧ s.grids = [] ∧ s.runs = [] ∧ s.ops = [] ∧ s.reqs = []

/-- Worked encodings of the spec, at least one for each format and most families. -/
def Obligations.SpecWordsDecode : Prop :=
  decodeNat 0x1980200810198400 = .ok (.ffma { gd := ⟨false, 0, false⟩, d := .v 4, a := .v 1, b := .v 2, c := .v 3, ty := .f32, mod := 0, lu := 2, sn := false, ext := 0 }) ∧
  decodeNat 0x1900302028018000 = .ok (.fmul { gd := ⟨false, 0, false⟩, d := .v 6, a := .v 4, b := .v 5, c := .v 0, ty := .f32, mod := 0, lu := 0, sn := false, ext := 0 }) ∧
  decodeNat 0x0000000000000000 = .ok (.nop { gd := ⟨false, 0, false⟩, d := .v 0, a := .v 0, b := .v 0, c := .v 0, ty := .b32, mod := 0, lu := 0, sn := false, ext := 0 }) ∧
  decodeNat 0x0380500027910001 = .ok (.iaddc { gd := ⟨false, 0, false⟩, d := .v 10, a := .v 0, b := .v 4, c := .k 2, ty := .z32, mod := 0, lu := 0, sn := false, ext := 1 }) ∧
  decodeNat 0x1610301800010000 = .ok (.lscan { gd := ⟨false, 1, false⟩, d := .v 6, a := .v 3, b := .v 0, c := .v 0, ty := .z32, mod := 0, lu := 0, sn := false, ext := 0 }) ∧
  decodeNat 0x2680801000018024 = .ok (.qnt { gd := ⟨false, 0, false⟩, d := .v 16, a := .v 2, b := .v 0, c := .v 0, ty := .f32, mod := 0, lu := 0, sn := false, ext := 0x24 }) ∧
  decodeNat 0x30004E1000100010 = .ok (.ld { gd := ⟨false, 0, false⟩, d := .v 9, a := .s 2, b := .v 0, scope := .grp, order := .rlx, size := 2, sub := 0, lu := 0, sn := false, off := 16 }) ∧
  decodeNat 0x3186361005500000 = .ok (.ldb { gd := ⟨false, 0, false⟩, d := .s 6, a := .s 2, b := .v 0, scope := .sys, order := .acq, size := 2, sub := 0, lu := 0, sn := false, off := 0 }) ∧
  decodeNat 0x3507C62000010000 = .ok (.fgrow { gd := ⟨false, 0, false⟩, d := .zero, a := .s 4, b := .v 0, c := .v 0, ty := .z32, mod := 0, lu := 0, sn := false, ext := 0 }) ∧
  decodeNat 0x4200005000010010 = .ok (.callx { gd := ⟨false, 0, false⟩, d := .v 0, a := .v 10, b := .v 0, c := .v 0, ty := .z32, mod := 0, lu := 0, sn := false, ext := 16 }) ∧
  decodeNat 0x4080000000ACC000 = .ok (.brc { gd := ⟨false, 0, false⟩, off := 21, hint := 2, ck := 3, cn := false, opd := 0, rsv := 0 }) ∧
  decodeNat 0x4187FFFFFFA60040 = .ok (.call { gd := ⟨false, 0, false⟩, off := (-12), hint := 3, ck := 0, cn := false, opd := 2, rsv := 0 }) ∧
  decodeNat 0x4900064648010000 = .ok (.tmask { gd := ⟨false, 0, false⟩, d := .v 0, a := .s 8, b := .s 9, c := .v 0, ty := .z32, mod := 0, lu := 0, sn := false, ext := 0 }) ∧
  decodeNat 0x4880000000000000 = .ok (.tret { gd := ⟨false, 0, false⟩, d := .v 0, a := .v 0, b := .v 0, c := .v 0, ty := .b32, mod := 0, lu := 0, sn := false, ext := 0 }) ∧
  decodeNat 0x50801E1001A80000 = .ok (.barv { gd := ⟨false, 0, false⟩, d := .v 3, a := .s 2, b := .v 0, scope := .team, order := .rel, size := 5, sub := 0, lu := 0, sn := false, off := 0 }) ∧
  decodeNat 0x5200000000283840 = .ok (.bcont { gd := ⟨false, 0, false⟩, off := 5, hint := 0, ck := 0, cn := true, opd := 0xC2, rsv := 0 }) ∧
  decodeNat 0x5887C14150080000 = .ok (.gath { gd := ⟨false, 0, false⟩, d := .zero, a := .v 40, b := .v 42, fmt := 0, scope := .team, sub := 0, lu := 0, sn := false, ext := 0 }) ∧
  decodeNat 0x5C0136D000001000 = .ok (.orsv { gd := ⟨false, 0, false⟩, d := .v 38, a := .s 26, b := .v 0, fmt := 0, scope := .grp, sub := 2, lu := 0, sn := false, ext := 0 }) ∧
  decodeNat 0x5D87C6C6E0000000 = .ok (.mma { gd := ⟨false, 0, false⟩, d := .zero, a := .s 24, b := .s 28, fmt := 0, scope := .grp, sub := 0, lu := 0, sn := false, ext := 0 }) ∧
  decodeNat 0x6420485040100000 = .ok (.jst { gd := ⟨false, 2, false⟩, d := .v 9, a := .v 10, b := .v 8, scope := .grp, order := .rlx, size := 2, sub := 0, lu := 0, sn := false, off := 0 }) ∧
  decodeNat 0x6807C6C6E0200000 = .ok (.coll { gd := ⟨false, 0, false⟩, d := .zero, a := .s 24, b := .s 28, fmt := 0, scope := .fab, sub := 0, lu := 0, sn := false, ext := 0 }) ∧
  decodeNat 0x688627C004800000 = .ok (.xfence { gd := ⟨false, 0, false⟩, d := .s 4, a := .zero, b := .v 0, scope := .fab, order := .rel, size := 0, sub := 0, lu := 0, sn := false, off := 0 }) ∧
  decodeNat 0x6C80000000000001 = .ok (.pwrarm { gd := ⟨false, 0, false⟩, d := .v 0, a := .v 0, b := .v 0, c := .v 0, ty := .b32, mod := 0, lu := 0, sn := false, ext := 1 }) ∧
  decodeNat 0x7006261000010000 = .ok (.tclaim { gd := ⟨false, 0, false⟩, d := .s 4, a := .s 2, b := .v 0, c := .v 0, ty := .z32, mod := 0, lu := 0, sn := false, ext := 0 })

/-- R45, R62 to R76: no bit of any encoding is dropped or shared, for all 168 instructions with every legal operand, type, modifier and extension. -/
def Obligations.DecodeEncodeAgree : Prop :=
  (∀ (i : Instr) (w : Nat), WellFormed i → encodeNat i = some w → w < 2 ^ 64 ∧ fld w 58 6 ≠ 63 ∧ decodeNat w = .ok i) ∧
  (∀ (w : Nat) (i : Instr), w < 2 ^ 64 → decodeNat w = .ok i → WellFormed i ∧ encodeNat i = some w)

/-- The invariant of StepKeepsMemCanonical at reset; that reset memory lists nothing and an unlisted byte reads 0 is the model's choice (log 9). -/
def Obligations.ResetMemCanonical : Prop :=
  MemCanonical State.reset ∧ State.reset.mem = [] ∧ ∀ k, memRd State.reset.mem k = 0

/-- The invariant of the one byte memory behind every space, over every instruction and every step of the part. -/
def Obligations.StepKeepsMemCanonical : Prop :=
  ∀ s t : State, MemCanonical s → step s = .next t → MemCanonical t
end

