-- ==== Sys2Proof/Laws/Dispatch.lean ====
section
/-! SUPPORT. Sys2Proof/Laws/Dispatch.lean: exec at each constructor is its meaning. -/

namespace Sys2Proof.Laws

open Sys2Proof.Machine

theorem exec_nop (f : FormR) (s : State) : exec (.nop f) s = execNop f s := rfl
theorem exec_mov (f : FormR) (s : State) : exec (.mov f) s = execMov f s := rfl
theorem exec_movi (f : FormI) (s : State) : exec (.movi f) s = execMovi f s := rfl
theorem exec_movh (f : FormI) (s : State) : exec (.movh f) s = execMovh f s := rfl
theorem exec_sel (f : FormR) (s : State) : exec (.sel f) s = execSel f s := rfl
theorem exec_iadd (f : FormR) (s : State) : exec (.iadd f) s = execIadd f s := rfl
theorem exec_isub (f : FormR) (s : State) : exec (.isub f) s = execIsub f s := rfl
theorem exec_iaddc (f : FormR) (s : State) : exec (.iaddc f) s = execIaddc f s := rfl
theorem exec_isubb (f : FormR) (s : State) : exec (.isubb f) s = execIsubb f s := rfl
theorem exec_ineg (f : FormR) (s : State) : exec (.ineg f) s = execIneg f s := rfl
theorem exec_iabs (f : FormR) (s : State) : exec (.iabs f) s = execIabs f s := rfl
theorem exec_imin (f : FormR) (s : State) : exec (.imin f) s = execImin f s := rfl
theorem exec_imax (f : FormR) (s : State) : exec (.imax f) s = execImax f s := rfl
theorem exec_imul (f : FormR) (s : State) : exec (.imul f) s = execImul f s := rfl
theorem exec_imulh (f : FormR) (s : State) : exec (.imulh f) s = execImulh f s := rfl
theorem exec_imad (f : FormR) (s : State) : exec (.imad f) s = execImad f s := rfl
theorem exec_imadw (f : FormR) (s : State) : exec (.imadw f) s = execImadw f s := rfl
theorem exec_idiv (f : FormR) (s : State) : exec (.idiv f) s = execIdiv f s := rfl
theorem exec_irem (f : FormR) (s : State) : exec (.irem f) s = execIrem f s := rfl
theorem exec_icmp (f : FormR) (s : State) : exec (.icmp f) s = execIcmp f s := rfl
theorem exec_and (f : FormR) (s : State) : exec (.and f) s = execAnd f s := rfl
theorem exec_or (f : FormR) (s : State) : exec (.or f) s = execOr f s := rfl
theorem exec_xor (f : FormR) (s : State) : exec (.xor f) s = execXor f s := rfl
theorem exec_not (f : FormR) (s : State) : exec (.not f) s = execNot f s := rfl
theorem exec_andn (f : FormR) (s : State) : exec (.andn f) s = execAndn f s := rfl
theorem exec_shl (f : FormR) (s : State) : exec (.shl f) s = execShl f s := rfl
theorem exec_shr (f : FormR) (s : State) : exec (.shr f) s = execShr f s := rfl
theorem exec_sar (f : FormR) (s : State) : exec (.sar f) s = execSar f s := rfl
theorem exec_rot (f : FormR) (s : State) : exec (.rot f) s = execRot f s := rfl
theorem exec_funnel (f : FormR) (s : State) : exec (.funnel f) s = execFunnel f s := rfl
theorem exec_bfe (f : FormR) (s : State) : exec (.bfe f) s = execBfe f s := rfl
theorem exec_bfi (f : FormR) (s : State) : exec (.bfi f) s = execBfi f s := rfl
theorem exec_popc (f : FormR) (s : State) : exec (.popc f) s = execPopc f s := rfl
theorem exec_clz (f : FormR) (s : State) : exec (.clz f) s = execClz f s := rfl
theorem exec_ctz (f : FormR) (s : State) : exec (.ctz f) s = execCtz f s := rfl
theorem exec_brev (f : FormR) (s : State) : exec (.brev f) s = execBrev f s := rfl
theorem exec_bperm (f : FormR) (s : State) : exec (.bperm f) s = execBperm f s := rfl
theorem exec_lea (f : FormR) (s : State) : exec (.lea f) s = execLea f s := rfl
theorem exec_ptrmk (f : FormR) (s : State) : exec (.ptrmk f) s = execPtrmk f s := rfl
theorem exec_ptradd (f : FormR) (s : State) : exec (.ptradd f) s = execPtradd f s := rfl
theorem exec_ptrget (f : FormR) (s : State) : exec (.ptrget f) s = execPtrget f s := rfl
theorem exec_lshuf (f : FormR) (s : State) : exec (.lshuf f) s = execLshuf f s := rfl
theorem exec_lbcast (f : FormR) (s : State) : exec (.lbcast f) s = execLbcast f s := rfl
theorem exec_lvote (f : FormR) (s : State) : exec (.lvote f) s = execLvote f s := rfl
theorem exec_lscan (f : FormR) (s : State) : exec (.lscan f) s = execLscan f s := rfl
theorem exec_lreduce (f : FormR) (s : State) : exec (.lreduce f) s = execLreduce f s := rfl
theorem exec_kop (f : FormR) (s : State) : exec (.kop f) s = execKop f s := rfl
theorem exec_kmov (f : FormR) (s : State) : exec (.kmov f) s = execKmov f s := rfl
theorem exec_fadd (f : FormR) (s : State) : exec (.fadd f) s = execFadd f s := rfl
theorem exec_fsub (f : FormR) (s : State) : exec (.fsub f) s = execFsub f s := rfl
theorem exec_fmul (f : FormR) (s : State) : exec (.fmul f) s = execFmul f s := rfl
theorem exec_ffma (f : FormR) (s : State) : exec (.ffma f) s = execFfma f s := rfl
theorem exec_fmin (f : FormR) (s : State) : exec (.fmin f) s = execFmin f s := rfl
theorem exec_fmax (f : FormR) (s : State) : exec (.fmax f) s = execFmax f s := rfl
theorem exec_fminnum (f : FormR) (s : State) : exec (.fminnum f) s = execFminnum f s := rfl
theorem exec_fmaxnum (f : FormR) (s : State) : exec (.fmaxnum f) s = execFmaxnum f s := rfl
theorem exec_fcmp (f : FormR) (s : State) : exec (.fcmp f) s = execFcmp f s := rfl
theorem exec_fclass (f : FormR) (s : State) : exec (.fclass f) s = execFclass f s := rfl
theorem exec_frnd (f : FormR) (s : State) : exec (.frnd f) s = execFrnd f s := rfl
theorem exec_ffrac (f : FormR) (s : State) : exec (.ffrac f) s = execFfrac f s := rfl
theorem exec_fscale (f : FormR) (s : State) : exec (.fscale f) s = execFscale f s := rfl
theorem exec_fgetexp (f : FormR) (s : State) : exec (.fgetexp f) s = execFgetexp f s := rfl
theorem exec_frcp (f : FormR) (s : State) : exec (.frcp f) s = execFrcp f s := rfl
theorem exec_frsq (f : FormR) (s : State) : exec (.frsq f) s = execFrsq f s := rfl
theorem exec_fsqrt (f : FormR) (s : State) : exec (.fsqrt f) s = execFsqrt f s := rfl
theorem exec_fdiv (f : FormR) (s : State) : exec (.fdiv f) s = execFdiv f s := rfl
theorem exec_fexp2 (f : FormR) (s : State) : exec (.fexp2 f) s = execFexp2 f s := rfl
theorem exec_flog2 (f : FormR) (s : State) : exec (.flog2 f) s = execFlog2 f s := rfl
theorem exec_fsin (f : FormR) (s : State) : exec (.fsin f) s = execFsin f s := rfl
theorem exec_fcos (f : FormR) (s : State) : exec (.fcos f) s = execFcos f s := rfl
theorem exec_ftanh (f : FormR) (s : State) : exec (.ftanh f) s = execFtanh f s := rfl
theorem exec_fsigm (f : FormR) (s : State) : exec (.fsigm f) s = execFsigm f s := rfl
theorem exec_cvtf (f : FormR) (s : State) : exec (.cvtf f) s = execCvtf f s := rfl
theorem exec_cvti (f : FormR) (s : State) : exec (.cvti f) s = execCvti f s := rfl
theorem exec_cvtfi (f : FormR) (s : State) : exec (.cvtfi f) s = execCvtfi f s := rfl
theorem exec_fpack (f : FormR) (s : State) : exec (.fpack f) s = execFpack f s := rfl
theorem exec_funpack (f : FormR) (s : State) : exec (.funpack f) s = execFunpack f s := rfl
theorem exec_qnt (f : FormR) (s : State) : exec (.qnt f) s = execQnt f s := rfl
theorem exec_dqnt (f : FormR) (s : State) : exec (.dqnt f) s = execDqnt f s := rfl
theorem exec_fdot2 (f : FormR) (s : State) : exec (.fdot2 f) s = execFdot2 f s := rfl
theorem exec_fdot4 (f : FormR) (s : State) : exec (.fdot4 f) s = execFdot4 f s := rfl
theorem exec_fdot8 (f : FormR) (s : State) : exec (.fdot8 f) s = execFdot8 f s := rfl
theorem exec_ld (f : FormM) (s : State) : exec (.ld f) s = execLd f s := rfl
theorem exec_st (f : FormM) (s : State) : exec (.st f) s = execSt f s := rfl
theorem exec_ldnp (f : FormM) (s : State) : exec (.ldnp f) s = execLdnp f s := rfl
theorem exec_ldb (f : FormM) (s : State) : exec (.ldb f) s = execLdb f s := rfl
theorem exec_atom (f : FormM) (s : State) : exec (.atom f) s = execAtom f s := rfl
theorem exec_acas (f : FormM) (s : State) : exec (.acas f) s = execAcas f s := rfl
theorem exec_red (f : FormM) (s : State) : exec (.red f) s = execRed f s := rfl
theorem exec_fence (f : FormM) (s : State) : exec (.fence f) s = execFence f s := rfl
theorem exec_pgrow (f : FormR) (s : State) : exec (.pgrow f) s = execPgrow f s := rfl
theorem exec_pshrink (f : FormR) (s : State) : exec (.pshrink f) s = execPshrink f s := rfl
theorem exec_fgrow (f : FormR) (s : State) : exec (.fgrow f) s = execFgrow f s := rfl
theorem exec_fshrink (f : FormR) (s : State) : exec (.fshrink f) s = execFshrink f s := rfl
theorem exec_ocfill (f : FormR) (s : State) : exec (.ocfill f) s = execOcfill f s := rfl
theorem exec_ocdrop (f : FormR) (s : State) : exec (.ocdrop f) s = execOcdrop f s := rfl
theorem exec_ocsync (f : FormR) (s : State) : exec (.ocsync f) s = execOcsync f s := rfl
theorem exec_lpin (f : FormM) (s : State) : exec (.lpin f) s = execLpin f s := rfl
theorem exec_lunpin (f : FormM) (s : State) : exec (.lunpin f) s = execLunpin f s := rfl
theorem exec_linv (f : FormM) (s : State) : exec (.linv f) s = execLinv f s := rfl
theorem exec_lwb (f : FormM) (s : State) : exec (.lwb f) s = execLwb f s := rfl
theorem exec_pres (f : FormM) (s : State) : exec (.pres f) s = execPres f s := rfl
theorem exec_objq (f : FormR) (s : State) : exec (.objq f) s = execObjq f s := rfl
theorem exec_ptrchk (f : FormR) (s : State) : exec (.ptrchk f) s = execPtrchk f s := rfl
theorem exec_advise (f : FormM) (s : State) : exec (.advise f) s = execAdvise f s := rfl
theorem exec_bra (f : FormJ) (s : State) : exec (.bra f) s = execBra f s := rfl
theorem exec_brc (f : FormJ) (s : State) : exec (.brc f) s = execBrc f s := rfl
theorem exec_brx (f : FormR) (s : State) : exec (.brx f) s = execBrx f s := rfl
theorem exec_call (f : FormJ) (s : State) : exec (.call f) s = execCall f s := rfl
theorem exec_callx (f : FormR) (s : State) : exec (.callx f) s = execCallx f s := rfl
theorem exec_ret (f : FormR) (s : State) : exec (.ret f) s = execRet f s := rfl
theorem exec_loop (f : FormJ) (s : State) : exec (.loop f) s = execLoop f s := rfl
theorem exec_fspawn (f : FormJ) (s : State) : exec (.fspawn f) s = execFspawn f s := rfl
theorem exec_fend (f : FormR) (s : State) : exec (.fend f) s = execFend f s := rfl
theorem exec_fyield (f : FormR) (s : State) : exec (.fyield f) s = execFyield f s := rfl
theorem exec_exit (f : FormR) (s : State) : exec (.exit f) s = execExit f s := rfl
theorem exec_sleep (f : FormR) (s : State) : exec (.sleep f) s = execSleep f s := rfl
theorem exec_gets (f : FormR) (s : State) : exec (.gets f) s = execGets f s := rfl
theorem exec_sets (f : FormR) (s : State) : exec (.sets f) s = execSets f s := rfl
theorem exec_trap (f : FormR) (s : State) : exec (.trap f) s = execTrap f s := rfl
theorem exec_tret (f : FormR) (s : State) : exec (.tret f) s = execTret f s := rfl
theorem exec_tmask (f : FormR) (s : State) : exec (.tmask f) s = execTmask f s := rfl
theorem exec_tinfo (f : FormR) (s : State) : exec (.tinfo f) s = execTinfo f s := rfl
theorem exec_tsub (f : FormR) (s : State) : exec (.tsub f) s = execTsub f s := rfl
theorem exec_ctxsave (f : FormR) (s : State) : exec (.ctxsave f) s = execCtxsave f s := rfl
theorem exec_ctxload (f : FormR) (s : State) : exec (.ctxload f) s = execCtxload f s := rfl
theorem exec_halt (f : FormR) (s : State) : exec (.halt f) s = execHalt f s := rfl
theorem exec_preq (f : FormR) (s : State) : exec (.preq f) s = execPreq f s := rfl
theorem exec_binit (f : FormM) (s : State) : exec (.binit f) s = execBinit f s := rfl
theorem exec_barv (f : FormM) (s : State) : exec (.barv f) s = execBarv f s := rfl
theorem exec_bexp (f : FormM) (s : State) : exec (.bexp f) s = execBexp f s := rfl
theorem exec_bwait (f : FormM) (s : State) : exec (.bwait f) s = execBwait f s := rfl
theorem exec_bcont (f : FormJ) (s : State) : exec (.bcont f) s = execBcont f s := rfl
theorem exec_await (f : FormM) (s : State) : exec (.await f) s = execAwait f s := rfl
theorem exec_watch (f : FormM) (s : State) : exec (.watch f) s = execWatch f s := rfl
theorem exec_pause (f : FormR) (s : State) : exec (.pause f) s = execPause f s := rfl
theorem exec_tbar (f : FormR) (s : State) : exec (.tbar f) s = execTbar f s := rfl
theorem exec_sbar (f : FormR) (s : State) : exec (.sbar f) s = execSbar f s := rfl
theorem exec_gbar (f : FormR) (s : State) : exec (.gbar f) s = execGbar f s := rfl
theorem exec_cpy (f : FormQ) (s : State) : exec (.cpy f) s = execCpy f s := rfl
theorem exec_gath (f : FormQ) (s : State) : exec (.gath f) s = execGath f s := rfl
theorem exec_scat (f : FormQ) (s : State) : exec (.scat f) s = execScat f s := rfl
theorem exec_cfill (f : FormQ) (s : State) : exec (.cfill f) s = execCfill f s := rfl
theorem exec_orsv (f : FormQ) (s : State) : exec (.orsv f) s = execOrsv f s := rfl
theorem exec_orel (f : FormQ) (s : State) : exec (.orel f) s = execOrel f s := rfl
theorem exec_oqry (f : FormQ) (s : State) : exec (.oqry f) s = execOqry f s := rfl
theorem exec_mma (f : FormQ) (s : State) : exec (.mma f) s = execMma f s := rfl
theorem exec_azero (f : FormQ) (s : State) : exec (.azero f) s = execAzero f s := rfl
theorem exec_amov (f : FormQ) (s : State) : exec (.amov f) s = execAmov f s := rfl
theorem exec_ains (f : FormQ) (s : State) : exec (.ains f) s = execAins f s := rfl
theorem exec_adrain (f : FormQ) (s : State) : exec (.adrain f) s = execAdrain f s := rfl
theorem exec_jst (f : FormM) (s : State) : exec (.jst f) s = execJst f s := rfl
theorem exec_jld (f : FormM) (s : State) : exec (.jld f) s = execJld f s := rfl
theorem exec_jldn (f : FormM) (s : State) : exec (.jldn f) s = execJldn f s := rfl
theorem exec_jadd (f : FormM) (s : State) : exec (.jadd f) s = execJadd f s := rfl
theorem exec_jtrade (f : FormQ) (s : State) : exec (.jtrade f) s = execJtrade f s := rfl
theorem exec_jqry (f : FormQ) (s : State) : exec (.jqry f) s = execJqry f s := rfl
theorem exec_coll (f : FormQ) (s : State) : exec (.coll f) s = execColl f s := rfl
theorem exec_xfence (f : FormM) (s : State) : exec (.xfence f) s = execXfence f s := rfl
theorem exec_xqry (f : FormQ) (s : State) : exec (.xqry f) s = execXqry f s := rfl
theorem exec_pwrq (f : FormR) (s : State) : exec (.pwrq f) s = execPwrq f s := rfl
theorem exec_pwrarm (f : FormR) (s : State) : exec (.pwrarm f) s = execPwrarm f s := rfl
theorem exec_veerhold (f : FormR) (s : State) : exec (.veerhold f) s = execVeerhold f s := rfl
theorem exec_tclaim (f : FormR) (s : State) : exec (.tclaim f) s = execTclaim f s := rfl
theorem exec_tplace (f : FormR) (s : State) : exec (.tplace f) s = execTplace f s := rfl
theorem exec_gdec (f : FormR) (s : State) : exec (.gdec f) s = execGdec f s := rfl
theorem exec_qtake (f : FormR) (s : State) : exec (.qtake f) s = execQtake f s := rfl
theorem exec_qack (f : FormR) (s : State) : exec (.qack f) s = execQack f s := rfl
theorem exec_clauseStart (g : Nat) (refetch : BitVec 4) (s : State) : exec (.clauseStart g refetch) s = execClauseStart g refetch s := rfl
theorem exec_clauseBoundary (g : Nat) (s : State) : exec (.clauseBoundary g) s = execClauseBoundary g s := rfl
theorem exec_sliceIssue (core : Nat) (slice : Nat) (s : State) : exec (.sliceIssue core slice) s = execSliceIssue core slice s := rfl
theorem exec_groupUrgent (g : Nat) (s : State) : exec (.groupUrgent g) s = execGroupUrgent g s := rfl
theorem exec_fixedLatencyLanding (g : Nat) (s : State) : exec (.fixedLatencyLanding g) s = execFixedLatencyLanding g s := rfl
theorem exec_switchPoint (g : Nat) (s : State) : exec (.switchPoint g) s = execSwitchPoint g s := rfl
theorem exec_entrySetAcquire (g : Nat) (s : State) : exec (.entrySetAcquire g) s = execEntrySetAcquire g s := rfl
theorem exec_operandCacheFillDone (g : Nat) (s : State) : exec (.operandCacheFillDone g) s = execOperandCacheFillDone g s := rfl
theorem exec_ocdropComplete (op : Nat) (s : State) : exec (.ocdropComplete op) s = execOcdropComplete op s := rfl
theorem exec_ocsyncComplete (op : Nat) (s : State) : exec (.ocsyncComplete op) s = execOcsyncComplete op s := rfl
theorem exec_poolLoadReturn (op : Nat) (acc : LaneBytes) (s : State) : exec (.poolLoadReturn op acc) s = execPoolLoadReturn op acc s := rfl
theorem exec_storePerformed (op : Nat) (acc : LaneBytes) (s : State) : exec (.storePerformed op acc) s = execStorePerformed op acc s := rfl
theorem exec_atomicPerformed (op : Nat) (lanes : Mask) (s : State) : exec (.atomicPerformed op lanes) s = execAtomicPerformed op lanes s := rfl
theorem exec_parkedLoadWake (op : Nat) (s : State) : exec (.parkedLoadWake op) s = execParkedLoadWake op s := rfl
theorem exec_fenceDrainDone (g : Nat) (s : State) : exec (.fenceDrainDone g) s = execFenceDrainDone g s := rfl
theorem exec_objectCacheFill (core : Nat) (obj : ObjKey) (s : State) : exec (.objectCacheFill core obj) s = execObjectCacheFill core obj s := rfl
theorem exec_lpinFillDone (ctx : Nat) (line : LineKey) (s : State) : exec (.lpinFillDone ctx line) s = execLpinFillDone ctx line s := rfl
theorem exec_allocatorAnswer (core : Nat) (s : State) : exec (.allocatorAnswer core) s = execAllocatorAnswer core s := rfl
theorem exec_stallGrowRetry (core : Nat) (s : State) : exec (.stallGrowRetry core) s = execStallGrowRetry core s := rfl
theorem exec_stallGrowTimeout (g : Nat) (s : State) : exec (.stallGrowTimeout g) s = execStallGrowTimeout g s := rfl
theorem exec_shrinkAfterCopies (g : Nat) (s : State) : exec (.shrinkAfterCopies g) s = execShrinkAfterCopies g s := rfl
theorem exec_sleepWake (g : Nat) (s : State) : exec (.sleepWake g) s = execSleepWake g s := rfl
theorem exec_groupLeaveSlot (g : Nat) (s : State) : exec (.groupLeaveSlot g) s = execGroupLeaveSlot g s := rfl
theorem exec_teamEnd (team : Nat) (s : State) : exec (.teamEnd team) s = execTeamEnd team s := rfl
theorem exec_trapDelivery (g : Nat) (s : State) : exec (.trapDelivery g) s = execTrapDelivery g s := rfl
theorem exec_switchPointTrap (g : Nat) (s : State) : exec (.switchPointTrap g) s = execSwitchPointTrap g s := rfl
theorem exec_throttleTrap (team : Nat) (s : State) : exec (.throttleTrap team) s = execThrottleTrap team s := rfl
theorem exec_haltRequest (ctx : Nat) (s : State) : exec (.haltRequest ctx) s = execHaltRequest ctx s := rfl
theorem exec_groupHalted (g : Nat) (s : State) : exec (.groupHalted g) s = execGroupHalted g s := rfl
theorem exec_gridKill (grid : Nat) (s : State) : exec (.gridKill grid) s = execGridKill grid s := rfl
theorem exec_killComplete (ctx : Nat) (s : State) : exec (.killComplete ctx) s = execKillComplete ctx s := rfl
theorem exec_barrierUpdate (upd : Nat) (s : State) : exec (.barrierUpdate upd) s = execBarrierUpdate upd s := rfl
theorem exec_phaseWaiterWake (g : Nat) (s : State) : exec (.phaseWaiterWake g) s = execPhaseWaiterWake g s := rfl
theorem exec_continuationFire (g : Nat) (s : State) : exec (.continuationFire g) s = execContinuationFire g s := rfl
theorem exec_waitPoll (g : Nat) (s : State) : exec (.waitPoll g) s = execWaitPoll g s := rfl
theorem exec_pauseWake (g : Nat) (s : State) : exec (.pauseWake g) s = execPauseWake g s := rfl
theorem exec_pauseTimeout (g : Nat) (s : State) : exec (.pauseTimeout g) s = execPauseTimeout g s := rfl
theorem exec_barrierInstanceComplete (kind : BarKind) (id : Nat) (share : Nat) (s : State) : exec (.barrierInstanceComplete kind id share) s = execBarrierInstanceComplete kind id share s := rfl
theorem exec_gustWaveRelease (grid : Nat) (s : State) : exec (.gustWaveRelease grid) s = execGustWaveRelease grid s := rfl
theorem exec_streamerRequestActive (req : Nat) (s : State) : exec (.streamerRequestActive req) s = execStreamerRequestActive req s := rfl
theorem exec_streamerLineRead (req : Nat) (s : State) : exec (.streamerLineRead req) s = execStreamerLineRead req s := rfl
theorem exec_streamerLineLand (req : Nat) (line : Nat) (s : State) : exec (.streamerLineLand req line) s = execStreamerLineLand req line s := rfl
theorem exec_streamerCredit (req : Nat) (s : State) : exec (.streamerCredit req) s = execStreamerCredit req s := rfl
theorem exec_gcountCredit (req : Nat) (s : State) : exec (.gcountCredit req) s = execGcountCredit req s := rfl
theorem exec_requestComplete (req : Nat) (s : State) : exec (.requestComplete req) s = execRequestComplete req s := rfl
theorem exec_bulkHandoff (req : Nat) (s : State) : exec (.bulkHandoff req) s = execBulkHandoff req s := rfl
theorem exec_bulkCreditArrival (pkt : Nat) (s : State) : exec (.bulkCreditArrival pkt) s = execBulkCreditArrival pkt s := rfl
theorem exec_copyPageResume (req : Nat) (s : State) : exec (.copyPageResume req) s = execCopyPageResume req s := rfl
theorem exec_copyAbort (req : Nat) (s : State) : exec (.copyAbort req) s = execCopyAbort req s := rfl
theorem exec_mmaStep (cmd : Nat) (s : State) : exec (.mmaStep cmd) s = execMmaStep cmd s := rfl
theorem exec_mmaResults (cmd : Nat) (s : State) : exec (.mmaResults cmd) s = execMmaResults cmd s := rfl
theorem exec_matrixCommandBegin (cmd : Nat) (s : State) : exec (.matrixCommandBegin cmd) s = execMatrixCommandBegin cmd s := rfl
theorem exec_matrixCommandFinish (cmd : Nat) (s : State) : exec (.matrixCommandFinish cmd) s = execMatrixCommandFinish cmd s := rfl
theorem exec_drainRow (cmd : Nat) (s : State) : exec (.drainRow cmd) s = execDrainRow cmd s := rfl
theorem exec_drainLinePerformed (cmd : Nat) (line : Nat) (s : State) : exec (.drainLinePerformed cmd line) s = execDrainLinePerformed cmd line s := rfl
theorem exec_drainComplete (cmd : Nat) (s : State) : exec (.drainComplete cmd) s = execDrainComplete cmd s := rfl
theorem exec_drainPageResume (cmd : Nat) (s : State) : exec (.drainPageResume cmd) s = execDrainPageResume cmd s := rfl
theorem exec_drainAbort (cmd : Nat) (s : State) : exec (.drainAbort cmd) s = execDrainAbort cmd s := rfl
theorem exec_matrixStepReexecute (cmd : Nat) (s : State) : exec (.matrixStepReexecute cmd) s = execMatrixStepReexecute cmd s := rfl
theorem exec_reservationFreed (core : Nat) (rec : Nat) (s : State) : exec (.reservationFreed core rec) s = execReservationFreed core rec s := rfl
theorem exec_latticeLanePerformed (op : Nat) (s : State) : exec (.latticeLanePerformed op) s = execLatticeLanePerformed op s := rfl
theorem exec_latticeReply (op : Nat) (s : State) : exec (.latticeReply op) s = execLatticeReply op s := rfl
theorem exec_thresholdReached (op : Nat) (s : State) : exec (.thresholdReached op) s = execThresholdReached op s := rfl
theorem exec_thresholdPoll (op : Nat) (s : State) : exec (.thresholdPoll op) s = execThresholdPoll op s := rfl
theorem exec_cellCacheFill (stack : Nat) (part : Nat) (region : Nat) (line : Nat) (s : State) : exec (.cellCacheFill stack part region line) s = execCellCacheFill stack part region line s := rfl
theorem exec_regionCacheFill (core : Nat) (region : Nat) (s : State) : exec (.regionCacheFill core region) s = execRegionCacheFill core region s := rfl
theorem exec_tradeInstant (part : Nat) (region : Nat) (s : State) : exec (.tradeInstant part region) s = execTradeInstant part region s := rfl
theorem exec_tradePacketApply (pkt : Nat) (s : State) : exec (.tradePacketApply pkt) s = execTradePacketApply pkt s := rfl
theorem exec_tradeAck (pkt : Nat) (s : State) : exec (.tradeAck pkt) s = execTradeAck pkt s := rfl
theorem exec_starHubSend (part : Nat) (region : Nat) (s : State) : exec (.starHubSend part region) s = execStarHubSend part region s := rfl
theorem exec_jtradeComplete (op : Nat) (s : State) : exec (.jtradeComplete op) s = execJtradeComplete op s := rfl
theorem exec_peerAccessReply (op : Nat) (lane : Nat) (status : Nat) (value : FabValue) (s : State) : exec (.peerAccessReply op lane status value) s = execPeerAccessReply op lane status value s := rfl
theorem exec_fabricPortAccept (op : Nat) (s : State) : exec (.fabricPortAccept op) s = execFabricPortAccept op s := rfl
theorem exec_peerWriteAck (write : Nat) (ack : FabAck) (s : State) : exec (.peerWriteAck write ack) s = execPeerWriteAck write ack s := rfl
theorem exec_multicastApply (dlv : FabricDelivery) (s : State) : exec (.multicastApply dlv) s = execMulticastApply dlv s := rfl
theorem exec_inboundFabricAccess (acc : FabricAccess) (s : State) : exec (.inboundFabricAccess acc) s = execInboundFabricAccess acc s := rfl
theorem exec_xfenceDone (op : Nat) (s : State) : exec (.xfenceDone op) s = execXfenceDone op s := rfl
theorem exec_collectiveComplete (coll : Nat) (peers : List PeerColl) (s : State) : exec (.collectiveComplete coll peers) s = execCollectiveComplete coll peers s := rfl
theorem exec_collectiveTimeout (coll : Nat) (s : State) : exec (.collectiveTimeout coll) s = execCollectiveTimeout coll s := rfl
theorem exec_peerResetLearned (part : Nat) (member : Nat) (incarn : Nat) (s : State) : exec (.peerResetLearned part member incarn) s = execPeerResetLearned part member incarn s := rfl
theorem exec_ringPacketAdmit (pkt : Nat) (s : State) : exec (.ringPacketAdmit pkt) s = execRingPacketAdmit pkt s := rfl
theorem exec_ringAdmissionStarved (stop : Nat) (up : Bool) (s : State) : exec (.ringAdmissionStarved stop up) s = execRingAdmissionStarved stop up s := rfl
theorem exec_ringPacketDelivery (pkt : Nat) (s : State) : exec (.ringPacketDelivery pkt) s = execRingPacketDelivery pkt s := rfl
theorem exec_dieReset (die : Nat) (s : State) : exec (.dieReset die) s = execDieReset die s := rfl
theorem exec_incarnationTableLoad (die : Nat) (s : State) : exec (.incarnationTableLoad die) s = execIncarnationTableLoad die s := rfl
theorem exec_incarnationAnnounce (die : Nat) (s : State) : exec (.incarnationAnnounce die) s = execIncarnationAnnounce die s := rfl
theorem exec_targetResetCompletion (die : Nat) (target : Nat) (s : State) : exec (.targetResetCompletion die target) s = execTargetResetCompletion die target s := rfl
theorem exec_baseDieBError (s : State) : exec (.baseDieBError) s = execBaseDieBError s := rfl
theorem exec_baseDieAError (s : State) : exec (.baseDieAError) s = execBaseDieAError s := rfl
theorem exec_modulePowerOn (s : State) : exec (.modulePowerOn) s = execModulePowerOn s := rfl
theorem exec_linkRetrain (link : Nat) (s : State) : exec (.linkRetrain link) s = execLinkRetrain link s := rfl
theorem exec_inboundPostedWrite (req : HostReq) (s : State) : exec (.inboundPostedWrite req) s = execInboundPostedWrite req s := rfl
theorem exec_inboundRead (req : HostReq) (s : State) : exec (.inboundRead req) s = execInboundRead req s := rfl
theorem exec_inboundAtomicop (req : HostReq) (s : State) : exec (.inboundAtomicop req) s = execInboundAtomicop req s := rfl
theorem exec_inboundLineAck (req : Nat) (line : Nat) (s : State) : exec (.inboundLineAck req line) s = execInboundLineAck req line s := rfl
theorem exec_hostMemoryRequest (op : Nat) (lanes : Mask) (s : State) : exec (.hostMemoryRequest op lanes) s = execHostMemoryRequest op lanes s := rfl
theorem exec_hostCompletion (op : Nat) (lane : Nat) (ok : Bool) (vals : List W32) (s : State) : exec (.hostCompletion op lane ok vals) s = execHostCompletion op lane ok vals s := rfl
theorem exec_systemReleaseFlush (g : Nat) (s : State) : exec (.systemReleaseFlush g) s = execSystemReleaseFlush g s := rfl
theorem exec_pageRequest (part : Nat) (gran : Nat) (asker : PageAsker) (s : State) : exec (.pageRequest part gran asker) s = execPageRequest part gran asker s := rfl
theorem exec_prqptrHeadWrite (part : Nat) (head : Nat) (s : State) : exec (.prqptrHeadWrite part head) s = execPrqptrHeadWrite part head s := rfl
theorem exec_pageAnswerZero (ans : PageAnswer) (s : State) : exec (.pageAnswerZero ans) s = execPageAnswerZero ans s := rfl
theorem exec_pageAnswerCopy (ans : PageAnswer) (s : State) : exec (.pageAnswerCopy ans) s = execPageAnswerCopy ans s := rfl
theorem exec_pageAnswerMap (ans : PageAnswer) (s : State) : exec (.pageAnswerMap ans) s = execPageAnswerMap ans s := rfl
theorem exec_pageAnswerFail (ans : PageAnswer) (s : State) : exec (.pageAnswerFail ans) s = execPageAnswerFail ans s := rfl
theorem exec_hreqQuery (part : Nat) (gran : Nat) (s : State) : exec (.hreqQuery part gran) s = execHreqQuery part gran s := rfl
theorem exec_hreqPin (part : Nat) (gran : Nat) (s : State) : exec (.hreqPin part gran) s = execHreqPin part gran s := rfl
theorem exec_hreqUnpin (part : Nat) (gran : Nat) (s : State) : exec (.hreqUnpin part gran) s = execHreqUnpin part gran s := rfl
theorem exec_hreqTohost (part : Nat) (gran : Nat) (hpa : Nat) (s : State) : exec (.hreqTohost part gran hpa) s = execHreqTohost part gran hpa s := rfl
theorem exec_hreqTodev (part : Nat) (gran : Nat) (s : State) : exec (.hreqTodev part gran) s = execHreqTodev part gran s := rfl
theorem exec_hreqDrop (part : Nat) (gran : Nat) (s : State) : exec (.hreqDrop part gran) s = execHreqDrop part gran s := rfl
theorem exec_otinvWrite (part : Nat) (obj : Nat) (s : State) : exec (.otinvWrite part obj) s = execOtinvWrite part obj s := rfl
theorem exec_otinvComplete (part : Nat) (s : State) : exec (.otinvComplete part) s = execOtinvComplete part s := rfl
theorem exec_partitionEnable (part : Nat) (val : W64) (grant : List Nat) (s : State) : exec (.partitionEnable part val grant) s = execPartitionEnable part val grant s := rfl
theorem exec_partitionTeardown (part : Nat) (s : State) : exec (.partitionTeardown part) s = execPartitionTeardown part s := rfl
theorem exec_teardownComplete (part : Nat) (s : State) : exec (.teardownComplete part) s = execTeardownComplete part s := rfl
theorem exec_epochEnd (part : Nat) (s : State) : exec (.epochEnd part) s = execEpochEnd part s := rfl
theorem exec_pageMoveStep (part : Nat) (gran : Nat) (s : State) : exec (.pageMoveStep part gran) s = execPageMoveStep part gran s := rfl
theorem exec_functionLevelReset (func : Nat) (s : State) : exec (.functionLevelReset func) s = execFunctionLevelReset func s := rfl
theorem exec_mctpMessage (msg : MctpMsg) (s : State) : exec (.mctpMessage msg) s = execMctpMessage msg s := rfl
theorem exec_qinSubmission (part : Nat) (queue : Nat) (bytes : List Byte) (s : State) : exec (.qinSubmission part queue bytes) s = execQinSubmission part queue bytes s := rfl
theorem exec_qcfgEnable (part : Nat) (queue : Nat) (val : W64) (s : State) : exec (.qcfgEnable part queue val) s = execQcfgEnable part queue val s := rfl
theorem exec_qstatusClear (part : Nat) (queue : Nat) (val : W64) (s : State) : exec (.qstatusClear part queue val) s = execQstatusClear part queue val s := rfl
theorem exec_cmdNop (part : Nat) (queue : Nat) (s : State) : exec (.cmdNop part queue) s = execCmdNop part queue s := rfl
theorem exec_cmdBegin (part : Nat) (queue : Nat) (s : State) : exec (.cmdBegin part queue) s = execCmdBegin part queue s := rfl
theorem exec_cmdCommit (part : Nat) (queue : Nat) (s : State) : exec (.cmdCommit part queue) s = execCmdCommit part queue s := rfl
theorem exec_cmdGraph (part : Nat) (queue : Nat) (s : State) : exec (.cmdGraph part queue) s = execCmdGraph part queue s := rfl
theorem exec_cmdRcreate (part : Nat) (queue : Nat) (s : State) : exec (.cmdRcreate part queue) s = execCmdRcreate part queue s := rfl
theorem exec_cmdRdestroy (part : Nat) (queue : Nat) (s : State) : exec (.cmdRdestroy part queue) s = execCmdRdestroy part queue s := rfl
theorem exec_cmdFence (part : Nat) (queue : Nat) (s : State) : exec (.cmdFence part queue) s = execCmdFence part queue s := rfl
theorem exec_gridStart (run : Nat) (node : Nat) (s : State) : exec (.gridStart run node) s = execGridStart run node s := rfl
theorem exec_gridComplete (grid : Nat) (s : State) : exec (.gridComplete grid) s = execGridComplete grid s := rfl
theorem exec_runComplete (run : Nat) (s : State) : exec (.runComplete run) s = execRunComplete run s := rfl
theorem exec_firmwareRestart (s : State) : exec (.firmwareRestart) s = execFirmwareRestart s := rfl
theorem exec_watchdogPreempt (grid : Nat) (s : State) : exec (.watchdogPreempt grid) s = execWatchdogPreempt grid s := rfl
theorem exec_watchdogKill (grid : Nat) (s : State) : exec (.watchdogKill grid) s = execWatchdogKill grid s := rfl
theorem exec_watchdogFence (grid : Nat) (s : State) : exec (.watchdogFence grid) s = execWatchdogFence grid s := rfl
theorem exec_haltIdleWake (core : Nat) (s : State) : exec (.haltIdleWake core) s = execHaltIdleWake core s := rfl
theorem exec_controlInterval (env : PowerEnv) (s : State) : exec (.controlInterval env) s = execControlInterval env s := rfl
theorem exec_fcapWrite (val : W64) (s : State) : exec (.fcapWrite val) s = execFcapWrite val s := rfl
theorem exec_currentRatingReached (stack : Nat) (s : State) : exec (.currentRatingReached stack) s = execCurrentRatingReached stack s := rfl
theorem exec_ratioChange (stack : Nat) (s : State) : exec (.ratioChange stack) s = execRatioChange stack s := rfl
theorem exec_squall (core : Nat) (s : State) : exec (.squall core) s = execSquall core s := rfl
theorem exec_clauseReexecute (g : Nat) (s : State) : exec (.clauseReexecute g) s = execClauseReexecute g s := rfl
theorem exec_veerInstant (stack : Nat) (heats : List Nat) (s : State) : exec (.veerInstant stack heats) s = execVeerInstant stack heats s := rfl
theorem exec_veerStart (stack : Nat) (s : State) : exec (.veerStart stack) s = execVeerStart stack s := rfl
theorem exec_veerPauseEnd (stack : Nat) (s : State) : exec (.veerPauseEnd stack) s = execVeerPauseEnd stack s := rfl
theorem exec_registerWrite (func : Nat) (off : Nat) (val : W64) (s : State) : exec (.registerWrite func off val) s = execRegisterWrite func off val s := rfl
theorem exec_squallStretchEnd (core : Nat) (s : State) : exec (.squallStretchEnd core) s = execSquallStretchEnd core s := rfl
theorem exec_firmwareRestartEnd (s : State) : exec (.firmwareRestartEnd) s = execFirmwareRestartEnd s := rfl
theorem exec_matrixQueryComplete (op : Nat) (s : State) : exec (.matrixQueryComplete op) s = execMatrixQueryComplete op s := rfl
theorem exec_latticeQueryComplete (op : Nat) (s : State) : exec (.latticeQueryComplete op) s = execLatticeQueryComplete op s := rfl
theorem exec_fabricQueryComplete (op : Nat) (s : State) : exec (.fabricQueryComplete op) s = execFabricQueryComplete op s := rfl
theorem exec_qtakeQackComplete (op : Nat) (s : State) : exec (.qtakeQackComplete op) s = execQtakeQackComplete op s := rfl

end Sys2Proof.Laws
end

