-- ==== Sys2Proof/Laws/Events.lean ====
section
/-! SUPPORT. Sys2Proof/Laws/Events.lean: what the shared parts of the HREQ commands and of the page answers give. -/

namespace Sys2Proof.Machine

set_option Elab.async false

open Sys2Proof

/-- A command submitted while none is in progress and its page is at rest is performed at once. -/
theorem hreq_go (s : State) (part gran cmd hpa : Nat) (h : HreqFree s part gran) :
    hreq part gran cmd hpa s = .next (hreqRun (hreqSet s part gran cmd hpa) ⟨part, gran, cmd, hpa, false⟩) := by
  obtain ⟨h1, h2⟩ := h
  unfold hreq
  simp only [h1, hreqHeld, hreqPage, h2, hreqSet, Option.isSome_none, Bool.false_eq_true, if_false]

/-- An answer of its own command is applied and kept. -/
theorem answerOf_own (s : State) (ans : PageAnswer) (n : Nat) (h : bits ans.lo.toNat 44 42 = n) :
    answerOf n ans s = .next { pageAnswer s ans.lo.toNat ans.hi.toNat with answ0 := ans.lo, answ1 := ans.hi } := by
  simp [answerOf, h]

end Sys2Proof.Machine
end

