-- ==== Sys2Proof/Laws/State.lean ====
section
/-! SUPPORT. Sys2Proof/Laws/State.lean: one lemma per field per update of the state, each by rfl, and what an update by number does to a lookup by number. -/

namespace Sys2Proof.Machine

variable (s : State)

/-! ### modG -/
@[simp] theorem modG_agenda (i : Nat) (h : Group → Group) : (modG s i h).agenda = s.agenda := rfl
@[simp] theorem modG_cur (i : Nat) (h : Group → Group) : (modG s i h).cur = s.cur := rfl
@[simp] theorem modG_turn (i : Nat) (h : Group → Group) : (modG s i h).turn = s.turn := rfl
@[simp] theorem modG_fresh (i : Nat) (h : Group → Group) : (modG s i h).fresh = s.fresh := rfl
@[simp] theorem modG_nextId (i : Nat) (h : Group → Group) : (modG s i h).nextId = s.nextId := rfl
@[simp] theorem modG_tick (i : Nat) (h : Group → Group) : (modG s i h).tick = s.tick := rfl
@[simp] theorem modG_mem (i : Nat) (h : Group → Group) : (modG s i h).mem = s.mem := rfl
@[simp] theorem modG_strong (i : Nat) (h : Group → Group) : (modG s i h).strong = s.strong := rfl
@[simp] theorem modG_upsets (i : Nat) (h : Group → Group) : (modG s i h).upsets = s.upsets := rfl
@[simp] theorem modG_poison (i : Nat) (h : Group → Group) : (modG s i h).poison = s.poison := rfl
@[simp] theorem modG_past (i : Nat) (h : Group → Group) : (modG s i h).past = s.past := rfl
@[simp] theorem modG_reads (i : Nat) (h : Group → Group) : (modG s i h).reads = s.reads := rfl
@[simp] theorem modG_stamp (i : Nat) (h : Group → Group) : (modG s i h).stamp = s.stamp := rfl
@[simp] theorem modG_knows (i : Nat) (h : Group → Group) : (modG s i h).knows = s.knows := rfl
@[simp] theorem modG_dies (i : Nat) (h : Group → Group) : (modG s i h).dies = s.dies := rfl
@[simp] theorem modG_stops (i : Nat) (h : Group → Group) : (modG s i h).stops = s.stops := rfl
@[simp] theorem modG_cellCache (i : Nat) (h : Group → Group) : (modG s i h).cellCache = s.cellCache := rfl
@[simp] theorem modG_pkts (i : Nat) (h : Group → Group) : (modG s i h).pkts = s.pkts := rfl
@[simp] theorem modG_cores (i : Nat) (h : Group → Group) : (modG s i h).cores = s.cores := rfl
@[simp] theorem modG_groups (i : Nat) (h : Group → Group) : (modG s i h).groups = modBy Group.id s.groups i h := rfl
@[simp] theorem modG_ctxs (i : Nat) (h : Group → Group) : (modG s i h).ctxs = s.ctxs := rfl
@[simp] theorem modG_teams (i : Nat) (h : Group → Group) : (modG s i h).teams = s.teams := rfl
@[simp] theorem modG_grids (i : Nat) (h : Group → Group) : (modG s i h).grids = s.grids := rfl
@[simp] theorem modG_runs (i : Nat) (h : Group → Group) : (modG s i h).runs = s.runs := rfl
@[simp] theorem modG_parts (i : Nat) (h : Group → Group) : (modG s i h).parts = s.parts := rfl
@[simp] theorem modG_ops (i : Nat) (h : Group → Group) : (modG s i h).ops = s.ops := rfl
@[simp] theorem modG_pwrites (i : Nat) (h : Group → Group) : (modG s i h).pwrites = s.pwrites := rfl
@[simp] theorem modG_upds (i : Nat) (h : Group → Group) : (modG s i h).upds = s.upds := rfl
@[simp] theorem modG_reqs (i : Nat) (h : Group → Group) : (modG s i h).reqs = s.reqs := rfl
@[simp] theorem modG_mcmds (i : Nat) (h : Group → Group) : (modG s i h).mcmds = s.mcmds := rfl
@[simp] theorem modG_colls (i : Nat) (h : Group → Group) : (modG s i h).colls = s.colls := rfl
@[simp] theorem modG_fabOut (i : Nat) (h : Group → Group) : (modG s i h).fabOut = s.fabOut := rfl
@[simp] theorem modG_inb (i : Nat) (h : Group → Group) : (modG s i h).inb = s.inb := rfl
@[simp] theorem modG_cpls (i : Nat) (h : Group → Group) : (modG s i h).cpls = s.cpls := rfl
@[simp] theorem modG_hwrites (i : Nat) (h : Group → Group) : (modG s i h).hwrites = s.hwrites := rfl
@[simp] theorem modG_wbacks (i : Nat) (h : Group → Group) : (modG s i h).wbacks = s.wbacks := rfl
@[simp] theorem modG_links (i : Nat) (h : Group → Group) : (modG s i h).links = s.links := rfl
@[simp] theorem modG_heldMsix (i : Nat) (h : Group → Group) : (modG s i h).heldMsix = s.heldMsix := rfl
@[simp] theorem modG_msix (i : Nat) (h : Group → Group) : (modG s i h).msix = s.msix := rfl
@[simp] theorem modG_answ0 (i : Nat) (h : Group → Group) : (modG s i h).answ0 = s.answ0 := rfl
@[simp] theorem modG_answ1 (i : Nat) (h : Group → Group) : (modG s i h).answ1 = s.answ1 := rfl
@[simp] theorem modG_hreq0 (i : Nat) (h : Group → Group) : (modG s i h).hreq0 = s.hreq0 := rfl
@[simp] theorem modG_hreq1 (i : Nat) (h : Group → Group) : (modG s i h).hreq1 = s.hreq1 := rfl
@[simp] theorem modG_hres (i : Nat) (h : Group → Group) : (modG s i h).hres = s.hres := rfl
@[simp] theorem modG_hcmd (i : Nat) (h : Group → Group) : (modG s i h).hcmd = s.hcmd := rfl
@[simp] theorem modG_fcapWatts (i : Nat) (h : Group → Group) : (modG s i h).fcapWatts = s.fcapWatts := rfl
@[simp] theorem modG_fcapSeq (i : Nat) (h : Group → Group) : (modG s i h).fcapSeq = s.fcapSeq := rfl
@[simp] theorem modG_fcapActed (i : Nat) (h : Group → Group) : (modG s i h).fcapActed = s.fcapActed := rfl
@[simp] theorem modG_fcapBusy (i : Nat) (h : Group → Group) : (modG s i h).fcapBusy = s.fcapBusy := rfl
@[simp] theorem modG_sweep (i : Nat) (h : Group → Group) : (modG s i h).sweep = s.sweep := rfl
@[simp] theorem modG_interval (i : Nat) (h : Group → Group) : (modG s i h).interval = s.interval := rfl
@[simp] theorem modG_sqcnt (i : Nat) (h : Group → Group) : (modG s i h).sqcnt = s.sqcnt := rfl
@[simp] theorem modG_mindiff (i : Nat) (h : Group → Group) : (modG s i h).mindiff = s.mindiff := rfl
@[simp] theorem modG_vperiod (i : Nat) (h : Group → Group) : (modG s i h).vperiod = s.vperiod := rfl
@[simp] theorem modG_stackPower (i : Nat) (h : Group → Group) : (modG s i h).stackPower = s.stackPower := rfl
@[simp] theorem modG_veers (i : Nat) (h : Group → Group) : (modG s i h).veers = s.veers := rfl
@[simp] theorem modG_veerAt (i : Nat) (h : Group → Group) : (modG s i h).veerAt = s.veerAt := rfl
@[simp] theorem modG_restart (i : Nat) (h : Group → Group) : (modG s i h).restart = s.restart := rfl
@[simp] theorem modG_unsupported (i : Nat) (h : Group → Group) : (modG s i h).unsupported = s.unsupported := rfl
@[simp] theorem modG_cfgErrors (i : Nat) (h : Group → Group) : (modG s i h).cfgErrors = s.cfgErrors := rfl
@[simp] theorem modG_discarded (i : Nat) (h : Group → Group) : (modG s i h).discarded = s.discarded := rfl
@[simp] theorem modG_overcap (i : Nat) (h : Group → Group) : (modG s i h).overcap = s.overcap := rfl

/-! ### modC -/
@[simp] theorem modC_agenda (i : Nat) (h : Ctx → Ctx) : (modC s i h).agenda = s.agenda := rfl
@[simp] theorem modC_cur (i : Nat) (h : Ctx → Ctx) : (modC s i h).cur = s.cur := rfl
@[simp] theorem modC_turn (i : Nat) (h : Ctx → Ctx) : (modC s i h).turn = s.turn := rfl
@[simp] theorem modC_fresh (i : Nat) (h : Ctx → Ctx) : (modC s i h).fresh = s.fresh := rfl
@[simp] theorem modC_nextId (i : Nat) (h : Ctx → Ctx) : (modC s i h).nextId = s.nextId := rfl
@[simp] theorem modC_tick (i : Nat) (h : Ctx → Ctx) : (modC s i h).tick = s.tick := rfl
@[simp] theorem modC_mem (i : Nat) (h : Ctx → Ctx) : (modC s i h).mem = s.mem := rfl
@[simp] theorem modC_strong (i : Nat) (h : Ctx → Ctx) : (modC s i h).strong = s.strong := rfl
@[simp] theorem modC_upsets (i : Nat) (h : Ctx → Ctx) : (modC s i h).upsets = s.upsets := rfl
@[simp] theorem modC_poison (i : Nat) (h : Ctx → Ctx) : (modC s i h).poison = s.poison := rfl
@[simp] theorem modC_past (i : Nat) (h : Ctx → Ctx) : (modC s i h).past = s.past := rfl
@[simp] theorem modC_reads (i : Nat) (h : Ctx → Ctx) : (modC s i h).reads = s.reads := rfl
@[simp] theorem modC_stamp (i : Nat) (h : Ctx → Ctx) : (modC s i h).stamp = s.stamp := rfl
@[simp] theorem modC_knows (i : Nat) (h : Ctx → Ctx) : (modC s i h).knows = s.knows := rfl
@[simp] theorem modC_dies (i : Nat) (h : Ctx → Ctx) : (modC s i h).dies = s.dies := rfl
@[simp] theorem modC_stops (i : Nat) (h : Ctx → Ctx) : (modC s i h).stops = s.stops := rfl
@[simp] theorem modC_cellCache (i : Nat) (h : Ctx → Ctx) : (modC s i h).cellCache = s.cellCache := rfl
@[simp] theorem modC_pkts (i : Nat) (h : Ctx → Ctx) : (modC s i h).pkts = s.pkts := rfl
@[simp] theorem modC_cores (i : Nat) (h : Ctx → Ctx) : (modC s i h).cores = s.cores := rfl
@[simp] theorem modC_groups (i : Nat) (h : Ctx → Ctx) : (modC s i h).groups = s.groups := rfl
@[simp] theorem modC_ctxs (i : Nat) (h : Ctx → Ctx) : (modC s i h).ctxs = modBy Ctx.id s.ctxs i h := rfl
@[simp] theorem modC_teams (i : Nat) (h : Ctx → Ctx) : (modC s i h).teams = s.teams := rfl
@[simp] theorem modC_grids (i : Nat) (h : Ctx → Ctx) : (modC s i h).grids = s.grids := rfl
@[simp] theorem modC_runs (i : Nat) (h : Ctx → Ctx) : (modC s i h).runs = s.runs := rfl
@[simp] theorem modC_parts (i : Nat) (h : Ctx → Ctx) : (modC s i h).parts = s.parts := rfl
@[simp] theorem modC_ops (i : Nat) (h : Ctx → Ctx) : (modC s i h).ops = s.ops := rfl
@[simp] theorem modC_pwrites (i : Nat) (h : Ctx → Ctx) : (modC s i h).pwrites = s.pwrites := rfl
@[simp] theorem modC_upds (i : Nat) (h : Ctx → Ctx) : (modC s i h).upds = s.upds := rfl
@[simp] theorem modC_reqs (i : Nat) (h : Ctx → Ctx) : (modC s i h).reqs = s.reqs := rfl
@[simp] theorem modC_mcmds (i : Nat) (h : Ctx → Ctx) : (modC s i h).mcmds = s.mcmds := rfl
@[simp] theorem modC_colls (i : Nat) (h : Ctx → Ctx) : (modC s i h).colls = s.colls := rfl
@[simp] theorem modC_fabOut (i : Nat) (h : Ctx → Ctx) : (modC s i h).fabOut = s.fabOut := rfl
@[simp] theorem modC_inb (i : Nat) (h : Ctx → Ctx) : (modC s i h).inb = s.inb := rfl
@[simp] theorem modC_cpls (i : Nat) (h : Ctx → Ctx) : (modC s i h).cpls = s.cpls := rfl
@[simp] theorem modC_hwrites (i : Nat) (h : Ctx → Ctx) : (modC s i h).hwrites = s.hwrites := rfl
@[simp] theorem modC_wbacks (i : Nat) (h : Ctx → Ctx) : (modC s i h).wbacks = s.wbacks := rfl
@[simp] theorem modC_links (i : Nat) (h : Ctx → Ctx) : (modC s i h).links = s.links := rfl
@[simp] theorem modC_heldMsix (i : Nat) (h : Ctx → Ctx) : (modC s i h).heldMsix = s.heldMsix := rfl
@[simp] theorem modC_msix (i : Nat) (h : Ctx → Ctx) : (modC s i h).msix = s.msix := rfl
@[simp] theorem modC_answ0 (i : Nat) (h : Ctx → Ctx) : (modC s i h).answ0 = s.answ0 := rfl
@[simp] theorem modC_answ1 (i : Nat) (h : Ctx → Ctx) : (modC s i h).answ1 = s.answ1 := rfl
@[simp] theorem modC_hreq0 (i : Nat) (h : Ctx → Ctx) : (modC s i h).hreq0 = s.hreq0 := rfl
@[simp] theorem modC_hreq1 (i : Nat) (h : Ctx → Ctx) : (modC s i h).hreq1 = s.hreq1 := rfl
@[simp] theorem modC_hres (i : Nat) (h : Ctx → Ctx) : (modC s i h).hres = s.hres := rfl
@[simp] theorem modC_hcmd (i : Nat) (h : Ctx → Ctx) : (modC s i h).hcmd = s.hcmd := rfl
@[simp] theorem modC_fcapWatts (i : Nat) (h : Ctx → Ctx) : (modC s i h).fcapWatts = s.fcapWatts := rfl
@[simp] theorem modC_fcapSeq (i : Nat) (h : Ctx → Ctx) : (modC s i h).fcapSeq = s.fcapSeq := rfl
@[simp] theorem modC_fcapActed (i : Nat) (h : Ctx → Ctx) : (modC s i h).fcapActed = s.fcapActed := rfl
@[simp] theorem modC_fcapBusy (i : Nat) (h : Ctx → Ctx) : (modC s i h).fcapBusy = s.fcapBusy := rfl
@[simp] theorem modC_sweep (i : Nat) (h : Ctx → Ctx) : (modC s i h).sweep = s.sweep := rfl
@[simp] theorem modC_interval (i : Nat) (h : Ctx → Ctx) : (modC s i h).interval = s.interval := rfl
@[simp] theorem modC_sqcnt (i : Nat) (h : Ctx → Ctx) : (modC s i h).sqcnt = s.sqcnt := rfl
@[simp] theorem modC_mindiff (i : Nat) (h : Ctx → Ctx) : (modC s i h).mindiff = s.mindiff := rfl
@[simp] theorem modC_vperiod (i : Nat) (h : Ctx → Ctx) : (modC s i h).vperiod = s.vperiod := rfl
@[simp] theorem modC_stackPower (i : Nat) (h : Ctx → Ctx) : (modC s i h).stackPower = s.stackPower := rfl
@[simp] theorem modC_veers (i : Nat) (h : Ctx → Ctx) : (modC s i h).veers = s.veers := rfl
@[simp] theorem modC_veerAt (i : Nat) (h : Ctx → Ctx) : (modC s i h).veerAt = s.veerAt := rfl
@[simp] theorem modC_restart (i : Nat) (h : Ctx → Ctx) : (modC s i h).restart = s.restart := rfl
@[simp] theorem modC_unsupported (i : Nat) (h : Ctx → Ctx) : (modC s i h).unsupported = s.unsupported := rfl
@[simp] theorem modC_cfgErrors (i : Nat) (h : Ctx → Ctx) : (modC s i h).cfgErrors = s.cfgErrors := rfl
@[simp] theorem modC_discarded (i : Nat) (h : Ctx → Ctx) : (modC s i h).discarded = s.discarded := rfl
@[simp] theorem modC_overcap (i : Nat) (h : Ctx → Ctx) : (modC s i h).overcap = s.overcap := rfl

/-! ### modT -/
@[simp] theorem modT_agenda (i : Nat) (h : Team → Team) : (modT s i h).agenda = s.agenda := rfl
@[simp] theorem modT_cur (i : Nat) (h : Team → Team) : (modT s i h).cur = s.cur := rfl
@[simp] theorem modT_turn (i : Nat) (h : Team → Team) : (modT s i h).turn = s.turn := rfl
@[simp] theorem modT_fresh (i : Nat) (h : Team → Team) : (modT s i h).fresh = s.fresh := rfl
@[simp] theorem modT_nextId (i : Nat) (h : Team → Team) : (modT s i h).nextId = s.nextId := rfl
@[simp] theorem modT_tick (i : Nat) (h : Team → Team) : (modT s i h).tick = s.tick := rfl
@[simp] theorem modT_mem (i : Nat) (h : Team → Team) : (modT s i h).mem = s.mem := rfl
@[simp] theorem modT_strong (i : Nat) (h : Team → Team) : (modT s i h).strong = s.strong := rfl
@[simp] theorem modT_upsets (i : Nat) (h : Team → Team) : (modT s i h).upsets = s.upsets := rfl
@[simp] theorem modT_poison (i : Nat) (h : Team → Team) : (modT s i h).poison = s.poison := rfl
@[simp] theorem modT_past (i : Nat) (h : Team → Team) : (modT s i h).past = s.past := rfl
@[simp] theorem modT_reads (i : Nat) (h : Team → Team) : (modT s i h).reads = s.reads := rfl
@[simp] theorem modT_stamp (i : Nat) (h : Team → Team) : (modT s i h).stamp = s.stamp := rfl
@[simp] theorem modT_knows (i : Nat) (h : Team → Team) : (modT s i h).knows = s.knows := rfl
@[simp] theorem modT_dies (i : Nat) (h : Team → Team) : (modT s i h).dies = s.dies := rfl
@[simp] theorem modT_stops (i : Nat) (h : Team → Team) : (modT s i h).stops = s.stops := rfl
@[simp] theorem modT_cellCache (i : Nat) (h : Team → Team) : (modT s i h).cellCache = s.cellCache := rfl
@[simp] theorem modT_pkts (i : Nat) (h : Team → Team) : (modT s i h).pkts = s.pkts := rfl
@[simp] theorem modT_cores (i : Nat) (h : Team → Team) : (modT s i h).cores = s.cores := rfl
@[simp] theorem modT_groups (i : Nat) (h : Team → Team) : (modT s i h).groups = s.groups := rfl
@[simp] theorem modT_ctxs (i : Nat) (h : Team → Team) : (modT s i h).ctxs = s.ctxs := rfl
@[simp] theorem modT_teams (i : Nat) (h : Team → Team) : (modT s i h).teams = modBy Team.id s.teams i h := rfl
@[simp] theorem modT_grids (i : Nat) (h : Team → Team) : (modT s i h).grids = s.grids := rfl
@[simp] theorem modT_runs (i : Nat) (h : Team → Team) : (modT s i h).runs = s.runs := rfl
@[simp] theorem modT_parts (i : Nat) (h : Team → Team) : (modT s i h).parts = s.parts := rfl
@[simp] theorem modT_ops (i : Nat) (h : Team → Team) : (modT s i h).ops = s.ops := rfl
@[simp] theorem modT_pwrites (i : Nat) (h : Team → Team) : (modT s i h).pwrites = s.pwrites := rfl
@[simp] theorem modT_upds (i : Nat) (h : Team → Team) : (modT s i h).upds = s.upds := rfl
@[simp] theorem modT_reqs (i : Nat) (h : Team → Team) : (modT s i h).reqs = s.reqs := rfl
@[simp] theorem modT_mcmds (i : Nat) (h : Team → Team) : (modT s i h).mcmds = s.mcmds := rfl
@[simp] theorem modT_colls (i : Nat) (h : Team → Team) : (modT s i h).colls = s.colls := rfl
@[simp] theorem modT_fabOut (i : Nat) (h : Team → Team) : (modT s i h).fabOut = s.fabOut := rfl
@[simp] theorem modT_inb (i : Nat) (h : Team → Team) : (modT s i h).inb = s.inb := rfl
@[simp] theorem modT_cpls (i : Nat) (h : Team → Team) : (modT s i h).cpls = s.cpls := rfl
@[simp] theorem modT_hwrites (i : Nat) (h : Team → Team) : (modT s i h).hwrites = s.hwrites := rfl
@[simp] theorem modT_wbacks (i : Nat) (h : Team → Team) : (modT s i h).wbacks = s.wbacks := rfl
@[simp] theorem modT_links (i : Nat) (h : Team → Team) : (modT s i h).links = s.links := rfl
@[simp] theorem modT_heldMsix (i : Nat) (h : Team → Team) : (modT s i h).heldMsix = s.heldMsix := rfl
@[simp] theorem modT_msix (i : Nat) (h : Team → Team) : (modT s i h).msix = s.msix := rfl
@[simp] theorem modT_answ0 (i : Nat) (h : Team → Team) : (modT s i h).answ0 = s.answ0 := rfl
@[simp] theorem modT_answ1 (i : Nat) (h : Team → Team) : (modT s i h).answ1 = s.answ1 := rfl
@[simp] theorem modT_hreq0 (i : Nat) (h : Team → Team) : (modT s i h).hreq0 = s.hreq0 := rfl
@[simp] theorem modT_hreq1 (i : Nat) (h : Team → Team) : (modT s i h).hreq1 = s.hreq1 := rfl
@[simp] theorem modT_hres (i : Nat) (h : Team → Team) : (modT s i h).hres = s.hres := rfl
@[simp] theorem modT_hcmd (i : Nat) (h : Team → Team) : (modT s i h).hcmd = s.hcmd := rfl
@[simp] theorem modT_fcapWatts (i : Nat) (h : Team → Team) : (modT s i h).fcapWatts = s.fcapWatts := rfl
@[simp] theorem modT_fcapSeq (i : Nat) (h : Team → Team) : (modT s i h).fcapSeq = s.fcapSeq := rfl
@[simp] theorem modT_fcapActed (i : Nat) (h : Team → Team) : (modT s i h).fcapActed = s.fcapActed := rfl
@[simp] theorem modT_fcapBusy (i : Nat) (h : Team → Team) : (modT s i h).fcapBusy = s.fcapBusy := rfl
@[simp] theorem modT_sweep (i : Nat) (h : Team → Team) : (modT s i h).sweep = s.sweep := rfl
@[simp] theorem modT_interval (i : Nat) (h : Team → Team) : (modT s i h).interval = s.interval := rfl
@[simp] theorem modT_sqcnt (i : Nat) (h : Team → Team) : (modT s i h).sqcnt = s.sqcnt := rfl
@[simp] theorem modT_mindiff (i : Nat) (h : Team → Team) : (modT s i h).mindiff = s.mindiff := rfl
@[simp] theorem modT_vperiod (i : Nat) (h : Team → Team) : (modT s i h).vperiod = s.vperiod := rfl
@[simp] theorem modT_stackPower (i : Nat) (h : Team → Team) : (modT s i h).stackPower = s.stackPower := rfl
@[simp] theorem modT_veers (i : Nat) (h : Team → Team) : (modT s i h).veers = s.veers := rfl
@[simp] theorem modT_veerAt (i : Nat) (h : Team → Team) : (modT s i h).veerAt = s.veerAt := rfl
@[simp] theorem modT_restart (i : Nat) (h : Team → Team) : (modT s i h).restart = s.restart := rfl
@[simp] theorem modT_unsupported (i : Nat) (h : Team → Team) : (modT s i h).unsupported = s.unsupported := rfl
@[simp] theorem modT_cfgErrors (i : Nat) (h : Team → Team) : (modT s i h).cfgErrors = s.cfgErrors := rfl
@[simp] theorem modT_discarded (i : Nat) (h : Team → Team) : (modT s i h).discarded = s.discarded := rfl
@[simp] theorem modT_overcap (i : Nat) (h : Team → Team) : (modT s i h).overcap = s.overcap := rfl

/-! ### modGrid -/
@[simp] theorem modGrid_agenda (i : Nat) (h : Grid → Grid) : (modGrid s i h).agenda = s.agenda := rfl
@[simp] theorem modGrid_cur (i : Nat) (h : Grid → Grid) : (modGrid s i h).cur = s.cur := rfl
@[simp] theorem modGrid_turn (i : Nat) (h : Grid → Grid) : (modGrid s i h).turn = s.turn := rfl
@[simp] theorem modGrid_fresh (i : Nat) (h : Grid → Grid) : (modGrid s i h).fresh = s.fresh := rfl
@[simp] theorem modGrid_nextId (i : Nat) (h : Grid → Grid) : (modGrid s i h).nextId = s.nextId := rfl
@[simp] theorem modGrid_tick (i : Nat) (h : Grid → Grid) : (modGrid s i h).tick = s.tick := rfl
@[simp] theorem modGrid_mem (i : Nat) (h : Grid → Grid) : (modGrid s i h).mem = s.mem := rfl
@[simp] theorem modGrid_strong (i : Nat) (h : Grid → Grid) : (modGrid s i h).strong = s.strong := rfl
@[simp] theorem modGrid_upsets (i : Nat) (h : Grid → Grid) : (modGrid s i h).upsets = s.upsets := rfl
@[simp] theorem modGrid_poison (i : Nat) (h : Grid → Grid) : (modGrid s i h).poison = s.poison := rfl
@[simp] theorem modGrid_past (i : Nat) (h : Grid → Grid) : (modGrid s i h).past = s.past := rfl
@[simp] theorem modGrid_reads (i : Nat) (h : Grid → Grid) : (modGrid s i h).reads = s.reads := rfl
@[simp] theorem modGrid_stamp (i : Nat) (h : Grid → Grid) : (modGrid s i h).stamp = s.stamp := rfl
@[simp] theorem modGrid_knows (i : Nat) (h : Grid → Grid) : (modGrid s i h).knows = s.knows := rfl
@[simp] theorem modGrid_dies (i : Nat) (h : Grid → Grid) : (modGrid s i h).dies = s.dies := rfl
@[simp] theorem modGrid_stops (i : Nat) (h : Grid → Grid) : (modGrid s i h).stops = s.stops := rfl
@[simp] theorem modGrid_cellCache (i : Nat) (h : Grid → Grid) : (modGrid s i h).cellCache = s.cellCache := rfl
@[simp] theorem modGrid_pkts (i : Nat) (h : Grid → Grid) : (modGrid s i h).pkts = s.pkts := rfl
@[simp] theorem modGrid_cores (i : Nat) (h : Grid → Grid) : (modGrid s i h).cores = s.cores := rfl
@[simp] theorem modGrid_groups (i : Nat) (h : Grid → Grid) : (modGrid s i h).groups = s.groups := rfl
@[simp] theorem modGrid_ctxs (i : Nat) (h : Grid → Grid) : (modGrid s i h).ctxs = s.ctxs := rfl
@[simp] theorem modGrid_teams (i : Nat) (h : Grid → Grid) : (modGrid s i h).teams = s.teams := rfl
@[simp] theorem modGrid_grids (i : Nat) (h : Grid → Grid) : (modGrid s i h).grids = modBy Grid.id s.grids i h := rfl
@[simp] theorem modGrid_runs (i : Nat) (h : Grid → Grid) : (modGrid s i h).runs = s.runs := rfl
@[simp] theorem modGrid_parts (i : Nat) (h : Grid → Grid) : (modGrid s i h).parts = s.parts := rfl
@[simp] theorem modGrid_ops (i : Nat) (h : Grid → Grid) : (modGrid s i h).ops = s.ops := rfl
@[simp] theorem modGrid_pwrites (i : Nat) (h : Grid → Grid) : (modGrid s i h).pwrites = s.pwrites := rfl
@[simp] theorem modGrid_upds (i : Nat) (h : Grid → Grid) : (modGrid s i h).upds = s.upds := rfl
@[simp] theorem modGrid_reqs (i : Nat) (h : Grid → Grid) : (modGrid s i h).reqs = s.reqs := rfl
@[simp] theorem modGrid_mcmds (i : Nat) (h : Grid → Grid) : (modGrid s i h).mcmds = s.mcmds := rfl
@[simp] theorem modGrid_colls (i : Nat) (h : Grid → Grid) : (modGrid s i h).colls = s.colls := rfl
@[simp] theorem modGrid_fabOut (i : Nat) (h : Grid → Grid) : (modGrid s i h).fabOut = s.fabOut := rfl
@[simp] theorem modGrid_inb (i : Nat) (h : Grid → Grid) : (modGrid s i h).inb = s.inb := rfl
@[simp] theorem modGrid_cpls (i : Nat) (h : Grid → Grid) : (modGrid s i h).cpls = s.cpls := rfl
@[simp] theorem modGrid_hwrites (i : Nat) (h : Grid → Grid) : (modGrid s i h).hwrites = s.hwrites := rfl
@[simp] theorem modGrid_wbacks (i : Nat) (h : Grid → Grid) : (modGrid s i h).wbacks = s.wbacks := rfl
@[simp] theorem modGrid_links (i : Nat) (h : Grid → Grid) : (modGrid s i h).links = s.links := rfl
@[simp] theorem modGrid_heldMsix (i : Nat) (h : Grid → Grid) : (modGrid s i h).heldMsix = s.heldMsix := rfl
@[simp] theorem modGrid_msix (i : Nat) (h : Grid → Grid) : (modGrid s i h).msix = s.msix := rfl
@[simp] theorem modGrid_answ0 (i : Nat) (h : Grid → Grid) : (modGrid s i h).answ0 = s.answ0 := rfl
@[simp] theorem modGrid_answ1 (i : Nat) (h : Grid → Grid) : (modGrid s i h).answ1 = s.answ1 := rfl
@[simp] theorem modGrid_hreq0 (i : Nat) (h : Grid → Grid) : (modGrid s i h).hreq0 = s.hreq0 := rfl
@[simp] theorem modGrid_hreq1 (i : Nat) (h : Grid → Grid) : (modGrid s i h).hreq1 = s.hreq1 := rfl
@[simp] theorem modGrid_hres (i : Nat) (h : Grid → Grid) : (modGrid s i h).hres = s.hres := rfl
@[simp] theorem modGrid_hcmd (i : Nat) (h : Grid → Grid) : (modGrid s i h).hcmd = s.hcmd := rfl
@[simp] theorem modGrid_fcapWatts (i : Nat) (h : Grid → Grid) : (modGrid s i h).fcapWatts = s.fcapWatts := rfl
@[simp] theorem modGrid_fcapSeq (i : Nat) (h : Grid → Grid) : (modGrid s i h).fcapSeq = s.fcapSeq := rfl
@[simp] theorem modGrid_fcapActed (i : Nat) (h : Grid → Grid) : (modGrid s i h).fcapActed = s.fcapActed := rfl
@[simp] theorem modGrid_fcapBusy (i : Nat) (h : Grid → Grid) : (modGrid s i h).fcapBusy = s.fcapBusy := rfl
@[simp] theorem modGrid_sweep (i : Nat) (h : Grid → Grid) : (modGrid s i h).sweep = s.sweep := rfl
@[simp] theorem modGrid_interval (i : Nat) (h : Grid → Grid) : (modGrid s i h).interval = s.interval := rfl
@[simp] theorem modGrid_sqcnt (i : Nat) (h : Grid → Grid) : (modGrid s i h).sqcnt = s.sqcnt := rfl
@[simp] theorem modGrid_mindiff (i : Nat) (h : Grid → Grid) : (modGrid s i h).mindiff = s.mindiff := rfl
@[simp] theorem modGrid_vperiod (i : Nat) (h : Grid → Grid) : (modGrid s i h).vperiod = s.vperiod := rfl
@[simp] theorem modGrid_stackPower (i : Nat) (h : Grid → Grid) : (modGrid s i h).stackPower = s.stackPower := rfl
@[simp] theorem modGrid_veers (i : Nat) (h : Grid → Grid) : (modGrid s i h).veers = s.veers := rfl
@[simp] theorem modGrid_veerAt (i : Nat) (h : Grid → Grid) : (modGrid s i h).veerAt = s.veerAt := rfl
@[simp] theorem modGrid_restart (i : Nat) (h : Grid → Grid) : (modGrid s i h).restart = s.restart := rfl
@[simp] theorem modGrid_unsupported (i : Nat) (h : Grid → Grid) : (modGrid s i h).unsupported = s.unsupported := rfl
@[simp] theorem modGrid_cfgErrors (i : Nat) (h : Grid → Grid) : (modGrid s i h).cfgErrors = s.cfgErrors := rfl
@[simp] theorem modGrid_discarded (i : Nat) (h : Grid → Grid) : (modGrid s i h).discarded = s.discarded := rfl
@[simp] theorem modGrid_overcap (i : Nat) (h : Grid → Grid) : (modGrid s i h).overcap = s.overcap := rfl

/-! ### modRun -/
@[simp] theorem modRun_agenda (i : Nat) (h : Run → Run) : (modRun s i h).agenda = s.agenda := rfl
@[simp] theorem modRun_cur (i : Nat) (h : Run → Run) : (modRun s i h).cur = s.cur := rfl
@[simp] theorem modRun_turn (i : Nat) (h : Run → Run) : (modRun s i h).turn = s.turn := rfl
@[simp] theorem modRun_fresh (i : Nat) (h : Run → Run) : (modRun s i h).fresh = s.fresh := rfl
@[simp] theorem modRun_nextId (i : Nat) (h : Run → Run) : (modRun s i h).nextId = s.nextId := rfl
@[simp] theorem modRun_tick (i : Nat) (h : Run → Run) : (modRun s i h).tick = s.tick := rfl
@[simp] theorem modRun_mem (i : Nat) (h : Run → Run) : (modRun s i h).mem = s.mem := rfl
@[simp] theorem modRun_strong (i : Nat) (h : Run → Run) : (modRun s i h).strong = s.strong := rfl
@[simp] theorem modRun_upsets (i : Nat) (h : Run → Run) : (modRun s i h).upsets = s.upsets := rfl
@[simp] theorem modRun_poison (i : Nat) (h : Run → Run) : (modRun s i h).poison = s.poison := rfl
@[simp] theorem modRun_past (i : Nat) (h : Run → Run) : (modRun s i h).past = s.past := rfl
@[simp] theorem modRun_reads (i : Nat) (h : Run → Run) : (modRun s i h).reads = s.reads := rfl
@[simp] theorem modRun_stamp (i : Nat) (h : Run → Run) : (modRun s i h).stamp = s.stamp := rfl
@[simp] theorem modRun_knows (i : Nat) (h : Run → Run) : (modRun s i h).knows = s.knows := rfl
@[simp] theorem modRun_dies (i : Nat) (h : Run → Run) : (modRun s i h).dies = s.dies := rfl
@[simp] theorem modRun_stops (i : Nat) (h : Run → Run) : (modRun s i h).stops = s.stops := rfl
@[simp] theorem modRun_cellCache (i : Nat) (h : Run → Run) : (modRun s i h).cellCache = s.cellCache := rfl
@[simp] theorem modRun_pkts (i : Nat) (h : Run → Run) : (modRun s i h).pkts = s.pkts := rfl
@[simp] theorem modRun_cores (i : Nat) (h : Run → Run) : (modRun s i h).cores = s.cores := rfl
@[simp] theorem modRun_groups (i : Nat) (h : Run → Run) : (modRun s i h).groups = s.groups := rfl
@[simp] theorem modRun_ctxs (i : Nat) (h : Run → Run) : (modRun s i h).ctxs = s.ctxs := rfl
@[simp] theorem modRun_teams (i : Nat) (h : Run → Run) : (modRun s i h).teams = s.teams := rfl
@[simp] theorem modRun_grids (i : Nat) (h : Run → Run) : (modRun s i h).grids = s.grids := rfl
@[simp] theorem modRun_runs (i : Nat) (h : Run → Run) : (modRun s i h).runs = modBy Run.id s.runs i h := rfl
@[simp] theorem modRun_parts (i : Nat) (h : Run → Run) : (modRun s i h).parts = s.parts := rfl
@[simp] theorem modRun_ops (i : Nat) (h : Run → Run) : (modRun s i h).ops = s.ops := rfl
@[simp] theorem modRun_pwrites (i : Nat) (h : Run → Run) : (modRun s i h).pwrites = s.pwrites := rfl
@[simp] theorem modRun_upds (i : Nat) (h : Run → Run) : (modRun s i h).upds = s.upds := rfl
@[simp] theorem modRun_reqs (i : Nat) (h : Run → Run) : (modRun s i h).reqs = s.reqs := rfl
@[simp] theorem modRun_mcmds (i : Nat) (h : Run → Run) : (modRun s i h).mcmds = s.mcmds := rfl
@[simp] theorem modRun_colls (i : Nat) (h : Run → Run) : (modRun s i h).colls = s.colls := rfl
@[simp] theorem modRun_fabOut (i : Nat) (h : Run → Run) : (modRun s i h).fabOut = s.fabOut := rfl
@[simp] theorem modRun_inb (i : Nat) (h : Run → Run) : (modRun s i h).inb = s.inb := rfl
@[simp] theorem modRun_cpls (i : Nat) (h : Run → Run) : (modRun s i h).cpls = s.cpls := rfl
@[simp] theorem modRun_hwrites (i : Nat) (h : Run → Run) : (modRun s i h).hwrites = s.hwrites := rfl
@[simp] theorem modRun_wbacks (i : Nat) (h : Run → Run) : (modRun s i h).wbacks = s.wbacks := rfl
@[simp] theorem modRun_links (i : Nat) (h : Run → Run) : (modRun s i h).links = s.links := rfl
@[simp] theorem modRun_heldMsix (i : Nat) (h : Run → Run) : (modRun s i h).heldMsix = s.heldMsix := rfl
@[simp] theorem modRun_msix (i : Nat) (h : Run → Run) : (modRun s i h).msix = s.msix := rfl
@[simp] theorem modRun_answ0 (i : Nat) (h : Run → Run) : (modRun s i h).answ0 = s.answ0 := rfl
@[simp] theorem modRun_answ1 (i : Nat) (h : Run → Run) : (modRun s i h).answ1 = s.answ1 := rfl
@[simp] theorem modRun_hreq0 (i : Nat) (h : Run → Run) : (modRun s i h).hreq0 = s.hreq0 := rfl
@[simp] theorem modRun_hreq1 (i : Nat) (h : Run → Run) : (modRun s i h).hreq1 = s.hreq1 := rfl
@[simp] theorem modRun_hres (i : Nat) (h : Run → Run) : (modRun s i h).hres = s.hres := rfl
@[simp] theorem modRun_hcmd (i : Nat) (h : Run → Run) : (modRun s i h).hcmd = s.hcmd := rfl
@[simp] theorem modRun_fcapWatts (i : Nat) (h : Run → Run) : (modRun s i h).fcapWatts = s.fcapWatts := rfl
@[simp] theorem modRun_fcapSeq (i : Nat) (h : Run → Run) : (modRun s i h).fcapSeq = s.fcapSeq := rfl
@[simp] theorem modRun_fcapActed (i : Nat) (h : Run → Run) : (modRun s i h).fcapActed = s.fcapActed := rfl
@[simp] theorem modRun_fcapBusy (i : Nat) (h : Run → Run) : (modRun s i h).fcapBusy = s.fcapBusy := rfl
@[simp] theorem modRun_sweep (i : Nat) (h : Run → Run) : (modRun s i h).sweep = s.sweep := rfl
@[simp] theorem modRun_interval (i : Nat) (h : Run → Run) : (modRun s i h).interval = s.interval := rfl
@[simp] theorem modRun_sqcnt (i : Nat) (h : Run → Run) : (modRun s i h).sqcnt = s.sqcnt := rfl
@[simp] theorem modRun_mindiff (i : Nat) (h : Run → Run) : (modRun s i h).mindiff = s.mindiff := rfl
@[simp] theorem modRun_vperiod (i : Nat) (h : Run → Run) : (modRun s i h).vperiod = s.vperiod := rfl
@[simp] theorem modRun_stackPower (i : Nat) (h : Run → Run) : (modRun s i h).stackPower = s.stackPower := rfl
@[simp] theorem modRun_veers (i : Nat) (h : Run → Run) : (modRun s i h).veers = s.veers := rfl
@[simp] theorem modRun_veerAt (i : Nat) (h : Run → Run) : (modRun s i h).veerAt = s.veerAt := rfl
@[simp] theorem modRun_restart (i : Nat) (h : Run → Run) : (modRun s i h).restart = s.restart := rfl
@[simp] theorem modRun_unsupported (i : Nat) (h : Run → Run) : (modRun s i h).unsupported = s.unsupported := rfl
@[simp] theorem modRun_cfgErrors (i : Nat) (h : Run → Run) : (modRun s i h).cfgErrors = s.cfgErrors := rfl
@[simp] theorem modRun_discarded (i : Nat) (h : Run → Run) : (modRun s i h).discarded = s.discarded := rfl
@[simp] theorem modRun_overcap (i : Nat) (h : Run → Run) : (modRun s i h).overcap = s.overcap := rfl

/-! ### modP -/
@[simp] theorem modP_agenda (i : Nat) (h : Part → Part) : (modP s i h).agenda = s.agenda := rfl
@[simp] theorem modP_cur (i : Nat) (h : Part → Part) : (modP s i h).cur = s.cur := rfl
@[simp] theorem modP_turn (i : Nat) (h : Part → Part) : (modP s i h).turn = s.turn := rfl
@[simp] theorem modP_fresh (i : Nat) (h : Part → Part) : (modP s i h).fresh = s.fresh := rfl
@[simp] theorem modP_nextId (i : Nat) (h : Part → Part) : (modP s i h).nextId = s.nextId := rfl
@[simp] theorem modP_tick (i : Nat) (h : Part → Part) : (modP s i h).tick = s.tick := rfl
@[simp] theorem modP_mem (i : Nat) (h : Part → Part) : (modP s i h).mem = s.mem := rfl
@[simp] theorem modP_strong (i : Nat) (h : Part → Part) : (modP s i h).strong = s.strong := rfl
@[simp] theorem modP_upsets (i : Nat) (h : Part → Part) : (modP s i h).upsets = s.upsets := rfl
@[simp] theorem modP_poison (i : Nat) (h : Part → Part) : (modP s i h).poison = s.poison := rfl
@[simp] theorem modP_past (i : Nat) (h : Part → Part) : (modP s i h).past = s.past := rfl
@[simp] theorem modP_reads (i : Nat) (h : Part → Part) : (modP s i h).reads = s.reads := rfl
@[simp] theorem modP_stamp (i : Nat) (h : Part → Part) : (modP s i h).stamp = s.stamp := rfl
@[simp] theorem modP_knows (i : Nat) (h : Part → Part) : (modP s i h).knows = s.knows := rfl
@[simp] theorem modP_dies (i : Nat) (h : Part → Part) : (modP s i h).dies = s.dies := rfl
@[simp] theorem modP_stops (i : Nat) (h : Part → Part) : (modP s i h).stops = s.stops := rfl
@[simp] theorem modP_cellCache (i : Nat) (h : Part → Part) : (modP s i h).cellCache = s.cellCache := rfl
@[simp] theorem modP_pkts (i : Nat) (h : Part → Part) : (modP s i h).pkts = s.pkts := rfl
@[simp] theorem modP_cores (i : Nat) (h : Part → Part) : (modP s i h).cores = s.cores := rfl
@[simp] theorem modP_groups (i : Nat) (h : Part → Part) : (modP s i h).groups = s.groups := rfl
@[simp] theorem modP_ctxs (i : Nat) (h : Part → Part) : (modP s i h).ctxs = s.ctxs := rfl
@[simp] theorem modP_teams (i : Nat) (h : Part → Part) : (modP s i h).teams = s.teams := rfl
@[simp] theorem modP_grids (i : Nat) (h : Part → Part) : (modP s i h).grids = s.grids := rfl
@[simp] theorem modP_runs (i : Nat) (h : Part → Part) : (modP s i h).runs = s.runs := rfl
@[simp] theorem modP_parts (i : Nat) (h : Part → Part) : (modP s i h).parts = s.parts.modify i h := rfl
@[simp] theorem modP_ops (i : Nat) (h : Part → Part) : (modP s i h).ops = s.ops := rfl
@[simp] theorem modP_pwrites (i : Nat) (h : Part → Part) : (modP s i h).pwrites = s.pwrites := rfl
@[simp] theorem modP_upds (i : Nat) (h : Part → Part) : (modP s i h).upds = s.upds := rfl
@[simp] theorem modP_reqs (i : Nat) (h : Part → Part) : (modP s i h).reqs = s.reqs := rfl
@[simp] theorem modP_mcmds (i : Nat) (h : Part → Part) : (modP s i h).mcmds = s.mcmds := rfl
@[simp] theorem modP_colls (i : Nat) (h : Part → Part) : (modP s i h).colls = s.colls := rfl
@[simp] theorem modP_fabOut (i : Nat) (h : Part → Part) : (modP s i h).fabOut = s.fabOut := rfl
@[simp] theorem modP_inb (i : Nat) (h : Part → Part) : (modP s i h).inb = s.inb := rfl
@[simp] theorem modP_cpls (i : Nat) (h : Part → Part) : (modP s i h).cpls = s.cpls := rfl
@[simp] theorem modP_hwrites (i : Nat) (h : Part → Part) : (modP s i h).hwrites = s.hwrites := rfl
@[simp] theorem modP_wbacks (i : Nat) (h : Part → Part) : (modP s i h).wbacks = s.wbacks := rfl
@[simp] theorem modP_links (i : Nat) (h : Part → Part) : (modP s i h).links = s.links := rfl
@[simp] theorem modP_heldMsix (i : Nat) (h : Part → Part) : (modP s i h).heldMsix = s.heldMsix := rfl
@[simp] theorem modP_msix (i : Nat) (h : Part → Part) : (modP s i h).msix = s.msix := rfl
@[simp] theorem modP_answ0 (i : Nat) (h : Part → Part) : (modP s i h).answ0 = s.answ0 := rfl
@[simp] theorem modP_answ1 (i : Nat) (h : Part → Part) : (modP s i h).answ1 = s.answ1 := rfl
@[simp] theorem modP_hreq0 (i : Nat) (h : Part → Part) : (modP s i h).hreq0 = s.hreq0 := rfl
@[simp] theorem modP_hreq1 (i : Nat) (h : Part → Part) : (modP s i h).hreq1 = s.hreq1 := rfl
@[simp] theorem modP_hres (i : Nat) (h : Part → Part) : (modP s i h).hres = s.hres := rfl
@[simp] theorem modP_hcmd (i : Nat) (h : Part → Part) : (modP s i h).hcmd = s.hcmd := rfl
@[simp] theorem modP_fcapWatts (i : Nat) (h : Part → Part) : (modP s i h).fcapWatts = s.fcapWatts := rfl
@[simp] theorem modP_fcapSeq (i : Nat) (h : Part → Part) : (modP s i h).fcapSeq = s.fcapSeq := rfl
@[simp] theorem modP_fcapActed (i : Nat) (h : Part → Part) : (modP s i h).fcapActed = s.fcapActed := rfl
@[simp] theorem modP_fcapBusy (i : Nat) (h : Part → Part) : (modP s i h).fcapBusy = s.fcapBusy := rfl
@[simp] theorem modP_sweep (i : Nat) (h : Part → Part) : (modP s i h).sweep = s.sweep := rfl
@[simp] theorem modP_interval (i : Nat) (h : Part → Part) : (modP s i h).interval = s.interval := rfl
@[simp] theorem modP_sqcnt (i : Nat) (h : Part → Part) : (modP s i h).sqcnt = s.sqcnt := rfl
@[simp] theorem modP_mindiff (i : Nat) (h : Part → Part) : (modP s i h).mindiff = s.mindiff := rfl
@[simp] theorem modP_vperiod (i : Nat) (h : Part → Part) : (modP s i h).vperiod = s.vperiod := rfl
@[simp] theorem modP_stackPower (i : Nat) (h : Part → Part) : (modP s i h).stackPower = s.stackPower := rfl
@[simp] theorem modP_veers (i : Nat) (h : Part → Part) : (modP s i h).veers = s.veers := rfl
@[simp] theorem modP_veerAt (i : Nat) (h : Part → Part) : (modP s i h).veerAt = s.veerAt := rfl
@[simp] theorem modP_restart (i : Nat) (h : Part → Part) : (modP s i h).restart = s.restart := rfl
@[simp] theorem modP_unsupported (i : Nat) (h : Part → Part) : (modP s i h).unsupported = s.unsupported := rfl
@[simp] theorem modP_cfgErrors (i : Nat) (h : Part → Part) : (modP s i h).cfgErrors = s.cfgErrors := rfl
@[simp] theorem modP_discarded (i : Nat) (h : Part → Part) : (modP s i h).discarded = s.discarded := rfl
@[simp] theorem modP_overcap (i : Nat) (h : Part → Part) : (modP s i h).overcap = s.overcap := rfl

/-! ### modCore -/
@[simp] theorem modCore_agenda (i : Nat) (h : Core → Core) : (modCore s i h).agenda = s.agenda := rfl
@[simp] theorem modCore_cur (i : Nat) (h : Core → Core) : (modCore s i h).cur = s.cur := rfl
@[simp] theorem modCore_turn (i : Nat) (h : Core → Core) : (modCore s i h).turn = s.turn := rfl
@[simp] theorem modCore_fresh (i : Nat) (h : Core → Core) : (modCore s i h).fresh = s.fresh := rfl
@[simp] theorem modCore_nextId (i : Nat) (h : Core → Core) : (modCore s i h).nextId = s.nextId := rfl
@[simp] theorem modCore_tick (i : Nat) (h : Core → Core) : (modCore s i h).tick = s.tick := rfl
@[simp] theorem modCore_mem (i : Nat) (h : Core → Core) : (modCore s i h).mem = s.mem := rfl
@[simp] theorem modCore_strong (i : Nat) (h : Core → Core) : (modCore s i h).strong = s.strong := rfl
@[simp] theorem modCore_upsets (i : Nat) (h : Core → Core) : (modCore s i h).upsets = s.upsets := rfl
@[simp] theorem modCore_poison (i : Nat) (h : Core → Core) : (modCore s i h).poison = s.poison := rfl
@[simp] theorem modCore_past (i : Nat) (h : Core → Core) : (modCore s i h).past = s.past := rfl
@[simp] theorem modCore_reads (i : Nat) (h : Core → Core) : (modCore s i h).reads = s.reads := rfl
@[simp] theorem modCore_stamp (i : Nat) (h : Core → Core) : (modCore s i h).stamp = s.stamp := rfl
@[simp] theorem modCore_knows (i : Nat) (h : Core → Core) : (modCore s i h).knows = s.knows := rfl
@[simp] theorem modCore_dies (i : Nat) (h : Core → Core) : (modCore s i h).dies = s.dies := rfl
@[simp] theorem modCore_stops (i : Nat) (h : Core → Core) : (modCore s i h).stops = s.stops := rfl
@[simp] theorem modCore_cellCache (i : Nat) (h : Core → Core) : (modCore s i h).cellCache = s.cellCache := rfl
@[simp] theorem modCore_pkts (i : Nat) (h : Core → Core) : (modCore s i h).pkts = s.pkts := rfl
@[simp] theorem modCore_cores (i : Nat) (h : Core → Core) : (modCore s i h).cores = s.cores.modify i h := rfl
@[simp] theorem modCore_groups (i : Nat) (h : Core → Core) : (modCore s i h).groups = s.groups := rfl
@[simp] theorem modCore_ctxs (i : Nat) (h : Core → Core) : (modCore s i h).ctxs = s.ctxs := rfl
@[simp] theorem modCore_teams (i : Nat) (h : Core → Core) : (modCore s i h).teams = s.teams := rfl
@[simp] theorem modCore_grids (i : Nat) (h : Core → Core) : (modCore s i h).grids = s.grids := rfl
@[simp] theorem modCore_runs (i : Nat) (h : Core → Core) : (modCore s i h).runs = s.runs := rfl
@[simp] theorem modCore_parts (i : Nat) (h : Core → Core) : (modCore s i h).parts = s.parts := rfl
@[simp] theorem modCore_ops (i : Nat) (h : Core → Core) : (modCore s i h).ops = s.ops := rfl
@[simp] theorem modCore_pwrites (i : Nat) (h : Core → Core) : (modCore s i h).pwrites = s.pwrites := rfl
@[simp] theorem modCore_upds (i : Nat) (h : Core → Core) : (modCore s i h).upds = s.upds := rfl
@[simp] theorem modCore_reqs (i : Nat) (h : Core → Core) : (modCore s i h).reqs = s.reqs := rfl
@[simp] theorem modCore_mcmds (i : Nat) (h : Core → Core) : (modCore s i h).mcmds = s.mcmds := rfl
@[simp] theorem modCore_colls (i : Nat) (h : Core → Core) : (modCore s i h).colls = s.colls := rfl
@[simp] theorem modCore_fabOut (i : Nat) (h : Core → Core) : (modCore s i h).fabOut = s.fabOut := rfl
@[simp] theorem modCore_inb (i : Nat) (h : Core → Core) : (modCore s i h).inb = s.inb := rfl
@[simp] theorem modCore_cpls (i : Nat) (h : Core → Core) : (modCore s i h).cpls = s.cpls := rfl
@[simp] theorem modCore_hwrites (i : Nat) (h : Core → Core) : (modCore s i h).hwrites = s.hwrites := rfl
@[simp] theorem modCore_wbacks (i : Nat) (h : Core → Core) : (modCore s i h).wbacks = s.wbacks := rfl
@[simp] theorem modCore_links (i : Nat) (h : Core → Core) : (modCore s i h).links = s.links := rfl
@[simp] theorem modCore_heldMsix (i : Nat) (h : Core → Core) : (modCore s i h).heldMsix = s.heldMsix := rfl
@[simp] theorem modCore_msix (i : Nat) (h : Core → Core) : (modCore s i h).msix = s.msix := rfl
@[simp] theorem modCore_answ0 (i : Nat) (h : Core → Core) : (modCore s i h).answ0 = s.answ0 := rfl
@[simp] theorem modCore_answ1 (i : Nat) (h : Core → Core) : (modCore s i h).answ1 = s.answ1 := rfl
@[simp] theorem modCore_hreq0 (i : Nat) (h : Core → Core) : (modCore s i h).hreq0 = s.hreq0 := rfl
@[simp] theorem modCore_hreq1 (i : Nat) (h : Core → Core) : (modCore s i h).hreq1 = s.hreq1 := rfl
@[simp] theorem modCore_hres (i : Nat) (h : Core → Core) : (modCore s i h).hres = s.hres := rfl
@[simp] theorem modCore_hcmd (i : Nat) (h : Core → Core) : (modCore s i h).hcmd = s.hcmd := rfl
@[simp] theorem modCore_fcapWatts (i : Nat) (h : Core → Core) : (modCore s i h).fcapWatts = s.fcapWatts := rfl
@[simp] theorem modCore_fcapSeq (i : Nat) (h : Core → Core) : (modCore s i h).fcapSeq = s.fcapSeq := rfl
@[simp] theorem modCore_fcapActed (i : Nat) (h : Core → Core) : (modCore s i h).fcapActed = s.fcapActed := rfl
@[simp] theorem modCore_fcapBusy (i : Nat) (h : Core → Core) : (modCore s i h).fcapBusy = s.fcapBusy := rfl
@[simp] theorem modCore_sweep (i : Nat) (h : Core → Core) : (modCore s i h).sweep = s.sweep := rfl
@[simp] theorem modCore_interval (i : Nat) (h : Core → Core) : (modCore s i h).interval = s.interval := rfl
@[simp] theorem modCore_sqcnt (i : Nat) (h : Core → Core) : (modCore s i h).sqcnt = s.sqcnt := rfl
@[simp] theorem modCore_mindiff (i : Nat) (h : Core → Core) : (modCore s i h).mindiff = s.mindiff := rfl
@[simp] theorem modCore_vperiod (i : Nat) (h : Core → Core) : (modCore s i h).vperiod = s.vperiod := rfl
@[simp] theorem modCore_stackPower (i : Nat) (h : Core → Core) : (modCore s i h).stackPower = s.stackPower := rfl
@[simp] theorem modCore_veers (i : Nat) (h : Core → Core) : (modCore s i h).veers = s.veers := rfl
@[simp] theorem modCore_veerAt (i : Nat) (h : Core → Core) : (modCore s i h).veerAt = s.veerAt := rfl
@[simp] theorem modCore_restart (i : Nat) (h : Core → Core) : (modCore s i h).restart = s.restart := rfl
@[simp] theorem modCore_unsupported (i : Nat) (h : Core → Core) : (modCore s i h).unsupported = s.unsupported := rfl
@[simp] theorem modCore_cfgErrors (i : Nat) (h : Core → Core) : (modCore s i h).cfgErrors = s.cfgErrors := rfl
@[simp] theorem modCore_discarded (i : Nat) (h : Core → Core) : (modCore s i h).discarded = s.discarded := rfl
@[simp] theorem modCore_overcap (i : Nat) (h : Core → Core) : (modCore s i h).overcap = s.overcap := rfl

/-! ### modOp -/
@[simp] theorem modOp_agenda (i : Nat) (h : Op → Op) : (modOp s i h).agenda = s.agenda := rfl
@[simp] theorem modOp_cur (i : Nat) (h : Op → Op) : (modOp s i h).cur = s.cur := rfl
@[simp] theorem modOp_turn (i : Nat) (h : Op → Op) : (modOp s i h).turn = s.turn := rfl
@[simp] theorem modOp_fresh (i : Nat) (h : Op → Op) : (modOp s i h).fresh = s.fresh := rfl
@[simp] theorem modOp_nextId (i : Nat) (h : Op → Op) : (modOp s i h).nextId = s.nextId := rfl
@[simp] theorem modOp_tick (i : Nat) (h : Op → Op) : (modOp s i h).tick = s.tick := rfl
@[simp] theorem modOp_mem (i : Nat) (h : Op → Op) : (modOp s i h).mem = s.mem := rfl
@[simp] theorem modOp_strong (i : Nat) (h : Op → Op) : (modOp s i h).strong = s.strong := rfl
@[simp] theorem modOp_upsets (i : Nat) (h : Op → Op) : (modOp s i h).upsets = s.upsets := rfl
@[simp] theorem modOp_poison (i : Nat) (h : Op → Op) : (modOp s i h).poison = s.poison := rfl
@[simp] theorem modOp_past (i : Nat) (h : Op → Op) : (modOp s i h).past = s.past := rfl
@[simp] theorem modOp_reads (i : Nat) (h : Op → Op) : (modOp s i h).reads = s.reads := rfl
@[simp] theorem modOp_stamp (i : Nat) (h : Op → Op) : (modOp s i h).stamp = s.stamp := rfl
@[simp] theorem modOp_knows (i : Nat) (h : Op → Op) : (modOp s i h).knows = s.knows := rfl
@[simp] theorem modOp_dies (i : Nat) (h : Op → Op) : (modOp s i h).dies = s.dies := rfl
@[simp] theorem modOp_stops (i : Nat) (h : Op → Op) : (modOp s i h).stops = s.stops := rfl
@[simp] theorem modOp_cellCache (i : Nat) (h : Op → Op) : (modOp s i h).cellCache = s.cellCache := rfl
@[simp] theorem modOp_pkts (i : Nat) (h : Op → Op) : (modOp s i h).pkts = s.pkts := rfl
@[simp] theorem modOp_cores (i : Nat) (h : Op → Op) : (modOp s i h).cores = s.cores := rfl
@[simp] theorem modOp_groups (i : Nat) (h : Op → Op) : (modOp s i h).groups = s.groups := rfl
@[simp] theorem modOp_ctxs (i : Nat) (h : Op → Op) : (modOp s i h).ctxs = s.ctxs := rfl
@[simp] theorem modOp_teams (i : Nat) (h : Op → Op) : (modOp s i h).teams = s.teams := rfl
@[simp] theorem modOp_grids (i : Nat) (h : Op → Op) : (modOp s i h).grids = s.grids := rfl
@[simp] theorem modOp_runs (i : Nat) (h : Op → Op) : (modOp s i h).runs = s.runs := rfl
@[simp] theorem modOp_parts (i : Nat) (h : Op → Op) : (modOp s i h).parts = s.parts := rfl
@[simp] theorem modOp_ops (i : Nat) (h : Op → Op) : (modOp s i h).ops = modBy Op.id s.ops i h := rfl
@[simp] theorem modOp_pwrites (i : Nat) (h : Op → Op) : (modOp s i h).pwrites = s.pwrites := rfl
@[simp] theorem modOp_upds (i : Nat) (h : Op → Op) : (modOp s i h).upds = s.upds := rfl
@[simp] theorem modOp_reqs (i : Nat) (h : Op → Op) : (modOp s i h).reqs = s.reqs := rfl
@[simp] theorem modOp_mcmds (i : Nat) (h : Op → Op) : (modOp s i h).mcmds = s.mcmds := rfl
@[simp] theorem modOp_colls (i : Nat) (h : Op → Op) : (modOp s i h).colls = s.colls := rfl
@[simp] theorem modOp_fabOut (i : Nat) (h : Op → Op) : (modOp s i h).fabOut = s.fabOut := rfl
@[simp] theorem modOp_inb (i : Nat) (h : Op → Op) : (modOp s i h).inb = s.inb := rfl
@[simp] theorem modOp_cpls (i : Nat) (h : Op → Op) : (modOp s i h).cpls = s.cpls := rfl
@[simp] theorem modOp_hwrites (i : Nat) (h : Op → Op) : (modOp s i h).hwrites = s.hwrites := rfl
@[simp] theorem modOp_wbacks (i : Nat) (h : Op → Op) : (modOp s i h).wbacks = s.wbacks := rfl
@[simp] theorem modOp_links (i : Nat) (h : Op → Op) : (modOp s i h).links = s.links := rfl
@[simp] theorem modOp_heldMsix (i : Nat) (h : Op → Op) : (modOp s i h).heldMsix = s.heldMsix := rfl
@[simp] theorem modOp_msix (i : Nat) (h : Op → Op) : (modOp s i h).msix = s.msix := rfl
@[simp] theorem modOp_answ0 (i : Nat) (h : Op → Op) : (modOp s i h).answ0 = s.answ0 := rfl
@[simp] theorem modOp_answ1 (i : Nat) (h : Op → Op) : (modOp s i h).answ1 = s.answ1 := rfl
@[simp] theorem modOp_hreq0 (i : Nat) (h : Op → Op) : (modOp s i h).hreq0 = s.hreq0 := rfl
@[simp] theorem modOp_hreq1 (i : Nat) (h : Op → Op) : (modOp s i h).hreq1 = s.hreq1 := rfl
@[simp] theorem modOp_hres (i : Nat) (h : Op → Op) : (modOp s i h).hres = s.hres := rfl
@[simp] theorem modOp_hcmd (i : Nat) (h : Op → Op) : (modOp s i h).hcmd = s.hcmd := rfl
@[simp] theorem modOp_fcapWatts (i : Nat) (h : Op → Op) : (modOp s i h).fcapWatts = s.fcapWatts := rfl
@[simp] theorem modOp_fcapSeq (i : Nat) (h : Op → Op) : (modOp s i h).fcapSeq = s.fcapSeq := rfl
@[simp] theorem modOp_fcapActed (i : Nat) (h : Op → Op) : (modOp s i h).fcapActed = s.fcapActed := rfl
@[simp] theorem modOp_fcapBusy (i : Nat) (h : Op → Op) : (modOp s i h).fcapBusy = s.fcapBusy := rfl
@[simp] theorem modOp_sweep (i : Nat) (h : Op → Op) : (modOp s i h).sweep = s.sweep := rfl
@[simp] theorem modOp_interval (i : Nat) (h : Op → Op) : (modOp s i h).interval = s.interval := rfl
@[simp] theorem modOp_sqcnt (i : Nat) (h : Op → Op) : (modOp s i h).sqcnt = s.sqcnt := rfl
@[simp] theorem modOp_mindiff (i : Nat) (h : Op → Op) : (modOp s i h).mindiff = s.mindiff := rfl
@[simp] theorem modOp_vperiod (i : Nat) (h : Op → Op) : (modOp s i h).vperiod = s.vperiod := rfl
@[simp] theorem modOp_stackPower (i : Nat) (h : Op → Op) : (modOp s i h).stackPower = s.stackPower := rfl
@[simp] theorem modOp_veers (i : Nat) (h : Op → Op) : (modOp s i h).veers = s.veers := rfl
@[simp] theorem modOp_veerAt (i : Nat) (h : Op → Op) : (modOp s i h).veerAt = s.veerAt := rfl
@[simp] theorem modOp_restart (i : Nat) (h : Op → Op) : (modOp s i h).restart = s.restart := rfl
@[simp] theorem modOp_unsupported (i : Nat) (h : Op → Op) : (modOp s i h).unsupported = s.unsupported := rfl
@[simp] theorem modOp_cfgErrors (i : Nat) (h : Op → Op) : (modOp s i h).cfgErrors = s.cfgErrors := rfl
@[simp] theorem modOp_discarded (i : Nat) (h : Op → Op) : (modOp s i h).discarded = s.discarded := rfl
@[simp] theorem modOp_overcap (i : Nat) (h : Op → Op) : (modOp s i h).overcap = s.overcap := rfl

/-! ### delOp -/
@[simp] theorem delOp_agenda (i : Nat) : (delOp s i).agenda = s.agenda := rfl
@[simp] theorem delOp_cur (i : Nat) : (delOp s i).cur = s.cur := rfl
@[simp] theorem delOp_turn (i : Nat) : (delOp s i).turn = s.turn := rfl
@[simp] theorem delOp_fresh (i : Nat) : (delOp s i).fresh = s.fresh := rfl
@[simp] theorem delOp_nextId (i : Nat) : (delOp s i).nextId = s.nextId := rfl
@[simp] theorem delOp_tick (i : Nat) : (delOp s i).tick = s.tick := rfl
@[simp] theorem delOp_mem (i : Nat) : (delOp s i).mem = s.mem := rfl
@[simp] theorem delOp_strong (i : Nat) : (delOp s i).strong = s.strong := rfl
@[simp] theorem delOp_upsets (i : Nat) : (delOp s i).upsets = s.upsets := rfl
@[simp] theorem delOp_poison (i : Nat) : (delOp s i).poison = s.poison := rfl
@[simp] theorem delOp_past (i : Nat) : (delOp s i).past = s.past := rfl
@[simp] theorem delOp_reads (i : Nat) : (delOp s i).reads = s.reads := rfl
@[simp] theorem delOp_stamp (i : Nat) : (delOp s i).stamp = s.stamp := rfl
@[simp] theorem delOp_knows (i : Nat) : (delOp s i).knows = s.knows := rfl
@[simp] theorem delOp_dies (i : Nat) : (delOp s i).dies = s.dies := rfl
@[simp] theorem delOp_stops (i : Nat) : (delOp s i).stops = s.stops := rfl
@[simp] theorem delOp_cellCache (i : Nat) : (delOp s i).cellCache = s.cellCache := rfl
@[simp] theorem delOp_pkts (i : Nat) : (delOp s i).pkts = s.pkts := rfl
@[simp] theorem delOp_cores (i : Nat) : (delOp s i).cores = s.cores := rfl
@[simp] theorem delOp_groups (i : Nat) : (delOp s i).groups = s.groups := rfl
@[simp] theorem delOp_ctxs (i : Nat) : (delOp s i).ctxs = s.ctxs := rfl
@[simp] theorem delOp_teams (i : Nat) : (delOp s i).teams = s.teams := rfl
@[simp] theorem delOp_grids (i : Nat) : (delOp s i).grids = s.grids := rfl
@[simp] theorem delOp_runs (i : Nat) : (delOp s i).runs = s.runs := rfl
@[simp] theorem delOp_parts (i : Nat) : (delOp s i).parts = s.parts := rfl
@[simp] theorem delOp_ops (i : Nat) : (delOp s i).ops = s.ops.filter (fun o => o.id != i) := rfl
@[simp] theorem delOp_pwrites (i : Nat) : (delOp s i).pwrites = s.pwrites := rfl
@[simp] theorem delOp_upds (i : Nat) : (delOp s i).upds = s.upds := rfl
@[simp] theorem delOp_reqs (i : Nat) : (delOp s i).reqs = s.reqs := rfl
@[simp] theorem delOp_mcmds (i : Nat) : (delOp s i).mcmds = s.mcmds := rfl
@[simp] theorem delOp_colls (i : Nat) : (delOp s i).colls = s.colls := rfl
@[simp] theorem delOp_fabOut (i : Nat) : (delOp s i).fabOut = s.fabOut := rfl
@[simp] theorem delOp_inb (i : Nat) : (delOp s i).inb = s.inb := rfl
@[simp] theorem delOp_cpls (i : Nat) : (delOp s i).cpls = s.cpls := rfl
@[simp] theorem delOp_hwrites (i : Nat) : (delOp s i).hwrites = s.hwrites := rfl
@[simp] theorem delOp_wbacks (i : Nat) : (delOp s i).wbacks = s.wbacks := rfl
@[simp] theorem delOp_links (i : Nat) : (delOp s i).links = s.links := rfl
@[simp] theorem delOp_heldMsix (i : Nat) : (delOp s i).heldMsix = s.heldMsix := rfl
@[simp] theorem delOp_msix (i : Nat) : (delOp s i).msix = s.msix := rfl
@[simp] theorem delOp_answ0 (i : Nat) : (delOp s i).answ0 = s.answ0 := rfl
@[simp] theorem delOp_answ1 (i : Nat) : (delOp s i).answ1 = s.answ1 := rfl
@[simp] theorem delOp_hreq0 (i : Nat) : (delOp s i).hreq0 = s.hreq0 := rfl
@[simp] theorem delOp_hreq1 (i : Nat) : (delOp s i).hreq1 = s.hreq1 := rfl
@[simp] theorem delOp_hres (i : Nat) : (delOp s i).hres = s.hres := rfl
@[simp] theorem delOp_hcmd (i : Nat) : (delOp s i).hcmd = s.hcmd := rfl
@[simp] theorem delOp_fcapWatts (i : Nat) : (delOp s i).fcapWatts = s.fcapWatts := rfl
@[simp] theorem delOp_fcapSeq (i : Nat) : (delOp s i).fcapSeq = s.fcapSeq := rfl
@[simp] theorem delOp_fcapActed (i : Nat) : (delOp s i).fcapActed = s.fcapActed := rfl
@[simp] theorem delOp_fcapBusy (i : Nat) : (delOp s i).fcapBusy = s.fcapBusy := rfl
@[simp] theorem delOp_sweep (i : Nat) : (delOp s i).sweep = s.sweep := rfl
@[simp] theorem delOp_interval (i : Nat) : (delOp s i).interval = s.interval := rfl
@[simp] theorem delOp_sqcnt (i : Nat) : (delOp s i).sqcnt = s.sqcnt := rfl
@[simp] theorem delOp_mindiff (i : Nat) : (delOp s i).mindiff = s.mindiff := rfl
@[simp] theorem delOp_vperiod (i : Nat) : (delOp s i).vperiod = s.vperiod := rfl
@[simp] theorem delOp_stackPower (i : Nat) : (delOp s i).stackPower = s.stackPower := rfl
@[simp] theorem delOp_veers (i : Nat) : (delOp s i).veers = s.veers := rfl
@[simp] theorem delOp_veerAt (i : Nat) : (delOp s i).veerAt = s.veerAt := rfl
@[simp] theorem delOp_restart (i : Nat) : (delOp s i).restart = s.restart := rfl
@[simp] theorem delOp_unsupported (i : Nat) : (delOp s i).unsupported = s.unsupported := rfl
@[simp] theorem delOp_cfgErrors (i : Nat) : (delOp s i).cfgErrors = s.cfgErrors := rfl
@[simp] theorem delOp_discarded (i : Nat) : (delOp s i).discarded = s.discarded := rfl
@[simp] theorem delOp_overcap (i : Nat) : (delOp s i).overcap = s.overcap := rfl

/-! ### modReq -/
@[simp] theorem modReq_agenda (i : Nat) (h : Req → Req) : (modReq s i h).agenda = s.agenda := rfl
@[simp] theorem modReq_cur (i : Nat) (h : Req → Req) : (modReq s i h).cur = s.cur := rfl
@[simp] theorem modReq_turn (i : Nat) (h : Req → Req) : (modReq s i h).turn = s.turn := rfl
@[simp] theorem modReq_fresh (i : Nat) (h : Req → Req) : (modReq s i h).fresh = s.fresh := rfl
@[simp] theorem modReq_nextId (i : Nat) (h : Req → Req) : (modReq s i h).nextId = s.nextId := rfl
@[simp] theorem modReq_tick (i : Nat) (h : Req → Req) : (modReq s i h).tick = s.tick := rfl
@[simp] theorem modReq_mem (i : Nat) (h : Req → Req) : (modReq s i h).mem = s.mem := rfl
@[simp] theorem modReq_strong (i : Nat) (h : Req → Req) : (modReq s i h).strong = s.strong := rfl
@[simp] theorem modReq_upsets (i : Nat) (h : Req → Req) : (modReq s i h).upsets = s.upsets := rfl
@[simp] theorem modReq_poison (i : Nat) (h : Req → Req) : (modReq s i h).poison = s.poison := rfl
@[simp] theorem modReq_past (i : Nat) (h : Req → Req) : (modReq s i h).past = s.past := rfl
@[simp] theorem modReq_reads (i : Nat) (h : Req → Req) : (modReq s i h).reads = s.reads := rfl
@[simp] theorem modReq_stamp (i : Nat) (h : Req → Req) : (modReq s i h).stamp = s.stamp := rfl
@[simp] theorem modReq_knows (i : Nat) (h : Req → Req) : (modReq s i h).knows = s.knows := rfl
@[simp] theorem modReq_dies (i : Nat) (h : Req → Req) : (modReq s i h).dies = s.dies := rfl
@[simp] theorem modReq_stops (i : Nat) (h : Req → Req) : (modReq s i h).stops = s.stops := rfl
@[simp] theorem modReq_cellCache (i : Nat) (h : Req → Req) : (modReq s i h).cellCache = s.cellCache := rfl
@[simp] theorem modReq_pkts (i : Nat) (h : Req → Req) : (modReq s i h).pkts = s.pkts := rfl
@[simp] theorem modReq_cores (i : Nat) (h : Req → Req) : (modReq s i h).cores = s.cores := rfl
@[simp] theorem modReq_groups (i : Nat) (h : Req → Req) : (modReq s i h).groups = s.groups := rfl
@[simp] theorem modReq_ctxs (i : Nat) (h : Req → Req) : (modReq s i h).ctxs = s.ctxs := rfl
@[simp] theorem modReq_teams (i : Nat) (h : Req → Req) : (modReq s i h).teams = s.teams := rfl
@[simp] theorem modReq_grids (i : Nat) (h : Req → Req) : (modReq s i h).grids = s.grids := rfl
@[simp] theorem modReq_runs (i : Nat) (h : Req → Req) : (modReq s i h).runs = s.runs := rfl
@[simp] theorem modReq_parts (i : Nat) (h : Req → Req) : (modReq s i h).parts = s.parts := rfl
@[simp] theorem modReq_ops (i : Nat) (h : Req → Req) : (modReq s i h).ops = s.ops := rfl
@[simp] theorem modReq_pwrites (i : Nat) (h : Req → Req) : (modReq s i h).pwrites = s.pwrites := rfl
@[simp] theorem modReq_upds (i : Nat) (h : Req → Req) : (modReq s i h).upds = s.upds := rfl
@[simp] theorem modReq_reqs (i : Nat) (h : Req → Req) : (modReq s i h).reqs = modBy Req.id s.reqs i h := rfl
@[simp] theorem modReq_mcmds (i : Nat) (h : Req → Req) : (modReq s i h).mcmds = s.mcmds := rfl
@[simp] theorem modReq_colls (i : Nat) (h : Req → Req) : (modReq s i h).colls = s.colls := rfl
@[simp] theorem modReq_fabOut (i : Nat) (h : Req → Req) : (modReq s i h).fabOut = s.fabOut := rfl
@[simp] theorem modReq_inb (i : Nat) (h : Req → Req) : (modReq s i h).inb = s.inb := rfl
@[simp] theorem modReq_cpls (i : Nat) (h : Req → Req) : (modReq s i h).cpls = s.cpls := rfl
@[simp] theorem modReq_hwrites (i : Nat) (h : Req → Req) : (modReq s i h).hwrites = s.hwrites := rfl
@[simp] theorem modReq_wbacks (i : Nat) (h : Req → Req) : (modReq s i h).wbacks = s.wbacks := rfl
@[simp] theorem modReq_links (i : Nat) (h : Req → Req) : (modReq s i h).links = s.links := rfl
@[simp] theorem modReq_heldMsix (i : Nat) (h : Req → Req) : (modReq s i h).heldMsix = s.heldMsix := rfl
@[simp] theorem modReq_msix (i : Nat) (h : Req → Req) : (modReq s i h).msix = s.msix := rfl
@[simp] theorem modReq_answ0 (i : Nat) (h : Req → Req) : (modReq s i h).answ0 = s.answ0 := rfl
@[simp] theorem modReq_answ1 (i : Nat) (h : Req → Req) : (modReq s i h).answ1 = s.answ1 := rfl
@[simp] theorem modReq_hreq0 (i : Nat) (h : Req → Req) : (modReq s i h).hreq0 = s.hreq0 := rfl
@[simp] theorem modReq_hreq1 (i : Nat) (h : Req → Req) : (modReq s i h).hreq1 = s.hreq1 := rfl
@[simp] theorem modReq_hres (i : Nat) (h : Req → Req) : (modReq s i h).hres = s.hres := rfl
@[simp] theorem modReq_hcmd (i : Nat) (h : Req → Req) : (modReq s i h).hcmd = s.hcmd := rfl
@[simp] theorem modReq_fcapWatts (i : Nat) (h : Req → Req) : (modReq s i h).fcapWatts = s.fcapWatts := rfl
@[simp] theorem modReq_fcapSeq (i : Nat) (h : Req → Req) : (modReq s i h).fcapSeq = s.fcapSeq := rfl
@[simp] theorem modReq_fcapActed (i : Nat) (h : Req → Req) : (modReq s i h).fcapActed = s.fcapActed := rfl
@[simp] theorem modReq_fcapBusy (i : Nat) (h : Req → Req) : (modReq s i h).fcapBusy = s.fcapBusy := rfl
@[simp] theorem modReq_sweep (i : Nat) (h : Req → Req) : (modReq s i h).sweep = s.sweep := rfl
@[simp] theorem modReq_interval (i : Nat) (h : Req → Req) : (modReq s i h).interval = s.interval := rfl
@[simp] theorem modReq_sqcnt (i : Nat) (h : Req → Req) : (modReq s i h).sqcnt = s.sqcnt := rfl
@[simp] theorem modReq_mindiff (i : Nat) (h : Req → Req) : (modReq s i h).mindiff = s.mindiff := rfl
@[simp] theorem modReq_vperiod (i : Nat) (h : Req → Req) : (modReq s i h).vperiod = s.vperiod := rfl
@[simp] theorem modReq_stackPower (i : Nat) (h : Req → Req) : (modReq s i h).stackPower = s.stackPower := rfl
@[simp] theorem modReq_veers (i : Nat) (h : Req → Req) : (modReq s i h).veers = s.veers := rfl
@[simp] theorem modReq_veerAt (i : Nat) (h : Req → Req) : (modReq s i h).veerAt = s.veerAt := rfl
@[simp] theorem modReq_restart (i : Nat) (h : Req → Req) : (modReq s i h).restart = s.restart := rfl
@[simp] theorem modReq_unsupported (i : Nat) (h : Req → Req) : (modReq s i h).unsupported = s.unsupported := rfl
@[simp] theorem modReq_cfgErrors (i : Nat) (h : Req → Req) : (modReq s i h).cfgErrors = s.cfgErrors := rfl
@[simp] theorem modReq_discarded (i : Nat) (h : Req → Req) : (modReq s i h).discarded = s.discarded := rfl
@[simp] theorem modReq_overcap (i : Nat) (h : Req → Req) : (modReq s i h).overcap = s.overcap := rfl

/-! ### modCmd -/
@[simp] theorem modCmd_agenda (i : Nat) (h : MCmd → MCmd) : (modCmd s i h).agenda = s.agenda := rfl
@[simp] theorem modCmd_cur (i : Nat) (h : MCmd → MCmd) : (modCmd s i h).cur = s.cur := rfl
@[simp] theorem modCmd_turn (i : Nat) (h : MCmd → MCmd) : (modCmd s i h).turn = s.turn := rfl
@[simp] theorem modCmd_fresh (i : Nat) (h : MCmd → MCmd) : (modCmd s i h).fresh = s.fresh := rfl
@[simp] theorem modCmd_nextId (i : Nat) (h : MCmd → MCmd) : (modCmd s i h).nextId = s.nextId := rfl
@[simp] theorem modCmd_tick (i : Nat) (h : MCmd → MCmd) : (modCmd s i h).tick = s.tick := rfl
@[simp] theorem modCmd_mem (i : Nat) (h : MCmd → MCmd) : (modCmd s i h).mem = s.mem := rfl
@[simp] theorem modCmd_strong (i : Nat) (h : MCmd → MCmd) : (modCmd s i h).strong = s.strong := rfl
@[simp] theorem modCmd_upsets (i : Nat) (h : MCmd → MCmd) : (modCmd s i h).upsets = s.upsets := rfl
@[simp] theorem modCmd_poison (i : Nat) (h : MCmd → MCmd) : (modCmd s i h).poison = s.poison := rfl
@[simp] theorem modCmd_past (i : Nat) (h : MCmd → MCmd) : (modCmd s i h).past = s.past := rfl
@[simp] theorem modCmd_reads (i : Nat) (h : MCmd → MCmd) : (modCmd s i h).reads = s.reads := rfl
@[simp] theorem modCmd_stamp (i : Nat) (h : MCmd → MCmd) : (modCmd s i h).stamp = s.stamp := rfl
@[simp] theorem modCmd_knows (i : Nat) (h : MCmd → MCmd) : (modCmd s i h).knows = s.knows := rfl
@[simp] theorem modCmd_dies (i : Nat) (h : MCmd → MCmd) : (modCmd s i h).dies = s.dies := rfl
@[simp] theorem modCmd_stops (i : Nat) (h : MCmd → MCmd) : (modCmd s i h).stops = s.stops := rfl
@[simp] theorem modCmd_cellCache (i : Nat) (h : MCmd → MCmd) : (modCmd s i h).cellCache = s.cellCache := rfl
@[simp] theorem modCmd_pkts (i : Nat) (h : MCmd → MCmd) : (modCmd s i h).pkts = s.pkts := rfl
@[simp] theorem modCmd_cores (i : Nat) (h : MCmd → MCmd) : (modCmd s i h).cores = s.cores := rfl
@[simp] theorem modCmd_groups (i : Nat) (h : MCmd → MCmd) : (modCmd s i h).groups = s.groups := rfl
@[simp] theorem modCmd_ctxs (i : Nat) (h : MCmd → MCmd) : (modCmd s i h).ctxs = s.ctxs := rfl
@[simp] theorem modCmd_teams (i : Nat) (h : MCmd → MCmd) : (modCmd s i h).teams = s.teams := rfl
@[simp] theorem modCmd_grids (i : Nat) (h : MCmd → MCmd) : (modCmd s i h).grids = s.grids := rfl
@[simp] theorem modCmd_runs (i : Nat) (h : MCmd → MCmd) : (modCmd s i h).runs = s.runs := rfl
@[simp] theorem modCmd_parts (i : Nat) (h : MCmd → MCmd) : (modCmd s i h).parts = s.parts := rfl
@[simp] theorem modCmd_ops (i : Nat) (h : MCmd → MCmd) : (modCmd s i h).ops = s.ops := rfl
@[simp] theorem modCmd_pwrites (i : Nat) (h : MCmd → MCmd) : (modCmd s i h).pwrites = s.pwrites := rfl
@[simp] theorem modCmd_upds (i : Nat) (h : MCmd → MCmd) : (modCmd s i h).upds = s.upds := rfl
@[simp] theorem modCmd_reqs (i : Nat) (h : MCmd → MCmd) : (modCmd s i h).reqs = s.reqs := rfl
@[simp] theorem modCmd_mcmds (i : Nat) (h : MCmd → MCmd) : (modCmd s i h).mcmds = modBy MCmd.id s.mcmds i h := rfl
@[simp] theorem modCmd_colls (i : Nat) (h : MCmd → MCmd) : (modCmd s i h).colls = s.colls := rfl
@[simp] theorem modCmd_fabOut (i : Nat) (h : MCmd → MCmd) : (modCmd s i h).fabOut = s.fabOut := rfl
@[simp] theorem modCmd_inb (i : Nat) (h : MCmd → MCmd) : (modCmd s i h).inb = s.inb := rfl
@[simp] theorem modCmd_cpls (i : Nat) (h : MCmd → MCmd) : (modCmd s i h).cpls = s.cpls := rfl
@[simp] theorem modCmd_hwrites (i : Nat) (h : MCmd → MCmd) : (modCmd s i h).hwrites = s.hwrites := rfl
@[simp] theorem modCmd_wbacks (i : Nat) (h : MCmd → MCmd) : (modCmd s i h).wbacks = s.wbacks := rfl
@[simp] theorem modCmd_links (i : Nat) (h : MCmd → MCmd) : (modCmd s i h).links = s.links := rfl
@[simp] theorem modCmd_heldMsix (i : Nat) (h : MCmd → MCmd) : (modCmd s i h).heldMsix = s.heldMsix := rfl
@[simp] theorem modCmd_msix (i : Nat) (h : MCmd → MCmd) : (modCmd s i h).msix = s.msix := rfl
@[simp] theorem modCmd_answ0 (i : Nat) (h : MCmd → MCmd) : (modCmd s i h).answ0 = s.answ0 := rfl
@[simp] theorem modCmd_answ1 (i : Nat) (h : MCmd → MCmd) : (modCmd s i h).answ1 = s.answ1 := rfl
@[simp] theorem modCmd_hreq0 (i : Nat) (h : MCmd → MCmd) : (modCmd s i h).hreq0 = s.hreq0 := rfl
@[simp] theorem modCmd_hreq1 (i : Nat) (h : MCmd → MCmd) : (modCmd s i h).hreq1 = s.hreq1 := rfl
@[simp] theorem modCmd_hres (i : Nat) (h : MCmd → MCmd) : (modCmd s i h).hres = s.hres := rfl
@[simp] theorem modCmd_hcmd (i : Nat) (h : MCmd → MCmd) : (modCmd s i h).hcmd = s.hcmd := rfl
@[simp] theorem modCmd_fcapWatts (i : Nat) (h : MCmd → MCmd) : (modCmd s i h).fcapWatts = s.fcapWatts := rfl
@[simp] theorem modCmd_fcapSeq (i : Nat) (h : MCmd → MCmd) : (modCmd s i h).fcapSeq = s.fcapSeq := rfl
@[simp] theorem modCmd_fcapActed (i : Nat) (h : MCmd → MCmd) : (modCmd s i h).fcapActed = s.fcapActed := rfl
@[simp] theorem modCmd_fcapBusy (i : Nat) (h : MCmd → MCmd) : (modCmd s i h).fcapBusy = s.fcapBusy := rfl
@[simp] theorem modCmd_sweep (i : Nat) (h : MCmd → MCmd) : (modCmd s i h).sweep = s.sweep := rfl
@[simp] theorem modCmd_interval (i : Nat) (h : MCmd → MCmd) : (modCmd s i h).interval = s.interval := rfl
@[simp] theorem modCmd_sqcnt (i : Nat) (h : MCmd → MCmd) : (modCmd s i h).sqcnt = s.sqcnt := rfl
@[simp] theorem modCmd_mindiff (i : Nat) (h : MCmd → MCmd) : (modCmd s i h).mindiff = s.mindiff := rfl
@[simp] theorem modCmd_vperiod (i : Nat) (h : MCmd → MCmd) : (modCmd s i h).vperiod = s.vperiod := rfl
@[simp] theorem modCmd_stackPower (i : Nat) (h : MCmd → MCmd) : (modCmd s i h).stackPower = s.stackPower := rfl
@[simp] theorem modCmd_veers (i : Nat) (h : MCmd → MCmd) : (modCmd s i h).veers = s.veers := rfl
@[simp] theorem modCmd_veerAt (i : Nat) (h : MCmd → MCmd) : (modCmd s i h).veerAt = s.veerAt := rfl
@[simp] theorem modCmd_restart (i : Nat) (h : MCmd → MCmd) : (modCmd s i h).restart = s.restart := rfl
@[simp] theorem modCmd_unsupported (i : Nat) (h : MCmd → MCmd) : (modCmd s i h).unsupported = s.unsupported := rfl
@[simp] theorem modCmd_cfgErrors (i : Nat) (h : MCmd → MCmd) : (modCmd s i h).cfgErrors = s.cfgErrors := rfl
@[simp] theorem modCmd_discarded (i : Nat) (h : MCmd → MCmd) : (modCmd s i h).discarded = s.discarded := rfl
@[simp] theorem modCmd_overcap (i : Nat) (h : MCmd → MCmd) : (modCmd s i h).overcap = s.overcap := rfl

/-! ### modPkt -/
@[simp] theorem modPkt_agenda (i : Nat) (h : Pkt → Pkt) : (modPkt s i h).agenda = s.agenda := rfl
@[simp] theorem modPkt_cur (i : Nat) (h : Pkt → Pkt) : (modPkt s i h).cur = s.cur := rfl
@[simp] theorem modPkt_turn (i : Nat) (h : Pkt → Pkt) : (modPkt s i h).turn = s.turn := rfl
@[simp] theorem modPkt_fresh (i : Nat) (h : Pkt → Pkt) : (modPkt s i h).fresh = s.fresh := rfl
@[simp] theorem modPkt_nextId (i : Nat) (h : Pkt → Pkt) : (modPkt s i h).nextId = s.nextId := rfl
@[simp] theorem modPkt_tick (i : Nat) (h : Pkt → Pkt) : (modPkt s i h).tick = s.tick := rfl
@[simp] theorem modPkt_mem (i : Nat) (h : Pkt → Pkt) : (modPkt s i h).mem = s.mem := rfl
@[simp] theorem modPkt_strong (i : Nat) (h : Pkt → Pkt) : (modPkt s i h).strong = s.strong := rfl
@[simp] theorem modPkt_upsets (i : Nat) (h : Pkt → Pkt) : (modPkt s i h).upsets = s.upsets := rfl
@[simp] theorem modPkt_poison (i : Nat) (h : Pkt → Pkt) : (modPkt s i h).poison = s.poison := rfl
@[simp] theorem modPkt_past (i : Nat) (h : Pkt → Pkt) : (modPkt s i h).past = s.past := rfl
@[simp] theorem modPkt_reads (i : Nat) (h : Pkt → Pkt) : (modPkt s i h).reads = s.reads := rfl
@[simp] theorem modPkt_stamp (i : Nat) (h : Pkt → Pkt) : (modPkt s i h).stamp = s.stamp := rfl
@[simp] theorem modPkt_knows (i : Nat) (h : Pkt → Pkt) : (modPkt s i h).knows = s.knows := rfl
@[simp] theorem modPkt_dies (i : Nat) (h : Pkt → Pkt) : (modPkt s i h).dies = s.dies := rfl
@[simp] theorem modPkt_stops (i : Nat) (h : Pkt → Pkt) : (modPkt s i h).stops = s.stops := rfl
@[simp] theorem modPkt_cellCache (i : Nat) (h : Pkt → Pkt) : (modPkt s i h).cellCache = s.cellCache := rfl
@[simp] theorem modPkt_pkts (i : Nat) (h : Pkt → Pkt) : (modPkt s i h).pkts = modBy Pkt.id s.pkts i h := rfl
@[simp] theorem modPkt_cores (i : Nat) (h : Pkt → Pkt) : (modPkt s i h).cores = s.cores := rfl
@[simp] theorem modPkt_groups (i : Nat) (h : Pkt → Pkt) : (modPkt s i h).groups = s.groups := rfl
@[simp] theorem modPkt_ctxs (i : Nat) (h : Pkt → Pkt) : (modPkt s i h).ctxs = s.ctxs := rfl
@[simp] theorem modPkt_teams (i : Nat) (h : Pkt → Pkt) : (modPkt s i h).teams = s.teams := rfl
@[simp] theorem modPkt_grids (i : Nat) (h : Pkt → Pkt) : (modPkt s i h).grids = s.grids := rfl
@[simp] theorem modPkt_runs (i : Nat) (h : Pkt → Pkt) : (modPkt s i h).runs = s.runs := rfl
@[simp] theorem modPkt_parts (i : Nat) (h : Pkt → Pkt) : (modPkt s i h).parts = s.parts := rfl
@[simp] theorem modPkt_ops (i : Nat) (h : Pkt → Pkt) : (modPkt s i h).ops = s.ops := rfl
@[simp] theorem modPkt_pwrites (i : Nat) (h : Pkt → Pkt) : (modPkt s i h).pwrites = s.pwrites := rfl
@[simp] theorem modPkt_upds (i : Nat) (h : Pkt → Pkt) : (modPkt s i h).upds = s.upds := rfl
@[simp] theorem modPkt_reqs (i : Nat) (h : Pkt → Pkt) : (modPkt s i h).reqs = s.reqs := rfl
@[simp] theorem modPkt_mcmds (i : Nat) (h : Pkt → Pkt) : (modPkt s i h).mcmds = s.mcmds := rfl
@[simp] theorem modPkt_colls (i : Nat) (h : Pkt → Pkt) : (modPkt s i h).colls = s.colls := rfl
@[simp] theorem modPkt_fabOut (i : Nat) (h : Pkt → Pkt) : (modPkt s i h).fabOut = s.fabOut := rfl
@[simp] theorem modPkt_inb (i : Nat) (h : Pkt → Pkt) : (modPkt s i h).inb = s.inb := rfl
@[simp] theorem modPkt_cpls (i : Nat) (h : Pkt → Pkt) : (modPkt s i h).cpls = s.cpls := rfl
@[simp] theorem modPkt_hwrites (i : Nat) (h : Pkt → Pkt) : (modPkt s i h).hwrites = s.hwrites := rfl
@[simp] theorem modPkt_wbacks (i : Nat) (h : Pkt → Pkt) : (modPkt s i h).wbacks = s.wbacks := rfl
@[simp] theorem modPkt_links (i : Nat) (h : Pkt → Pkt) : (modPkt s i h).links = s.links := rfl
@[simp] theorem modPkt_heldMsix (i : Nat) (h : Pkt → Pkt) : (modPkt s i h).heldMsix = s.heldMsix := rfl
@[simp] theorem modPkt_msix (i : Nat) (h : Pkt → Pkt) : (modPkt s i h).msix = s.msix := rfl
@[simp] theorem modPkt_answ0 (i : Nat) (h : Pkt → Pkt) : (modPkt s i h).answ0 = s.answ0 := rfl
@[simp] theorem modPkt_answ1 (i : Nat) (h : Pkt → Pkt) : (modPkt s i h).answ1 = s.answ1 := rfl
@[simp] theorem modPkt_hreq0 (i : Nat) (h : Pkt → Pkt) : (modPkt s i h).hreq0 = s.hreq0 := rfl
@[simp] theorem modPkt_hreq1 (i : Nat) (h : Pkt → Pkt) : (modPkt s i h).hreq1 = s.hreq1 := rfl
@[simp] theorem modPkt_hres (i : Nat) (h : Pkt → Pkt) : (modPkt s i h).hres = s.hres := rfl
@[simp] theorem modPkt_hcmd (i : Nat) (h : Pkt → Pkt) : (modPkt s i h).hcmd = s.hcmd := rfl
@[simp] theorem modPkt_fcapWatts (i : Nat) (h : Pkt → Pkt) : (modPkt s i h).fcapWatts = s.fcapWatts := rfl
@[simp] theorem modPkt_fcapSeq (i : Nat) (h : Pkt → Pkt) : (modPkt s i h).fcapSeq = s.fcapSeq := rfl
@[simp] theorem modPkt_fcapActed (i : Nat) (h : Pkt → Pkt) : (modPkt s i h).fcapActed = s.fcapActed := rfl
@[simp] theorem modPkt_fcapBusy (i : Nat) (h : Pkt → Pkt) : (modPkt s i h).fcapBusy = s.fcapBusy := rfl
@[simp] theorem modPkt_sweep (i : Nat) (h : Pkt → Pkt) : (modPkt s i h).sweep = s.sweep := rfl
@[simp] theorem modPkt_interval (i : Nat) (h : Pkt → Pkt) : (modPkt s i h).interval = s.interval := rfl
@[simp] theorem modPkt_sqcnt (i : Nat) (h : Pkt → Pkt) : (modPkt s i h).sqcnt = s.sqcnt := rfl
@[simp] theorem modPkt_mindiff (i : Nat) (h : Pkt → Pkt) : (modPkt s i h).mindiff = s.mindiff := rfl
@[simp] theorem modPkt_vperiod (i : Nat) (h : Pkt → Pkt) : (modPkt s i h).vperiod = s.vperiod := rfl
@[simp] theorem modPkt_stackPower (i : Nat) (h : Pkt → Pkt) : (modPkt s i h).stackPower = s.stackPower := rfl
@[simp] theorem modPkt_veers (i : Nat) (h : Pkt → Pkt) : (modPkt s i h).veers = s.veers := rfl
@[simp] theorem modPkt_veerAt (i : Nat) (h : Pkt → Pkt) : (modPkt s i h).veerAt = s.veerAt := rfl
@[simp] theorem modPkt_restart (i : Nat) (h : Pkt → Pkt) : (modPkt s i h).restart = s.restart := rfl
@[simp] theorem modPkt_unsupported (i : Nat) (h : Pkt → Pkt) : (modPkt s i h).unsupported = s.unsupported := rfl
@[simp] theorem modPkt_cfgErrors (i : Nat) (h : Pkt → Pkt) : (modPkt s i h).cfgErrors = s.cfgErrors := rfl
@[simp] theorem modPkt_discarded (i : Nat) (h : Pkt → Pkt) : (modPkt s i h).discarded = s.discarded := rfl
@[simp] theorem modPkt_overcap (i : Nat) (h : Pkt → Pkt) : (modPkt s i h).overcap = s.overcap := rfl

/-! ### modDie -/
@[simp] theorem modDie_agenda (i : Nat) (h : Die → Die) : (modDie s i h).agenda = s.agenda := rfl
@[simp] theorem modDie_cur (i : Nat) (h : Die → Die) : (modDie s i h).cur = s.cur := rfl
@[simp] theorem modDie_turn (i : Nat) (h : Die → Die) : (modDie s i h).turn = s.turn := rfl
@[simp] theorem modDie_fresh (i : Nat) (h : Die → Die) : (modDie s i h).fresh = s.fresh := rfl
@[simp] theorem modDie_nextId (i : Nat) (h : Die → Die) : (modDie s i h).nextId = s.nextId := rfl
@[simp] theorem modDie_tick (i : Nat) (h : Die → Die) : (modDie s i h).tick = s.tick := rfl
@[simp] theorem modDie_mem (i : Nat) (h : Die → Die) : (modDie s i h).mem = s.mem := rfl
@[simp] theorem modDie_strong (i : Nat) (h : Die → Die) : (modDie s i h).strong = s.strong := rfl
@[simp] theorem modDie_upsets (i : Nat) (h : Die → Die) : (modDie s i h).upsets = s.upsets := rfl
@[simp] theorem modDie_poison (i : Nat) (h : Die → Die) : (modDie s i h).poison = s.poison := rfl
@[simp] theorem modDie_past (i : Nat) (h : Die → Die) : (modDie s i h).past = s.past := rfl
@[simp] theorem modDie_reads (i : Nat) (h : Die → Die) : (modDie s i h).reads = s.reads := rfl
@[simp] theorem modDie_stamp (i : Nat) (h : Die → Die) : (modDie s i h).stamp = s.stamp := rfl
@[simp] theorem modDie_knows (i : Nat) (h : Die → Die) : (modDie s i h).knows = s.knows := rfl
@[simp] theorem modDie_dies (i : Nat) (h : Die → Die) : (modDie s i h).dies = s.dies.modify i h := rfl
@[simp] theorem modDie_stops (i : Nat) (h : Die → Die) : (modDie s i h).stops = s.stops := rfl
@[simp] theorem modDie_cellCache (i : Nat) (h : Die → Die) : (modDie s i h).cellCache = s.cellCache := rfl
@[simp] theorem modDie_pkts (i : Nat) (h : Die → Die) : (modDie s i h).pkts = s.pkts := rfl
@[simp] theorem modDie_cores (i : Nat) (h : Die → Die) : (modDie s i h).cores = s.cores := rfl
@[simp] theorem modDie_groups (i : Nat) (h : Die → Die) : (modDie s i h).groups = s.groups := rfl
@[simp] theorem modDie_ctxs (i : Nat) (h : Die → Die) : (modDie s i h).ctxs = s.ctxs := rfl
@[simp] theorem modDie_teams (i : Nat) (h : Die → Die) : (modDie s i h).teams = s.teams := rfl
@[simp] theorem modDie_grids (i : Nat) (h : Die → Die) : (modDie s i h).grids = s.grids := rfl
@[simp] theorem modDie_runs (i : Nat) (h : Die → Die) : (modDie s i h).runs = s.runs := rfl
@[simp] theorem modDie_parts (i : Nat) (h : Die → Die) : (modDie s i h).parts = s.parts := rfl
@[simp] theorem modDie_ops (i : Nat) (h : Die → Die) : (modDie s i h).ops = s.ops := rfl
@[simp] theorem modDie_pwrites (i : Nat) (h : Die → Die) : (modDie s i h).pwrites = s.pwrites := rfl
@[simp] theorem modDie_upds (i : Nat) (h : Die → Die) : (modDie s i h).upds = s.upds := rfl
@[simp] theorem modDie_reqs (i : Nat) (h : Die → Die) : (modDie s i h).reqs = s.reqs := rfl
@[simp] theorem modDie_mcmds (i : Nat) (h : Die → Die) : (modDie s i h).mcmds = s.mcmds := rfl
@[simp] theorem modDie_colls (i : Nat) (h : Die → Die) : (modDie s i h).colls = s.colls := rfl
@[simp] theorem modDie_fabOut (i : Nat) (h : Die → Die) : (modDie s i h).fabOut = s.fabOut := rfl
@[simp] theorem modDie_inb (i : Nat) (h : Die → Die) : (modDie s i h).inb = s.inb := rfl
@[simp] theorem modDie_cpls (i : Nat) (h : Die → Die) : (modDie s i h).cpls = s.cpls := rfl
@[simp] theorem modDie_hwrites (i : Nat) (h : Die → Die) : (modDie s i h).hwrites = s.hwrites := rfl
@[simp] theorem modDie_wbacks (i : Nat) (h : Die → Die) : (modDie s i h).wbacks = s.wbacks := rfl
@[simp] theorem modDie_links (i : Nat) (h : Die → Die) : (modDie s i h).links = s.links := rfl
@[simp] theorem modDie_heldMsix (i : Nat) (h : Die → Die) : (modDie s i h).heldMsix = s.heldMsix := rfl
@[simp] theorem modDie_msix (i : Nat) (h : Die → Die) : (modDie s i h).msix = s.msix := rfl
@[simp] theorem modDie_answ0 (i : Nat) (h : Die → Die) : (modDie s i h).answ0 = s.answ0 := rfl
@[simp] theorem modDie_answ1 (i : Nat) (h : Die → Die) : (modDie s i h).answ1 = s.answ1 := rfl
@[simp] theorem modDie_hreq0 (i : Nat) (h : Die → Die) : (modDie s i h).hreq0 = s.hreq0 := rfl
@[simp] theorem modDie_hreq1 (i : Nat) (h : Die → Die) : (modDie s i h).hreq1 = s.hreq1 := rfl
@[simp] theorem modDie_hres (i : Nat) (h : Die → Die) : (modDie s i h).hres = s.hres := rfl
@[simp] theorem modDie_hcmd (i : Nat) (h : Die → Die) : (modDie s i h).hcmd = s.hcmd := rfl
@[simp] theorem modDie_fcapWatts (i : Nat) (h : Die → Die) : (modDie s i h).fcapWatts = s.fcapWatts := rfl
@[simp] theorem modDie_fcapSeq (i : Nat) (h : Die → Die) : (modDie s i h).fcapSeq = s.fcapSeq := rfl
@[simp] theorem modDie_fcapActed (i : Nat) (h : Die → Die) : (modDie s i h).fcapActed = s.fcapActed := rfl
@[simp] theorem modDie_fcapBusy (i : Nat) (h : Die → Die) : (modDie s i h).fcapBusy = s.fcapBusy := rfl
@[simp] theorem modDie_sweep (i : Nat) (h : Die → Die) : (modDie s i h).sweep = s.sweep := rfl
@[simp] theorem modDie_interval (i : Nat) (h : Die → Die) : (modDie s i h).interval = s.interval := rfl
@[simp] theorem modDie_sqcnt (i : Nat) (h : Die → Die) : (modDie s i h).sqcnt = s.sqcnt := rfl
@[simp] theorem modDie_mindiff (i : Nat) (h : Die → Die) : (modDie s i h).mindiff = s.mindiff := rfl
@[simp] theorem modDie_vperiod (i : Nat) (h : Die → Die) : (modDie s i h).vperiod = s.vperiod := rfl
@[simp] theorem modDie_stackPower (i : Nat) (h : Die → Die) : (modDie s i h).stackPower = s.stackPower := rfl
@[simp] theorem modDie_veers (i : Nat) (h : Die → Die) : (modDie s i h).veers = s.veers := rfl
@[simp] theorem modDie_veerAt (i : Nat) (h : Die → Die) : (modDie s i h).veerAt = s.veerAt := rfl
@[simp] theorem modDie_restart (i : Nat) (h : Die → Die) : (modDie s i h).restart = s.restart := rfl
@[simp] theorem modDie_unsupported (i : Nat) (h : Die → Die) : (modDie s i h).unsupported = s.unsupported := rfl
@[simp] theorem modDie_cfgErrors (i : Nat) (h : Die → Die) : (modDie s i h).cfgErrors = s.cfgErrors := rfl
@[simp] theorem modDie_discarded (i : Nat) (h : Die → Die) : (modDie s i h).discarded = s.discarded := rfl
@[simp] theorem modDie_overcap (i : Nat) (h : Die → Die) : (modDie s i h).overcap = s.overcap := rfl

/-! ### putGM -/
@[simp] theorem putGM_agenda (x : GM) : (putGM s x).agenda = s.agenda := rfl
@[simp] theorem putGM_cur (x : GM) : (putGM s x).cur = s.cur := rfl
@[simp] theorem putGM_turn (x : GM) : (putGM s x).turn = s.turn := rfl
@[simp] theorem putGM_fresh (x : GM) : (putGM s x).fresh = s.fresh := rfl
@[simp] theorem putGM_nextId (x : GM) : (putGM s x).nextId = s.nextId := rfl
@[simp] theorem putGM_tick (x : GM) : (putGM s x).tick = s.tick := rfl
@[simp] theorem putGM_mem (x : GM) : (putGM s x).mem = x.m := rfl
@[simp] theorem putGM_strong (x : GM) : (putGM s x).strong = s.strong := rfl
@[simp] theorem putGM_upsets (x : GM) : (putGM s x).upsets = s.upsets := rfl
@[simp] theorem putGM_poison (x : GM) : (putGM s x).poison = s.poison := rfl
@[simp] theorem putGM_past (x : GM) : (putGM s x).past = s.past := rfl
@[simp] theorem putGM_reads (x : GM) : (putGM s x).reads = s.reads := rfl
@[simp] theorem putGM_stamp (x : GM) : (putGM s x).stamp = s.stamp := rfl
@[simp] theorem putGM_knows (x : GM) : (putGM s x).knows = s.knows := rfl
@[simp] theorem putGM_dies (x : GM) : (putGM s x).dies = s.dies := rfl
@[simp] theorem putGM_stops (x : GM) : (putGM s x).stops = s.stops := rfl
@[simp] theorem putGM_cellCache (x : GM) : (putGM s x).cellCache = s.cellCache := rfl
@[simp] theorem putGM_pkts (x : GM) : (putGM s x).pkts = s.pkts := rfl
@[simp] theorem putGM_cores (x : GM) : (putGM s x).cores = s.cores := rfl
@[simp] theorem putGM_groups (x : GM) : (putGM s x).groups = modBy Group.id s.groups x.g.id (fun _ => x.g) := rfl
@[simp] theorem putGM_ctxs (x : GM) : (putGM s x).ctxs = s.ctxs := rfl
@[simp] theorem putGM_teams (x : GM) : (putGM s x).teams = s.teams := rfl
@[simp] theorem putGM_grids (x : GM) : (putGM s x).grids = s.grids := rfl
@[simp] theorem putGM_runs (x : GM) : (putGM s x).runs = s.runs := rfl
@[simp] theorem putGM_parts (x : GM) : (putGM s x).parts = s.parts := rfl
@[simp] theorem putGM_ops (x : GM) : (putGM s x).ops = s.ops := rfl
@[simp] theorem putGM_pwrites (x : GM) : (putGM s x).pwrites = s.pwrites := rfl
@[simp] theorem putGM_upds (x : GM) : (putGM s x).upds = s.upds := rfl
@[simp] theorem putGM_reqs (x : GM) : (putGM s x).reqs = s.reqs := rfl
@[simp] theorem putGM_mcmds (x : GM) : (putGM s x).mcmds = s.mcmds := rfl
@[simp] theorem putGM_colls (x : GM) : (putGM s x).colls = s.colls := rfl
@[simp] theorem putGM_fabOut (x : GM) : (putGM s x).fabOut = s.fabOut := rfl
@[simp] theorem putGM_inb (x : GM) : (putGM s x).inb = s.inb := rfl
@[simp] theorem putGM_cpls (x : GM) : (putGM s x).cpls = s.cpls := rfl
@[simp] theorem putGM_hwrites (x : GM) : (putGM s x).hwrites = s.hwrites := rfl
@[simp] theorem putGM_wbacks (x : GM) : (putGM s x).wbacks = s.wbacks := rfl
@[simp] theorem putGM_links (x : GM) : (putGM s x).links = s.links := rfl
@[simp] theorem putGM_heldMsix (x : GM) : (putGM s x).heldMsix = s.heldMsix := rfl
@[simp] theorem putGM_msix (x : GM) : (putGM s x).msix = s.msix := rfl
@[simp] theorem putGM_answ0 (x : GM) : (putGM s x).answ0 = s.answ0 := rfl
@[simp] theorem putGM_answ1 (x : GM) : (putGM s x).answ1 = s.answ1 := rfl
@[simp] theorem putGM_hreq0 (x : GM) : (putGM s x).hreq0 = s.hreq0 := rfl
@[simp] theorem putGM_hreq1 (x : GM) : (putGM s x).hreq1 = s.hreq1 := rfl
@[simp] theorem putGM_hres (x : GM) : (putGM s x).hres = s.hres := rfl
@[simp] theorem putGM_hcmd (x : GM) : (putGM s x).hcmd = s.hcmd := rfl
@[simp] theorem putGM_fcapWatts (x : GM) : (putGM s x).fcapWatts = s.fcapWatts := rfl
@[simp] theorem putGM_fcapSeq (x : GM) : (putGM s x).fcapSeq = s.fcapSeq := rfl
@[simp] theorem putGM_fcapActed (x : GM) : (putGM s x).fcapActed = s.fcapActed := rfl
@[simp] theorem putGM_fcapBusy (x : GM) : (putGM s x).fcapBusy = s.fcapBusy := rfl
@[simp] theorem putGM_sweep (x : GM) : (putGM s x).sweep = s.sweep := rfl
@[simp] theorem putGM_interval (x : GM) : (putGM s x).interval = s.interval := rfl
@[simp] theorem putGM_sqcnt (x : GM) : (putGM s x).sqcnt = s.sqcnt := rfl
@[simp] theorem putGM_mindiff (x : GM) : (putGM s x).mindiff = s.mindiff := rfl
@[simp] theorem putGM_vperiod (x : GM) : (putGM s x).vperiod = s.vperiod := rfl
@[simp] theorem putGM_stackPower (x : GM) : (putGM s x).stackPower = s.stackPower := rfl
@[simp] theorem putGM_veers (x : GM) : (putGM s x).veers = s.veers := rfl
@[simp] theorem putGM_veerAt (x : GM) : (putGM s x).veerAt = s.veerAt := rfl
@[simp] theorem putGM_restart (x : GM) : (putGM s x).restart = s.restart := rfl
@[simp] theorem putGM_unsupported (x : GM) : (putGM s x).unsupported = s.unsupported := rfl
@[simp] theorem putGM_cfgErrors (x : GM) : (putGM s x).cfgErrors = s.cfgErrors := rfl
@[simp] theorem putGM_discarded (x : GM) : (putGM s x).discarded = s.discarded := rfl
@[simp] theorem putGM_overcap (x : GM) : (putGM s x).overcap = s.overcap := rfl

/-! ### Lookups after an update -/

theorem find_modBy {α : Type} (num : α → Nat) (l : List α) (i : Nat) (h : α → α) (a : α)
    (ha : l.find? (fun x => num x == i) = some a) (hid : num (h a) = i) :
    (modBy num l i h).find? (fun x => num x == i) = some (h a) := by
  induction l with
  | nil => simp at ha
  | cons b l ih =>
    by_cases hb : num b = i
    · have : b = a := by simpa [List.find?_cons, hb] using ha
      subst this
      simp [modBy, hb, hid]
    · have ha' : l.find? (fun x => num x == i) = some a := by simpa [List.find?_cons, hb] using ha
      simpa [modBy, hb] using ih ha'

theorem find_modBy_ne {α : Type} (num : α → Nat) (l : List α) (i j : Nat) (h : α → α) (hij : j ≠ i)
    (hid : ∀ a, num a = i → num (h a) = i) :
    (modBy num l i h).find? (fun x => num x == j) = l.find? (fun x => num x == j) := by
  induction l with
  | nil => rfl
  | cons b l ih =>
    by_cases hb : num b = i
    · have h1 : num (h b) ≠ j := by rw [hid b hb]; exact fun e => hij e.symm
      have h2 : (i == j) = false := by simpa using fun e => hij e.symm
      simpa [modBy, hb, h1, h2, List.find?_cons] using ih
    · by_cases hj : num b = j
      · simp [modBy, hj, hij]
      · simpa [modBy, hb, hj, List.find?_cons] using ih

/-- A group changed by number is found changed. -/
theorem getG_modG (i : Nat) (h : Group → Group) (g : Group) (hg : getG s i = some g) (hid : (h g).id = i) :
    getG (modG s i h) i = some (h g) := find_modBy Group.id s.groups i h g hg hid

/-- The other groups are found as before. -/
theorem getG_modG_ne (i j : Nat) (h : Group → Group) (hij : j ≠ i) (hid : ∀ g, g.id = i → (h g).id = i) :
    getG (modG s i h) j = getG s j := find_modBy_ne Group.id s.groups i j h hij hid

/-- A group put back with memory is found as it was put. -/
theorem getG_putGM (x : GM) (g : Group) (hg : getG s x.g.id = some g) : getG (putGM s x) x.g.id = some x.g :=
  find_modBy Group.id s.groups x.g.id (fun _ => x.g) g hg rfl

/-- The other groups are found as before. -/
theorem getG_putGM_ne (x : GM) (j : Nat) (hij : j ≠ x.g.id) : getG (putGM s x) j = getG s j :=
  find_modBy_ne Group.id s.groups x.g.id j (fun _ => x.g) hij (fun _ _ => rfl)

/-- A lookup gives the number that was asked for. -/
theorem getG_id (i : Nat) (g : Group) (hg : getG s i = some g) : g.id = i := by
  have := List.find?_some hg
  simpa using this

end Sys2Proof.Machine
end

