-- ==== Sys2Proof/Laws/Issue.lean ====
section
/-! SUPPORT. Sys2Proof/Laws/Issue.lean: what the shared issue operations answer when it is a group's turn. -/

namespace Sys2Proof.Laws

set_option Elab.async false

open Sys2Proof.Machine

/-- A group that holds its entry set issues at once (R219). -/
theorem withIssue_next {s : State} {g : Group} {c : Clause} (h : Issues s g c) (k : State → Group → Clause → Out) :
    withIssue s k = k s g c := by
  obtain ⟨h1, h2, h3⟩ := h
  simp [withIssue, h1, h2, canAcquire, takeSet, h3]

/-- A lane instruction on a group's turn: an illegal-instruction trap, a frame-range trap, or its passes (R29, R53, R62). -/
theorem runLaneG_out {s : State} {g : Group} {c : Clause} (h : Issues s g c) (op : Nat) (f : FormR) (dyn : Group → Bool) (sp : Group → LaneSpec)
    (body : Group → LaneIn → LaneOut) :
    runLaneG s op f dyn sp body =
      if dyn g then illegalOut s g c f.gd (wordR op f)
      else match frameFail g (laneOpds f (sp g)) with
        | some r => frameOut s g c f.gd (wordR op f) r
        | none => .next (laneDone s c f.gd (wordR op f) (lanePasses (gmOf s g) f (sp g) body)) := by
  rw [runLaneG, withIssue_next h]; rfl

/-- A lane instruction whose registers lie in the frame (R29, R62). -/
theorem runLane_next {s : State} {g : Group} {c : Clause} (h : Issues s g c) (op : Nat) (f : FormR) (sp : Group → LaneSpec)
    (body : LaneIn → LaneOut) (hf : frameFail g (laneOpds f (sp g)) = none) :
    runLane s op f noDyn sp body = .next (laneDone s c f.gd (wordR op f) (lanePasses (gmOf s g) f (sp g) (fun _ => body))) := by
  rw [runLane, runLaneG_out h, hf]; rfl

/-- An instruction that reads everything at its first issued pass: a frame-range trap, the trap that bad names, or its results (R487). -/
theorem runWhole_out {s : State} {g : Group} {c : Clause} (h : Issues s g c) (op : Nat) (f : FormR) (sp : LaneSpec)
    (bad : List LaneIn → Option (Cause × List Nat × W64)) (body : LaneIn → LaneOut) :
    runWhole s op f sp bad body =
      match frameFail g (laneOpds f sp) with
      | some r => frameOut s g c f.gd (wordR op f) r
      | none =>
        match (if effFirst s g f.gd = 0 then none else bad (wholeIns (due s g) f sp (effFirst s g f.gd))) with
        | some (cause, ls, a) => trapOut (putGM s (touchSrc (due s g) f sp)) (touchSrc (due s g) f sp).g c (wordR op f) cause 0 (maskOf ls) a
        | none => .next (laneDone s c f.gd (wordR op f) (wholePasses (due s g) f sp (effFirst s g f.gd) body)) := by
  rw [runWhole, withIssue_next h]; rfl

/-- A cross-lane instruction: an illegal-instruction trap, a frame-range trap, or its results (R172). -/
theorem runCross_out {s : State} {g : Group} {c : Clause} (h : Issues s g c) (op : Nat) (f : FormR) (dyn : Group → Bool) (sp : Group → LaneSpec)
    (body : Nat → (Nat → LaneIn) → List Nat → List (Nat × LaneOut)) :
    runCross s op f dyn sp body =
      if dyn g then illegalOut s g c f.gd (wordR op f)
      else match frameFail g (laneOpds f (sp g)) with
        | some r => frameOut s g c f.gd (wordR op f) r
        | none => .next (laneDone s c f.gd (wordR op f) (crossPasses (gmOf s g) f (sp g) body)) := by
  rw [runCross, withIssue_next h]; rfl

/-- A format-R instruction that acts once, its guard read pass by pass: a frame-range trap, nothing where no lane is effective, or its effect (R29, R68). -/
theorem onceR_out {s : State} {g : Group} {c : Clause} (h : Issues s g c) (op : Nat) (f : FormR) (sp : LaneSpec)
    (k : State → GM → Clause → W64 → Mask → Out) :
    onceR s op f sp k =
      match frameFail g (laneOpds f sp) with
      | some r => frameOut s g c f.gd (wordR op f) r
      | none =>
        if effAt s g f.gd = 0 then .next (finish1 s (bump (due s g) (posCount g [])) c f.gd.sw)
        else k s (due s g) c (wordR op f) (effAt s g f.gd) := by
  rw [onceR, onceBy, withIssue_next h]; rfl

/-- One that reads everything at its first issued pass (R68, R487). -/
theorem onceFirst_out {s : State} {g : Group} {c : Clause} (h : Issues s g c) (op : Nat) (f : FormR) (sp : LaneSpec)
    (k : State → GM → Clause → W64 → Mask → Out) :
    onceFirst s op f sp k =
      match frameFail g (laneOpds f sp) with
      | some r => frameOut s g c f.gd (wordR op f) r
      | none =>
        if effFirst s g f.gd = 0 then .next (finish1 s (bump (due s g) (posCount g [])) c f.gd.sw)
        else k s (due s g) c (wordR op f) (effFirst s g f.gd) := by
  rw [onceFirst, onceBy, withIssue_next h]; rfl

/-- A format-M instruction: a frame-range trap, nothing where no lane is effective, or its effect at its first issued pass (R487). -/
theorem memIssue_out {s : State} {g : Group} {c : Clause} (h : Issues s g c) (op : Nat) (f : FormM) (nA nB nD : Nat)
    (k : State → GM → Clause → W64 → Mask → Out) :
    memIssue s op f nA nB nD k =
      match frameFail g [(f.a, nA), (f.b, nB), (f.d, nD)] with
      | some r => frameOut s g c f.gd (wordM op f) r
      | none =>
        if effFirst s g f.gd = 0 then .next (finish1 s (bump (due s g) (posCount g [])) c f.gd.sw)
        else k (memFrom s g op f) (memAt s g op f nA nB) c (wordM op f) (effFirst s g f.gd) := by
  rw [memIssue, withIssue_next h]; rfl

/-- A format-J instruction whose guard is read pass by pass: nothing where no lane is effective, its effect at a target the code may be entered at, or a capability trap (R72). -/
theorem jIssue_out {s : State} {g : Group} {c : Clause} (h : Issues s g c) (op : Nat) (f : FormJ)
    (k : State → GM → Clause → W64 → Mask → Nat → Out) :
    jIssue op f s k =
      if effAt s g f.gd = 0 then .next (finish1 s (bump (due s g) (posCount g [])) c f.gd.sw)
      else match (gridOf s g).map (fun gr => targetOk s gr (jTarget c f)) with
        | some true => k s (due s g) c (wordJ op f) (effAt s g f.gd) (jTarget c f).toNat
        | _ => trapOut s g c (wordJ op f) .capability 0 (effAt s g f.gd) (BitVec.ofInt 64 (jTarget c f)) := by
  rw [jIssue, jBy, withIssue_next h]; rfl

/-- One that reads everything at its first issued pass (R487). -/
theorem jFirst_out {s : State} {g : Group} {c : Clause} (h : Issues s g c) (op : Nat) (f : FormJ)
    (k : State → GM → Clause → W64 → Mask → Nat → Out) :
    jFirst op f s k =
      if effFirst s g f.gd = 0 then .next (finish1 s (bump (due s g) (posCount g [])) c f.gd.sw)
      else match (gridOf s g).map (fun gr => targetOk s gr (jTarget c f)) with
        | some true => k s (due s g) c (wordJ op f) (effFirst s g f.gd) (jTarget c f).toNat
        | _ => trapOut s g c (wordJ op f) .capability 0 (effFirst s g f.gd) (BitVec.ofInt 64 (jTarget c f)) := by
  rw [jFirst, jBy, withIssue_next h]; rfl

/-- A format-Q instruction: a frame-range trap, nothing where no lane is effective, or its effect at its first issued pass (R73, R487). -/
theorem qIssue_out {s : State} {g : Group} {c : Clause} (h : Issues s g c) (op : Nat) (f : FormQ) (nA nB nD : Nat)
    (k : State → GM → Clause → W64 → Mask → Out) :
    qIssue s op f nA nB nD k =
      match frameFail g [(f.a, nA), (f.b, nB), (f.d, nD)] with
      | some r => frameOut s g c f.gd (wordQ op f) r
      | none =>
        if effFirst s g f.gd = 0 then .next (finish1 s (bump (due s g) (posCount g [])) c f.gd.sw)
        else k s (qAt s g) c (wordQ op f) (effFirst s g f.gd) := by
  rw [qIssue, qIssueG, withIssue_next h]; rfl

/-- The group whose turn it is, is the group of its number. -/
theorem getG_of_issues {s : State} {g : Group} {c : Clause} (h : Issues s g c) : getG s g.id = some g := by
  obtain ⟨i, _, hg⟩ := Option.bind_eq_some_iff.1 h.1
  have e := List.find?_some hg
  simp only [beq_iff_eq] at e
  rw [e]; exact hg

end Sys2Proof.Laws
end

