-- ==== Sys2Proof/Laws/Memory.lean ====
section
/-! SUPPORT. Sys2Proof/Laws/Memory.lean: every memory operation keeps the canonical form; what a read gives after a write, an erasure and a run of writes; the register and pool operations that write memory. -/

namespace Sys2Proof.Machine

set_option Elab.async false

/-! ## The canonical form -/

theorem memWfFrom_mono {lo lo' : Nat} (h : lo' ≤ lo) : ∀ {m : Memory}, memWfFrom lo m = true → memWfFrom lo' m = true
  | [], _ => rfl
  | (a, c) :: m, hm => by
    simp only [memWfFrom, Bool.and_eq_true, decide_eq_true_eq] at hm ⊢
    exact ⟨⟨Nat.le_trans h hm.1.1, hm.1.2⟩, hm.2⟩

theorem memWr_wfFrom {k : Nat} (b : Byte) : ∀ {m : Memory} {lo : Nat}, lo ≤ k → memWfFrom lo m = true → memWfFrom lo (memWr m k b) = true
  | [], lo, hk, _ => by
    unfold memWr
    split
    · rfl
    · rename_i hb
      simpa [memWfFrom, hk] using hb
  | (a, c) :: m, lo, hk, hm => by
    have hm' := hm
    simp only [memWfFrom, Bool.and_eq_true, decide_eq_true_eq] at hm
    unfold memWr
    split
    · rename_i hlt
      split
      · exact hm'
      · rename_i hb
        simp only [memWfFrom, Bool.and_eq_true, decide_eq_true_eq, bne_iff_ne]
        exact ⟨⟨hk, hb⟩, ⟨by omega, by simpa using hm.1.2⟩, hm.2⟩
    · split
      · rename_i hka
        split
        · exact memWfFrom_mono (by omega) hm.2
        · rename_i hb
          simp only [memWfFrom, Bool.and_eq_true, decide_eq_true_eq, bne_iff_ne]
          exact ⟨⟨hk, hb⟩, hka ▸ hm.2⟩
      · simp only [memWfFrom, Bool.and_eq_true, decide_eq_true_eq]
        exact ⟨hm.1, memWr_wfFrom b (by omega) hm.2⟩

theorem memWr_wf {m : Memory} (k : Nat) (b : Byte) (h : m.wf = true) : (memWr m k b).wf = true := memWr_wfFrom b (Nat.zero_le k) h

theorem memWrN_wf : ∀ (bs : List Byte) {m : Memory} (k : Nat), m.wf = true → (memWrN m k bs).wf = true
  | [], _, _, h => h
  | b :: bs, _, k, h => memWrN_wf bs (k + 1) (memWr_wf k b h)

theorem memWrV_wf {m : Memory} (k n x : Nat) (h : m.wf = true) : (memWrV m k n x).wf = true := memWrN_wf _ k h

theorem memFilter_wfFrom (p : Host.Cell → Bool) : ∀ {m : Memory} {lo : Nat}, memWfFrom lo m = true → memWfFrom lo (m.filter p) = true
  | [], _, _ => rfl
  | (a, c) :: m, lo, hm => by
    simp only [memWfFrom, Bool.and_eq_true, decide_eq_true_eq] at hm
    have ih := memFilter_wfFrom p hm.2
    simp only [List.filter_cons]
    split
    · simp only [memWfFrom, Bool.and_eq_true, decide_eq_true_eq]
      exact ⟨hm.1, ih⟩
    · exact memWfFrom_mono (by omega) ih

theorem memZero_wf {m : Memory} (k n : Nat) (h : m.wf = true) : (memZero m k n).wf = true := memFilter_wfFrom _ h
theorem hostMem_wf {m : Memory} (h : m.wf = true) : (hostMem m).wf = true := memFilter_wfFrom _ h
theorem reset_mem_wf : State.reset.mem.wf = true := rfl

/-! ## Reads -/

theorem memRd_below : ∀ {m : Memory} {lo k : Nat}, memWfFrom lo m = true → k < lo → memRd m k = 0
  | [], _, _, _, _ => rfl
  | (a, c) :: m, lo, k, hm, hk => by
    simp only [memWfFrom, Bool.and_eq_true, decide_eq_true_eq] at hm
    unfold memRd
    rw [if_neg (by omega)]
    exact memRd_below hm.2 (by omega)

theorem memRd_memWr_same_from (k : Nat) (b : Byte) : ∀ {m : Memory} {lo : Nat}, memWfFrom lo m = true → memRd (memWr m k b) k = b
  | [], _, _ => by
    unfold memWr
    split
    · rename_i hb
      simp [memRd, hb]
    · simp [memRd]
  | (a, c) :: m, lo, hm => by
    simp only [memWfFrom, Bool.and_eq_true, decide_eq_true_eq] at hm
    unfold memWr
    split
    · rename_i hlt
      split
      · rename_i hb
        unfold memRd
        rw [if_neg (by omega), memRd_below hm.2 (by omega), hb]
      · simp [memRd]
    · split
      · rename_i hka
        split
        · rename_i hb
          rw [memRd_below hm.2 (by omega), hb]
        · simp [memRd]
      · unfold memRd
        rw [if_neg (by omega)]
        exact memRd_memWr_same_from k b hm.2

/-- A read after a write to the same key gives the byte written. -/
theorem memRd_memWr_same {m : Memory} (k : Nat) (b : Byte) (h : m.wf = true) : memRd (memWr m k b) k = b := memRd_memWr_same_from k b h

/-- A write leaves every other key alone. -/
theorem memRd_memWr_other {k q : Nat} (b : Byte) (hq : q ≠ k) : ∀ m : Memory, memRd (memWr m k b) q = memRd m q
  | [] => by
    unfold memWr
    split
    · rfl
    · simp [memRd, Ne.symm hq]
  | (a, c) :: m => by
    unfold memWr
    split
    · split
      · rfl
      · simp [memRd, Ne.symm hq]
    · split
      · rename_i hka
        split
        · simp [memRd, ← hka, Ne.symm hq]
        · simp [memRd, ← hka, Ne.symm hq]
      · simp only [memRd]
        rw [memRd_memWr_other b hq m]

/-- A run of bytes written leaves every key outside it alone. -/
theorem memRd_memWrN_other : ∀ (bs : List Byte) (m : Memory) {k q : Nat}, q < k ∨ k + bs.length ≤ q → memRd (memWrN m k bs) q = memRd m q
  | [], _, _, _, _ => rfl
  | b :: bs, m, k, q, h => by
    simp only [List.length_cons] at h
    unfold memWrN
    rw [memRd_memWrN_other bs _ (by omega), memRd_memWr_other b (by omega)]

/-- Each byte of a run reads back. -/
theorem memRd_memWrN_same : ∀ (bs : List Byte) {m : Memory} (k i : Nat), m.wf = true → i < bs.length → memRd (memWrN m k bs) (k + i) = bs.getD i 0
  | [], _, _, _, _, hi => absurd hi (Nat.not_lt_zero _)
  | b :: bs, m, k, 0, h, _ => by
    unfold memWrN
    rw [memRd_memWrN_other bs _ (by omega)]
    simpa using memRd_memWr_same k b h
  | b :: bs, m, k, i + 1, h, hi => by
    unfold memWrN
    have := memRd_memWrN_same bs (m := memWr m k b) (k + 1) i (memWr_wf k b h) (by simpa using hi)
    rw [show k + (i + 1) = k + 1 + i from by omega, this]
    simp

theorem memRd_filter (p : Host.Cell → Bool) (q : Nat) (hp : ∀ c, p (q, c) = true) : ∀ m : Memory, memRd (m.filter p) q = memRd m q
  | [] => rfl
  | (a, c) :: m => by
    simp only [List.filter_cons]
    split
    · simp only [memRd]
      rw [memRd_filter p q hp m]
    · rename_i hf
      have : a ≠ q := by
        intro e
        subst e
        exact hf (hp c)
      simp only [memRd, if_neg this]
      exact memRd_filter p q hp m

theorem memRd_filter_none (p : Host.Cell → Bool) (q : Nat) (hp : ∀ c, p (q, c) = false) : ∀ m : Memory, memRd (m.filter p) q = 0
  | [] => rfl
  | (a, c) :: m => by
    simp only [List.filter_cons]
    split
    · rename_i hf
      have : a ≠ q := by
        intro e
        subst e
        rw [hp c] at hf
        cases hf
      simp only [memRd, if_neg this]
      exact memRd_filter_none p q hp m
    · exact memRd_filter_none p q hp m

/-- An erased run reads zero. -/
theorem memRd_memZero_in (m : Memory) {k n q : Nat} (h : k ≤ q ∧ q < k + n) : memRd (memZero m k n) q = 0 :=
  memRd_filter_none _ q (fun _ => by simp; omega) m
/-- Outside an erased run nothing changes. -/
theorem memRd_memZero_out (m : Memory) {k n q : Nat} (h : q < k ∨ k + n ≤ q) : memRd (memZero m k n) q = memRd m q :=
  memRd_filter _ q (fun _ => by simp; omega) m

/-! ## Operations that write memory -/

theorem frameRegWr_wf {m : Memory} (g : Group) (r l : Nat) (x : W32) (h : m.wf = true) : (frameRegWr m g r l x).wf = true := memWrV_wf _ _ _ h

theorem uniPut_wf (part : Nat) : ∀ (bs : List Byte) (s : State) (ua : Nat), s.mem.wf = true → (uniPut s part ua bs).mem.wf = true
  | [], _, _, h => h
  | b :: bs, _, ua, h => uniPut_wf part bs _ (ua + 1) (memWr_wf _ b h)

theorem putGM_wf {s : State} (x : GM) (h : x.m.wf = true) : (putGM s x).mem.wf = true := h

theorem uniWr_wf (s : State) (part ua : Nat) (bs : List Byte) (h : s.mem.wf = true) : (uniWr s part ua bs).mem.wf = true := uniPut_wf part bs (forget s _ _) ua h
theorem poolWr_wf (s : State) (k : Nat) (bs : List Byte) (h : s.mem.wf = true) : (poolWr s k bs).mem.wf = true := memWrN_wf bs k h

/-- A fold of steps that each keep the form keeps it. -/
theorem foldl_wf {α : Type} (f : Memory → α → Memory) (hf : ∀ m a, m.wf = true → (f m a).wf = true) :
    ∀ (l : List α) (m : Memory), m.wf = true → (l.foldl f m).wf = true
  | [], _, h => h
  | a :: l, m, h => foldl_wf f hf l _ (hf m a h)
theorem foldl_gm_wf {α : Type} (f : GM → α → GM) (hf : ∀ x a, x.m.wf = true → (f x a).m.wf = true) :
    ∀ (l : List α) (x : GM), x.m.wf = true → (l.foldl f x).m.wf = true
  | [], _, h => h
  | a :: l, x, h => foldl_gm_wf f hf l _ (hf x a h)

theorem entWriteBack_wf {m : Memory} (g : Group) (e : OcEnt) (h : m.wf = true) : (entWriteBack m g e).wf = true :=
  foldl_wf _ (fun _ _ h => frameRegWr_wf g _ _ _ h) _ _ h
theorem touchReg_wf (x : GM) (fill : Bool) (r : Nat) (h : x.m.wf = true) : (touchReg x fill r).m.wf = true := by
  unfold touchReg
  split
  · exact h
  · split
    · dsimp only
      split <;> exact h
    · dsimp only
      split
      · exact entWriteBack_wf _ _ h
      · exact h
theorem dropReg_wf (x : GM) (r : Nat) (h : x.m.wf = true) : (dropReg x r).m.wf = true := by
  unfold dropReg
  split
  · exact h
  · split <;> exact h
theorem ocWriteBackAll_wf (x : GM) (h : x.m.wf = true) : (ocWriteBackAll x).m.wf = true := by
  unfold ocWriteBackAll
  split
  · exact h
  · exact foldl_wf _ (fun _ e h => entWriteBack_wf x.g e h) _ _ h
theorem ocRelease_wf (x : GM) (h : x.m.wf = true) : (ocRelease x).m.wf = true := by
  unfold ocRelease
  split
  · exact h
  · exact foldl_wf _ (fun _ e h => entWriteBack_wf x.g e h) _ _ h
theorem regNote_m (x : GM) (r l : Nat) : (regNote x r l).m = x.m := by
  unfold regNote
  split <;> rfl
theorem putReg_wf (x : GM) (r l : Nat) (v : W32) (t : Bool) (h : x.m.wf = true) : (putReg x r l v t).m.wf = true := by
  unfold putReg
  replace h : (regNote x r l).m.wf = true := by rw [regNote_m]; exact h
  dsimp only
  split
  · exact frameRegWr_wf _ _ _ _ h
  · split
    · exact frameRegWr_wf _ _ _ _ h
    · dsimp only
      split
      · exact frameRegWr_wf _ _ _ _ h
      · exact h
theorem landWrite_wf (x : GM) (w : RegWrite) (h : x.m.wf = true) : (landWrite x w).m.wf = true := by
  cases w with
  | vreg r vs t => exact foldl_gm_wf _ (fun x v h => putReg_wf x r v.1 v.2 t h) vs x h
  | _ => exact h
theorem landList_wf (x : GM) (ps : List Pend) (h : x.m.wf = true) : (landList x ps).m.wf = true :=
  foldl_gm_wf _ (fun x p h => landWrite_wf x p.w h) ps x h
theorem landAt_wf (x : GM) (pos : Nat) (h : x.m.wf = true) : (landAt x pos).m.wf = true := landList_wf _ _ h
theorem landAll_wf (x : GM) (h : x.m.wf = true) : (landAll x).m.wf = true := landList_wf _ _ h

theorem takeTrap_wf (s : State) (gid cause sub : Nat) (lanes : Mask) (addr word : W64) (pc resume : Nat) (rem : Option Clause) (h : s.mem.wf = true) :
    (takeTrap s gid cause sub lanes addr word pc resume rem).mem.wf = true := by
  unfold takeTrap
  split
  · exact h
  · rename_i g0 _
    have hm : (landAll (gmOf s g0)).m.wf = true := landAll_wf _ h
    dsimp only
    split
    · exact hm
    · split <;> exact hm

end Sys2Proof.Machine
end

