-- ==== Sys2Proof/Laws/PerInstr.lean ====
section
/-! SUPPORT. Sys2Proof/Laws/PerInstr.lean: one lemma per constructor: a row's encoding, where it has one, is a 64-bit word that is no clause header (R45, R67). -/

namespace Sys2Proof.Laws

open Sys2Proof Sys2Proof.Machine

theorem opdCode_lt (o : Opd) : opdCode o < 256 := by
  cases o <;> simp only [opdCode] <;> omega
theorem tyCode_lt (t : Ty) : tyCode t < 16 := by cases t <;> decide
theorem scopeCode_lt (s : Scope) : scopeCode s < 8 := by cases s <;> decide
theorem orderCode_lt (o : Order) : orderCode o < 4 := by cases o <;> decide
theorem b2n_lt (b : Bool) : b2n b < 2 := by cases b <;> decide

/-- A word below 2^64 that is no header (R45). -/
def InstrWord (w : Nat) : Prop := w < 2 ^ 64 ∧ fld w 58 6 ≠ 63

/-- The common fields and 51 bits below them make an instruction word. -/
theorem guard_word (op : Nat) (gd : Guard) (r : Nat) (ho : op < 0xF0) (hr : r < 2 ^ 51) : InstrWord (encGuard op gd + r) := by
  unfold InstrWord encGuard fld
  have h1 := b2n_lt gd.sw
  have h2 := b2n_lt gd.pn
  have h3 := gd.pk.isLt
  omega

theorem encR_word (op : Nat) (f : FormR) (ho : op < 0xF0) : InstrWord (encR op f) := by
  have h : encR op f = encGuard op f.gd + (opdCode f.d * 2 ^ 43 + opdCode f.a * 2 ^ 35 + opdCode f.b * 2 ^ 27 + opdCode f.c * 2 ^ 19 + tyCode f.ty * 2 ^ 15 + f.mod.toNat * 2 ^ 12 + f.lu.toNat * 2 ^ 9 + b2n f.sn * 2 ^ 8 + f.ext.toNat) := by
    unfold encR
    omega
  rw [h]
  have hd := opdCode_lt f.d
  have ha := opdCode_lt f.a
  have hb := opdCode_lt f.b
  have hc := opdCode_lt f.c
  have ht := tyCode_lt f.ty
  have gmod := f.mod.isLt
  have glu := f.lu.isLt
  have gext := f.ext.isLt
  have bsn := b2n_lt f.sn
  exact guard_word op f.gd _ ho (by omega)

theorem encI_word (op : Nat) (f : FormI) (ho : op < 0xF0) : InstrWord (encI op f) := by
  have h : encI op f = encGuard op f.gd + (opdCode f.d * 2 ^ 43 + tyCode f.ty * 2 ^ 39 + f.mod.toNat * 2 ^ 36 + b2n f.sn * 2 ^ 35 + f.rsv.toNat * 2 ^ 32 + f.imm.toNat) := by
    unfold encI
    omega
  rw [h]
  have hd := opdCode_lt f.d
  have ht := tyCode_lt f.ty
  have gmod := f.mod.isLt
  have grsv := f.rsv.isLt
  have gimm := f.imm.isLt
  have bsn := b2n_lt f.sn
  exact guard_word op f.gd _ ho (by omega)

theorem encM_word (op : Nat) (f : FormM) (ho : op < 0xF0) : InstrWord (encM op f) := by
  have h : encM op f = encGuard op f.gd + (opdCode f.d * 2 ^ 43 + opdCode f.a * 2 ^ 35 + opdCode f.b * 2 ^ 27 + scopeCode f.scope * 2 ^ 24 + orderCode f.order * 2 ^ 22 + f.size.toNat * 2 ^ 19 + f.sub.toNat * 2 ^ 15 + f.lu.toNat * 2 ^ 13 + b2n f.sn * 2 ^ 12 + f.off.toNat) := by
    unfold encM
    omega
  rw [h]
  have hd := opdCode_lt f.d
  have ha := opdCode_lt f.a
  have hb := opdCode_lt f.b
  have hs := scopeCode_lt f.scope
  have hr := orderCode_lt f.order
  have gsize := f.size.isLt
  have gsub := f.sub.isLt
  have glu := f.lu.isLt
  have goff := f.off.isLt
  have bsn := b2n_lt f.sn
  exact guard_word op f.gd _ ho (by omega)

theorem encJ_word (op : Nat) (f : FormJ) (ho : op < 0xF0) : InstrWord (encJ op f) := by
  have h : encJ op f = encGuard op f.gd + (f.off.toNat * 2 ^ 19 + f.hint.toNat * 2 ^ 17 + f.ck.toNat * 2 ^ 14 + b2n f.cn * 2 ^ 13 + f.opd.toNat * 2 ^ 5 + f.rsv.toNat) := by
    unfold encJ
    omega
  rw [h]
  have goff := f.off.isLt
  have ghint := f.hint.isLt
  have gck := f.ck.isLt
  have gopd := f.opd.isLt
  have grsv := f.rsv.isLt
  have bcn := b2n_lt f.cn
  exact guard_word op f.gd _ ho (by omega)

theorem encQ_word (op : Nat) (f : FormQ) (ho : op < 0xF0) : InstrWord (encQ op f) := by
  have h : encQ op f = encGuard op f.gd + (opdCode f.d * 2 ^ 43 + opdCode f.a * 2 ^ 35 + opdCode f.b * 2 ^ 27 + f.fmt.toNat * 2 ^ 22 + scopeCode f.scope * 2 ^ 19 + f.sub.toNat * 2 ^ 11 + f.lu.toNat * 2 ^ 9 + b2n f.sn * 2 ^ 8 + f.ext.toNat) := by
    unfold encQ
    omega
  rw [h]
  have hd := opdCode_lt f.d
  have ha := opdCode_lt f.a
  have hb := opdCode_lt f.b
  have hs := scopeCode_lt f.scope
  have gfmt := f.fmt.isLt
  have gsub := f.sub.isLt
  have glu := f.lu.isLt
  have gext := f.ext.isLt
  have bsn := b2n_lt f.sn
  exact guard_word op f.gd _ ho (by omega)

/-- The word of a row that encodes to this one. -/
theorem word_of {w v : Nat} (h : InstrWord v) (e : some v = some w) : InstrWord w := Option.some.inj e ▸ h
/-- A row without a word. -/
theorem no_word {w : Nat} (e : (none : Option Nat) = some w) : InstrWord w := nomatch e

/-- Whatever word an instruction encodes to is an instruction word; a step of the part encodes to none. -/
def EncodedWord.Statement (i : Instr) : Prop := ∀ w, encodeNat i = some w → InstrWord w

theorem EncodedWord.nop (f : FormR) : EncodedWord.Statement (.nop f) := fun _ e => word_of (encR_word 0x00 f (by decide)) e
theorem EncodedWord.mov (f : FormR) : EncodedWord.Statement (.mov f) := fun _ e => word_of (encR_word 0x01 f (by decide)) e
theorem EncodedWord.movi (f : FormI) : EncodedWord.Statement (.movi f) := fun _ e => word_of (encI_word 0x02 f (by decide)) e
theorem EncodedWord.movh (f : FormI) : EncodedWord.Statement (.movh f) := fun _ e => word_of (encI_word 0x03 f (by decide)) e
theorem EncodedWord.sel (f : FormR) : EncodedWord.Statement (.sel f) := fun _ e => word_of (encR_word 0x04 f (by decide)) e
theorem EncodedWord.iadd (f : FormR) : EncodedWord.Statement (.iadd f) := fun _ e => word_of (encR_word 0x05 f (by decide)) e
theorem EncodedWord.isub (f : FormR) : EncodedWord.Statement (.isub f) := fun _ e => word_of (encR_word 0x06 f (by decide)) e
theorem EncodedWord.iaddc (f : FormR) : EncodedWord.Statement (.iaddc f) := fun _ e => word_of (encR_word 0x07 f (by decide)) e
theorem EncodedWord.isubb (f : FormR) : EncodedWord.Statement (.isubb f) := fun _ e => word_of (encR_word 0x08 f (by decide)) e
theorem EncodedWord.ineg (f : FormR) : EncodedWord.Statement (.ineg f) := fun _ e => word_of (encR_word 0x09 f (by decide)) e
theorem EncodedWord.iabs (f : FormR) : EncodedWord.Statement (.iabs f) := fun _ e => word_of (encR_word 0x0A f (by decide)) e
theorem EncodedWord.imin (f : FormR) : EncodedWord.Statement (.imin f) := fun _ e => word_of (encR_word 0x0B f (by decide)) e
theorem EncodedWord.imax (f : FormR) : EncodedWord.Statement (.imax f) := fun _ e => word_of (encR_word 0x0C f (by decide)) e
theorem EncodedWord.imul (f : FormR) : EncodedWord.Statement (.imul f) := fun _ e => word_of (encR_word 0x0D f (by decide)) e
theorem EncodedWord.imulh (f : FormR) : EncodedWord.Statement (.imulh f) := fun _ e => word_of (encR_word 0x0E f (by decide)) e
theorem EncodedWord.imad (f : FormR) : EncodedWord.Statement (.imad f) := fun _ e => word_of (encR_word 0x0F f (by decide)) e
theorem EncodedWord.imadw (f : FormR) : EncodedWord.Statement (.imadw f) := fun _ e => word_of (encR_word 0x10 f (by decide)) e
theorem EncodedWord.idiv (f : FormR) : EncodedWord.Statement (.idiv f) := fun _ e => word_of (encR_word 0x11 f (by decide)) e
theorem EncodedWord.irem (f : FormR) : EncodedWord.Statement (.irem f) := fun _ e => word_of (encR_word 0x12 f (by decide)) e
theorem EncodedWord.icmp (f : FormR) : EncodedWord.Statement (.icmp f) := fun _ e => word_of (encR_word 0x13 f (by decide)) e
theorem EncodedWord.and (f : FormR) : EncodedWord.Statement (.and f) := fun _ e => word_of (encR_word 0x14 f (by decide)) e
theorem EncodedWord.or (f : FormR) : EncodedWord.Statement (.or f) := fun _ e => word_of (encR_word 0x15 f (by decide)) e
theorem EncodedWord.xor (f : FormR) : EncodedWord.Statement (.xor f) := fun _ e => word_of (encR_word 0x16 f (by decide)) e
theorem EncodedWord.not (f : FormR) : EncodedWord.Statement (.not f) := fun _ e => word_of (encR_word 0x17 f (by decide)) e
theorem EncodedWord.andn (f : FormR) : EncodedWord.Statement (.andn f) := fun _ e => word_of (encR_word 0x18 f (by decide)) e
theorem EncodedWord.shl (f : FormR) : EncodedWord.Statement (.shl f) := fun _ e => word_of (encR_word 0x19 f (by decide)) e
theorem EncodedWord.shr (f : FormR) : EncodedWord.Statement (.shr f) := fun _ e => word_of (encR_word 0x1A f (by decide)) e
theorem EncodedWord.sar (f : FormR) : EncodedWord.Statement (.sar f) := fun _ e => word_of (encR_word 0x1B f (by decide)) e
theorem EncodedWord.rot (f : FormR) : EncodedWord.Statement (.rot f) := fun _ e => word_of (encR_word 0x1C f (by decide)) e
theorem EncodedWord.funnel (f : FormR) : EncodedWord.Statement (.funnel f) := fun _ e => word_of (encR_word 0x1D f (by decide)) e
theorem EncodedWord.bfe (f : FormR) : EncodedWord.Statement (.bfe f) := fun _ e => word_of (encR_word 0x1E f (by decide)) e
theorem EncodedWord.bfi (f : FormR) : EncodedWord.Statement (.bfi f) := fun _ e => word_of (encR_word 0x1F f (by decide)) e
theorem EncodedWord.popc (f : FormR) : EncodedWord.Statement (.popc f) := fun _ e => word_of (encR_word 0x20 f (by decide)) e
theorem EncodedWord.clz (f : FormR) : EncodedWord.Statement (.clz f) := fun _ e => word_of (encR_word 0x21 f (by decide)) e
theorem EncodedWord.ctz (f : FormR) : EncodedWord.Statement (.ctz f) := fun _ e => word_of (encR_word 0x22 f (by decide)) e
theorem EncodedWord.brev (f : FormR) : EncodedWord.Statement (.brev f) := fun _ e => word_of (encR_word 0x23 f (by decide)) e
theorem EncodedWord.bperm (f : FormR) : EncodedWord.Statement (.bperm f) := fun _ e => word_of (encR_word 0x24 f (by decide)) e
theorem EncodedWord.lea (f : FormR) : EncodedWord.Statement (.lea f) := fun _ e => word_of (encR_word 0x25 f (by decide)) e
theorem EncodedWord.ptrmk (f : FormR) : EncodedWord.Statement (.ptrmk f) := fun _ e => word_of (encR_word 0x26 f (by decide)) e
theorem EncodedWord.ptradd (f : FormR) : EncodedWord.Statement (.ptradd f) := fun _ e => word_of (encR_word 0x27 f (by decide)) e
theorem EncodedWord.ptrget (f : FormR) : EncodedWord.Statement (.ptrget f) := fun _ e => word_of (encR_word 0x28 f (by decide)) e
theorem EncodedWord.lshuf (f : FormR) : EncodedWord.Statement (.lshuf f) := fun _ e => word_of (encR_word 0x29 f (by decide)) e
theorem EncodedWord.lbcast (f : FormR) : EncodedWord.Statement (.lbcast f) := fun _ e => word_of (encR_word 0x2A f (by decide)) e
theorem EncodedWord.lvote (f : FormR) : EncodedWord.Statement (.lvote f) := fun _ e => word_of (encR_word 0x2B f (by decide)) e
theorem EncodedWord.lscan (f : FormR) : EncodedWord.Statement (.lscan f) := fun _ e => word_of (encR_word 0x2C f (by decide)) e
theorem EncodedWord.lreduce (f : FormR) : EncodedWord.Statement (.lreduce f) := fun _ e => word_of (encR_word 0x2D f (by decide)) e
theorem EncodedWord.kop (f : FormR) : EncodedWord.Statement (.kop f) := fun _ e => word_of (encR_word 0x2E f (by decide)) e
theorem EncodedWord.kmov (f : FormR) : EncodedWord.Statement (.kmov f) := fun _ e => word_of (encR_word 0x2F f (by decide)) e
theorem EncodedWord.fadd (f : FormR) : EncodedWord.Statement (.fadd f) := fun _ e => word_of (encR_word 0x30 f (by decide)) e
theorem EncodedWord.fsub (f : FormR) : EncodedWord.Statement (.fsub f) := fun _ e => word_of (encR_word 0x31 f (by decide)) e
theorem EncodedWord.fmul (f : FormR) : EncodedWord.Statement (.fmul f) := fun _ e => word_of (encR_word 0x32 f (by decide)) e
theorem EncodedWord.ffma (f : FormR) : EncodedWord.Statement (.ffma f) := fun _ e => word_of (encR_word 0x33 f (by decide)) e
theorem EncodedWord.fmin (f : FormR) : EncodedWord.Statement (.fmin f) := fun _ e => word_of (encR_word 0x34 f (by decide)) e
theorem EncodedWord.fmax (f : FormR) : EncodedWord.Statement (.fmax f) := fun _ e => word_of (encR_word 0x35 f (by decide)) e
theorem EncodedWord.fminnum (f : FormR) : EncodedWord.Statement (.fminnum f) := fun _ e => word_of (encR_word 0x36 f (by decide)) e
theorem EncodedWord.fmaxnum (f : FormR) : EncodedWord.Statement (.fmaxnum f) := fun _ e => word_of (encR_word 0x37 f (by decide)) e
theorem EncodedWord.fcmp (f : FormR) : EncodedWord.Statement (.fcmp f) := fun _ e => word_of (encR_word 0x38 f (by decide)) e
theorem EncodedWord.fclass (f : FormR) : EncodedWord.Statement (.fclass f) := fun _ e => word_of (encR_word 0x39 f (by decide)) e
theorem EncodedWord.frnd (f : FormR) : EncodedWord.Statement (.frnd f) := fun _ e => word_of (encR_word 0x3A f (by decide)) e
theorem EncodedWord.ffrac (f : FormR) : EncodedWord.Statement (.ffrac f) := fun _ e => word_of (encR_word 0x3B f (by decide)) e
theorem EncodedWord.fscale (f : FormR) : EncodedWord.Statement (.fscale f) := fun _ e => word_of (encR_word 0x3C f (by decide)) e
theorem EncodedWord.fgetexp (f : FormR) : EncodedWord.Statement (.fgetexp f) := fun _ e => word_of (encR_word 0x3D f (by decide)) e
theorem EncodedWord.frcp (f : FormR) : EncodedWord.Statement (.frcp f) := fun _ e => word_of (encR_word 0x3E f (by decide)) e
theorem EncodedWord.frsq (f : FormR) : EncodedWord.Statement (.frsq f) := fun _ e => word_of (encR_word 0x3F f (by decide)) e
theorem EncodedWord.fsqrt (f : FormR) : EncodedWord.Statement (.fsqrt f) := fun _ e => word_of (encR_word 0x40 f (by decide)) e
theorem EncodedWord.fdiv (f : FormR) : EncodedWord.Statement (.fdiv f) := fun _ e => word_of (encR_word 0x41 f (by decide)) e
theorem EncodedWord.fexp2 (f : FormR) : EncodedWord.Statement (.fexp2 f) := fun _ e => word_of (encR_word 0x42 f (by decide)) e
theorem EncodedWord.flog2 (f : FormR) : EncodedWord.Statement (.flog2 f) := fun _ e => word_of (encR_word 0x43 f (by decide)) e
theorem EncodedWord.fsin (f : FormR) : EncodedWord.Statement (.fsin f) := fun _ e => word_of (encR_word 0x44 f (by decide)) e
theorem EncodedWord.fcos (f : FormR) : EncodedWord.Statement (.fcos f) := fun _ e => word_of (encR_word 0x45 f (by decide)) e
theorem EncodedWord.ftanh (f : FormR) : EncodedWord.Statement (.ftanh f) := fun _ e => word_of (encR_word 0x46 f (by decide)) e
theorem EncodedWord.fsigm (f : FormR) : EncodedWord.Statement (.fsigm f) := fun _ e => word_of (encR_word 0x47 f (by decide)) e
theorem EncodedWord.cvtf (f : FormR) : EncodedWord.Statement (.cvtf f) := fun _ e => word_of (encR_word 0x48 f (by decide)) e
theorem EncodedWord.cvti (f : FormR) : EncodedWord.Statement (.cvti f) := fun _ e => word_of (encR_word 0x49 f (by decide)) e
theorem EncodedWord.cvtfi (f : FormR) : EncodedWord.Statement (.cvtfi f) := fun _ e => word_of (encR_word 0x4A f (by decide)) e
theorem EncodedWord.fpack (f : FormR) : EncodedWord.Statement (.fpack f) := fun _ e => word_of (encR_word 0x4B f (by decide)) e
theorem EncodedWord.funpack (f : FormR) : EncodedWord.Statement (.funpack f) := fun _ e => word_of (encR_word 0x4C f (by decide)) e
theorem EncodedWord.qnt (f : FormR) : EncodedWord.Statement (.qnt f) := fun _ e => word_of (encR_word 0x4D f (by decide)) e
theorem EncodedWord.dqnt (f : FormR) : EncodedWord.Statement (.dqnt f) := fun _ e => word_of (encR_word 0x4E f (by decide)) e
theorem EncodedWord.fdot2 (f : FormR) : EncodedWord.Statement (.fdot2 f) := fun _ e => word_of (encR_word 0x4F f (by decide)) e
theorem EncodedWord.fdot4 (f : FormR) : EncodedWord.Statement (.fdot4 f) := fun _ e => word_of (encR_word 0x50 f (by decide)) e
theorem EncodedWord.fdot8 (f : FormR) : EncodedWord.Statement (.fdot8 f) := fun _ e => word_of (encR_word 0x51 f (by decide)) e
theorem EncodedWord.ld (f : FormM) : EncodedWord.Statement (.ld f) := fun _ e => word_of (encM_word 0x60 f (by decide)) e
theorem EncodedWord.st (f : FormM) : EncodedWord.Statement (.st f) := fun _ e => word_of (encM_word 0x61 f (by decide)) e
theorem EncodedWord.ldnp (f : FormM) : EncodedWord.Statement (.ldnp f) := fun _ e => word_of (encM_word 0x62 f (by decide)) e
theorem EncodedWord.ldb (f : FormM) : EncodedWord.Statement (.ldb f) := fun _ e => word_of (encM_word 0x63 f (by decide)) e
theorem EncodedWord.atom (f : FormM) : EncodedWord.Statement (.atom f) := fun _ e => word_of (encM_word 0x64 f (by decide)) e
theorem EncodedWord.acas (f : FormM) : EncodedWord.Statement (.acas f) := fun _ e => word_of (encM_word 0x65 f (by decide)) e
theorem EncodedWord.red (f : FormM) : EncodedWord.Statement (.red f) := fun _ e => word_of (encM_word 0x66 f (by decide)) e
theorem EncodedWord.fence (f : FormM) : EncodedWord.Statement (.fence f) := fun _ e => word_of (encM_word 0x67 f (by decide)) e
theorem EncodedWord.pgrow (f : FormR) : EncodedWord.Statement (.pgrow f) := fun _ e => word_of (encR_word 0x68 f (by decide)) e
theorem EncodedWord.pshrink (f : FormR) : EncodedWord.Statement (.pshrink f) := fun _ e => word_of (encR_word 0x69 f (by decide)) e
theorem EncodedWord.fgrow (f : FormR) : EncodedWord.Statement (.fgrow f) := fun _ e => word_of (encR_word 0x6A f (by decide)) e
theorem EncodedWord.fshrink (f : FormR) : EncodedWord.Statement (.fshrink f) := fun _ e => word_of (encR_word 0x6B f (by decide)) e
theorem EncodedWord.ocfill (f : FormR) : EncodedWord.Statement (.ocfill f) := fun _ e => word_of (encR_word 0x6C f (by decide)) e
theorem EncodedWord.ocdrop (f : FormR) : EncodedWord.Statement (.ocdrop f) := fun _ e => word_of (encR_word 0x6D f (by decide)) e
theorem EncodedWord.ocsync (f : FormR) : EncodedWord.Statement (.ocsync f) := fun _ e => word_of (encR_word 0x6E f (by decide)) e
theorem EncodedWord.lpin (f : FormM) : EncodedWord.Statement (.lpin f) := fun _ e => word_of (encM_word 0x6F f (by decide)) e
theorem EncodedWord.lunpin (f : FormM) : EncodedWord.Statement (.lunpin f) := fun _ e => word_of (encM_word 0x70 f (by decide)) e
theorem EncodedWord.linv (f : FormM) : EncodedWord.Statement (.linv f) := fun _ e => word_of (encM_word 0x71 f (by decide)) e
theorem EncodedWord.lwb (f : FormM) : EncodedWord.Statement (.lwb f) := fun _ e => word_of (encM_word 0x72 f (by decide)) e
theorem EncodedWord.pres (f : FormM) : EncodedWord.Statement (.pres f) := fun _ e => word_of (encM_word 0x73 f (by decide)) e
theorem EncodedWord.objq (f : FormR) : EncodedWord.Statement (.objq f) := fun _ e => word_of (encR_word 0x74 f (by decide)) e
theorem EncodedWord.ptrchk (f : FormR) : EncodedWord.Statement (.ptrchk f) := fun _ e => word_of (encR_word 0x75 f (by decide)) e
theorem EncodedWord.advise (f : FormM) : EncodedWord.Statement (.advise f) := fun _ e => word_of (encM_word 0x76 f (by decide)) e
theorem EncodedWord.bra (f : FormJ) : EncodedWord.Statement (.bra f) := fun _ e => word_of (encJ_word 0x80 f (by decide)) e
theorem EncodedWord.brc (f : FormJ) : EncodedWord.Statement (.brc f) := fun _ e => word_of (encJ_word 0x81 f (by decide)) e
theorem EncodedWord.brx (f : FormR) : EncodedWord.Statement (.brx f) := fun _ e => word_of (encR_word 0x82 f (by decide)) e
theorem EncodedWord.call (f : FormJ) : EncodedWord.Statement (.call f) := fun _ e => word_of (encJ_word 0x83 f (by decide)) e
theorem EncodedWord.callx (f : FormR) : EncodedWord.Statement (.callx f) := fun _ e => word_of (encR_word 0x84 f (by decide)) e
theorem EncodedWord.ret (f : FormR) : EncodedWord.Statement (.ret f) := fun _ e => word_of (encR_word 0x85 f (by decide)) e
theorem EncodedWord.loop (f : FormJ) : EncodedWord.Statement (.loop f) := fun _ e => word_of (encJ_word 0x86 f (by decide)) e
theorem EncodedWord.fspawn (f : FormJ) : EncodedWord.Statement (.fspawn f) := fun _ e => word_of (encJ_word 0x87 f (by decide)) e
theorem EncodedWord.fend (f : FormR) : EncodedWord.Statement (.fend f) := fun _ e => word_of (encR_word 0x88 f (by decide)) e
theorem EncodedWord.fyield (f : FormR) : EncodedWord.Statement (.fyield f) := fun _ e => word_of (encR_word 0x89 f (by decide)) e
theorem EncodedWord.exit (f : FormR) : EncodedWord.Statement (.exit f) := fun _ e => word_of (encR_word 0x8A f (by decide)) e
theorem EncodedWord.sleep (f : FormR) : EncodedWord.Statement (.sleep f) := fun _ e => word_of (encR_word 0x8B f (by decide)) e
theorem EncodedWord.gets (f : FormR) : EncodedWord.Statement (.gets f) := fun _ e => word_of (encR_word 0x8C f (by decide)) e
theorem EncodedWord.sets (f : FormR) : EncodedWord.Statement (.sets f) := fun _ e => word_of (encR_word 0x8D f (by decide)) e
theorem EncodedWord.trap (f : FormR) : EncodedWord.Statement (.trap f) := fun _ e => word_of (encR_word 0x90 f (by decide)) e
theorem EncodedWord.tret (f : FormR) : EncodedWord.Statement (.tret f) := fun _ e => word_of (encR_word 0x91 f (by decide)) e
theorem EncodedWord.tmask (f : FormR) : EncodedWord.Statement (.tmask f) := fun _ e => word_of (encR_word 0x92 f (by decide)) e
theorem EncodedWord.tinfo (f : FormR) : EncodedWord.Statement (.tinfo f) := fun _ e => word_of (encR_word 0x93 f (by decide)) e
theorem EncodedWord.tsub (f : FormR) : EncodedWord.Statement (.tsub f) := fun _ e => word_of (encR_word 0x94 f (by decide)) e
theorem EncodedWord.ctxsave (f : FormR) : EncodedWord.Statement (.ctxsave f) := fun _ e => word_of (encR_word 0x95 f (by decide)) e
theorem EncodedWord.ctxload (f : FormR) : EncodedWord.Statement (.ctxload f) := fun _ e => word_of (encR_word 0x96 f (by decide)) e
theorem EncodedWord.halt (f : FormR) : EncodedWord.Statement (.halt f) := fun _ e => word_of (encR_word 0x97 f (by decide)) e
theorem EncodedWord.preq (f : FormR) : EncodedWord.Statement (.preq f) := fun _ e => word_of (encR_word 0x98 f (by decide)) e
theorem EncodedWord.binit (f : FormM) : EncodedWord.Statement (.binit f) := fun _ e => word_of (encM_word 0xA0 f (by decide)) e
theorem EncodedWord.barv (f : FormM) : EncodedWord.Statement (.barv f) := fun _ e => word_of (encM_word 0xA1 f (by decide)) e
theorem EncodedWord.bexp (f : FormM) : EncodedWord.Statement (.bexp f) := fun _ e => word_of (encM_word 0xA2 f (by decide)) e
theorem EncodedWord.bwait (f : FormM) : EncodedWord.Statement (.bwait f) := fun _ e => word_of (encM_word 0xA3 f (by decide)) e
theorem EncodedWord.bcont (f : FormJ) : EncodedWord.Statement (.bcont f) := fun _ e => word_of (encJ_word 0xA4 f (by decide)) e
theorem EncodedWord.await (f : FormM) : EncodedWord.Statement (.await f) := fun _ e => word_of (encM_word 0xA5 f (by decide)) e
theorem EncodedWord.watch (f : FormM) : EncodedWord.Statement (.watch f) := fun _ e => word_of (encM_word 0xA6 f (by decide)) e
theorem EncodedWord.pause (f : FormR) : EncodedWord.Statement (.pause f) := fun _ e => word_of (encR_word 0xA7 f (by decide)) e
theorem EncodedWord.tbar (f : FormR) : EncodedWord.Statement (.tbar f) := fun _ e => word_of (encR_word 0xA8 f (by decide)) e
theorem EncodedWord.sbar (f : FormR) : EncodedWord.Statement (.sbar f) := fun _ e => word_of (encR_word 0xA9 f (by decide)) e
theorem EncodedWord.gbar (f : FormR) : EncodedWord.Statement (.gbar f) := fun _ e => word_of (encR_word 0xAA f (by decide)) e
theorem EncodedWord.cpy (f : FormQ) : EncodedWord.Statement (.cpy f) := fun _ e => word_of (encQ_word 0xB0 f (by decide)) e
theorem EncodedWord.gath (f : FormQ) : EncodedWord.Statement (.gath f) := fun _ e => word_of (encQ_word 0xB1 f (by decide)) e
theorem EncodedWord.scat (f : FormQ) : EncodedWord.Statement (.scat f) := fun _ e => word_of (encQ_word 0xB2 f (by decide)) e
theorem EncodedWord.cfill (f : FormQ) : EncodedWord.Statement (.cfill f) := fun _ e => word_of (encQ_word 0xB3 f (by decide)) e
theorem EncodedWord.orsv (f : FormQ) : EncodedWord.Statement (.orsv f) := fun _ e => word_of (encQ_word 0xB8 f (by decide)) e
theorem EncodedWord.orel (f : FormQ) : EncodedWord.Statement (.orel f) := fun _ e => word_of (encQ_word 0xB9 f (by decide)) e
theorem EncodedWord.oqry (f : FormQ) : EncodedWord.Statement (.oqry f) := fun _ e => word_of (encQ_word 0xBA f (by decide)) e
theorem EncodedWord.mma (f : FormQ) : EncodedWord.Statement (.mma f) := fun _ e => word_of (encQ_word 0xBB f (by decide)) e
theorem EncodedWord.azero (f : FormQ) : EncodedWord.Statement (.azero f) := fun _ e => word_of (encQ_word 0xBC f (by decide)) e
theorem EncodedWord.amov (f : FormQ) : EncodedWord.Statement (.amov f) := fun _ e => word_of (encQ_word 0xBD f (by decide)) e
theorem EncodedWord.ains (f : FormQ) : EncodedWord.Statement (.ains f) := fun _ e => word_of (encQ_word 0xBE f (by decide)) e
theorem EncodedWord.adrain (f : FormQ) : EncodedWord.Statement (.adrain f) := fun _ e => word_of (encQ_word 0xBF f (by decide)) e
theorem EncodedWord.jst (f : FormM) : EncodedWord.Statement (.jst f) := fun _ e => word_of (encM_word 0xC8 f (by decide)) e
theorem EncodedWord.jld (f : FormM) : EncodedWord.Statement (.jld f) := fun _ e => word_of (encM_word 0xC9 f (by decide)) e
theorem EncodedWord.jldn (f : FormM) : EncodedWord.Statement (.jldn f) := fun _ e => word_of (encM_word 0xCA f (by decide)) e
theorem EncodedWord.jadd (f : FormM) : EncodedWord.Statement (.jadd f) := fun _ e => word_of (encM_word 0xCB f (by decide)) e
theorem EncodedWord.jtrade (f : FormQ) : EncodedWord.Statement (.jtrade f) := fun _ e => word_of (encQ_word 0xCC f (by decide)) e
theorem EncodedWord.jqry (f : FormQ) : EncodedWord.Statement (.jqry f) := fun _ e => word_of (encQ_word 0xCD f (by decide)) e
theorem EncodedWord.coll (f : FormQ) : EncodedWord.Statement (.coll f) := fun _ e => word_of (encQ_word 0xD0 f (by decide)) e
theorem EncodedWord.xfence (f : FormM) : EncodedWord.Statement (.xfence f) := fun _ e => word_of (encM_word 0xD1 f (by decide)) e
theorem EncodedWord.xqry (f : FormQ) : EncodedWord.Statement (.xqry f) := fun _ e => word_of (encQ_word 0xD2 f (by decide)) e
theorem EncodedWord.pwrq (f : FormR) : EncodedWord.Statement (.pwrq f) := fun _ e => word_of (encR_word 0xD8 f (by decide)) e
theorem EncodedWord.pwrarm (f : FormR) : EncodedWord.Statement (.pwrarm f) := fun _ e => word_of (encR_word 0xD9 f (by decide)) e
theorem EncodedWord.veerhold (f : FormR) : EncodedWord.Statement (.veerhold f) := fun _ e => word_of (encR_word 0xDA f (by decide)) e
theorem EncodedWord.tclaim (f : FormR) : EncodedWord.Statement (.tclaim f) := fun _ e => word_of (encR_word 0xE0 f (by decide)) e
theorem EncodedWord.tplace (f : FormR) : EncodedWord.Statement (.tplace f) := fun _ e => word_of (encR_word 0xE1 f (by decide)) e
theorem EncodedWord.gdec (f : FormR) : EncodedWord.Statement (.gdec f) := fun _ e => word_of (encR_word 0xE2 f (by decide)) e
theorem EncodedWord.qtake (f : FormR) : EncodedWord.Statement (.qtake f) := fun _ e => word_of (encR_word 0xE3 f (by decide)) e
theorem EncodedWord.qack (f : FormR) : EncodedWord.Statement (.qack f) := fun _ e => word_of (encR_word 0xE4 f (by decide)) e
theorem EncodedWord.clauseStart : ∀ g refetch, EncodedWord.Statement (.clauseStart g refetch) := fun _ _ _ e => no_word e
theorem EncodedWord.clauseBoundary : ∀ g, EncodedWord.Statement (.clauseBoundary g) := fun _ _ e => no_word e
theorem EncodedWord.sliceIssue : ∀ core slice, EncodedWord.Statement (.sliceIssue core slice) := fun _ _ _ e => no_word e
theorem EncodedWord.groupUrgent : ∀ g, EncodedWord.Statement (.groupUrgent g) := fun _ _ e => no_word e
theorem EncodedWord.fixedLatencyLanding : ∀ g, EncodedWord.Statement (.fixedLatencyLanding g) := fun _ _ e => no_word e
theorem EncodedWord.switchPoint : ∀ g, EncodedWord.Statement (.switchPoint g) := fun _ _ e => no_word e
theorem EncodedWord.entrySetAcquire : ∀ g, EncodedWord.Statement (.entrySetAcquire g) := fun _ _ e => no_word e
theorem EncodedWord.operandCacheFillDone : ∀ g, EncodedWord.Statement (.operandCacheFillDone g) := fun _ _ e => no_word e
theorem EncodedWord.ocdropComplete : ∀ op, EncodedWord.Statement (.ocdropComplete op) := fun _ _ e => no_word e
theorem EncodedWord.ocsyncComplete : ∀ op, EncodedWord.Statement (.ocsyncComplete op) := fun _ _ e => no_word e
theorem EncodedWord.poolLoadReturn : ∀ op acc, EncodedWord.Statement (.poolLoadReturn op acc) := fun _ _ _ e => no_word e
theorem EncodedWord.storePerformed : ∀ op acc, EncodedWord.Statement (.storePerformed op acc) := fun _ _ _ e => no_word e
theorem EncodedWord.atomicPerformed : ∀ op lanes, EncodedWord.Statement (.atomicPerformed op lanes) := fun _ _ _ e => no_word e
theorem EncodedWord.parkedLoadWake : ∀ op, EncodedWord.Statement (.parkedLoadWake op) := fun _ _ e => no_word e
theorem EncodedWord.fenceDrainDone : ∀ g, EncodedWord.Statement (.fenceDrainDone g) := fun _ _ e => no_word e
theorem EncodedWord.objectCacheFill : ∀ core obj, EncodedWord.Statement (.objectCacheFill core obj) := fun _ _ _ e => no_word e
theorem EncodedWord.lpinFillDone : ∀ ctx line, EncodedWord.Statement (.lpinFillDone ctx line) := fun _ _ _ e => no_word e
theorem EncodedWord.allocatorAnswer : ∀ core, EncodedWord.Statement (.allocatorAnswer core) := fun _ _ e => no_word e
theorem EncodedWord.stallGrowRetry : ∀ core, EncodedWord.Statement (.stallGrowRetry core) := fun _ _ e => no_word e
theorem EncodedWord.stallGrowTimeout : ∀ g, EncodedWord.Statement (.stallGrowTimeout g) := fun _ _ e => no_word e
theorem EncodedWord.shrinkAfterCopies : ∀ g, EncodedWord.Statement (.shrinkAfterCopies g) := fun _ _ e => no_word e
theorem EncodedWord.sleepWake : ∀ g, EncodedWord.Statement (.sleepWake g) := fun _ _ e => no_word e
theorem EncodedWord.groupLeaveSlot : ∀ g, EncodedWord.Statement (.groupLeaveSlot g) := fun _ _ e => no_word e
theorem EncodedWord.teamEnd : ∀ team, EncodedWord.Statement (.teamEnd team) := fun _ _ e => no_word e
theorem EncodedWord.trapDelivery : ∀ g, EncodedWord.Statement (.trapDelivery g) := fun _ _ e => no_word e
theorem EncodedWord.switchPointTrap : ∀ g, EncodedWord.Statement (.switchPointTrap g) := fun _ _ e => no_word e
theorem EncodedWord.throttleTrap : ∀ team, EncodedWord.Statement (.throttleTrap team) := fun _ _ e => no_word e
theorem EncodedWord.haltRequest : ∀ ctx, EncodedWord.Statement (.haltRequest ctx) := fun _ _ e => no_word e
theorem EncodedWord.groupHalted : ∀ g, EncodedWord.Statement (.groupHalted g) := fun _ _ e => no_word e
theorem EncodedWord.gridKill : ∀ grid, EncodedWord.Statement (.gridKill grid) := fun _ _ e => no_word e
theorem EncodedWord.killComplete : ∀ ctx, EncodedWord.Statement (.killComplete ctx) := fun _ _ e => no_word e
theorem EncodedWord.barrierUpdate : ∀ upd, EncodedWord.Statement (.barrierUpdate upd) := fun _ _ e => no_word e
theorem EncodedWord.phaseWaiterWake : ∀ g, EncodedWord.Statement (.phaseWaiterWake g) := fun _ _ e => no_word e
theorem EncodedWord.continuationFire : ∀ g, EncodedWord.Statement (.continuationFire g) := fun _ _ e => no_word e
theorem EncodedWord.waitPoll : ∀ g, EncodedWord.Statement (.waitPoll g) := fun _ _ e => no_word e
theorem EncodedWord.pauseWake : ∀ g, EncodedWord.Statement (.pauseWake g) := fun _ _ e => no_word e
theorem EncodedWord.pauseTimeout : ∀ g, EncodedWord.Statement (.pauseTimeout g) := fun _ _ e => no_word e
theorem EncodedWord.barrierInstanceComplete : ∀ kind id share, EncodedWord.Statement (.barrierInstanceComplete kind id share) := fun _ _ _ _ e => no_word e
theorem EncodedWord.gustWaveRelease : ∀ grid, EncodedWord.Statement (.gustWaveRelease grid) := fun _ _ e => no_word e
theorem EncodedWord.streamerRequestActive : ∀ req, EncodedWord.Statement (.streamerRequestActive req) := fun _ _ e => no_word e
theorem EncodedWord.streamerLineRead : ∀ req, EncodedWord.Statement (.streamerLineRead req) := fun _ _ e => no_word e
theorem EncodedWord.streamerLineLand : ∀ req line, EncodedWord.Statement (.streamerLineLand req line) := fun _ _ _ e => no_word e
theorem EncodedWord.streamerCredit : ∀ req, EncodedWord.Statement (.streamerCredit req) := fun _ _ e => no_word e
theorem EncodedWord.gcountCredit : ∀ req, EncodedWord.Statement (.gcountCredit req) := fun _ _ e => no_word e
theorem EncodedWord.requestComplete : ∀ req, EncodedWord.Statement (.requestComplete req) := fun _ _ e => no_word e
theorem EncodedWord.bulkHandoff : ∀ req, EncodedWord.Statement (.bulkHandoff req) := fun _ _ e => no_word e
theorem EncodedWord.bulkCreditArrival : ∀ pkt, EncodedWord.Statement (.bulkCreditArrival pkt) := fun _ _ e => no_word e
theorem EncodedWord.copyPageResume : ∀ req, EncodedWord.Statement (.copyPageResume req) := fun _ _ e => no_word e
theorem EncodedWord.copyAbort : ∀ req, EncodedWord.Statement (.copyAbort req) := fun _ _ e => no_word e
theorem EncodedWord.mmaStep : ∀ cmd, EncodedWord.Statement (.mmaStep cmd) := fun _ _ e => no_word e
theorem EncodedWord.mmaResults : ∀ cmd, EncodedWord.Statement (.mmaResults cmd) := fun _ _ e => no_word e
theorem EncodedWord.matrixCommandBegin : ∀ cmd, EncodedWord.Statement (.matrixCommandBegin cmd) := fun _ _ e => no_word e
theorem EncodedWord.matrixCommandFinish : ∀ cmd, EncodedWord.Statement (.matrixCommandFinish cmd) := fun _ _ e => no_word e
theorem EncodedWord.drainRow : ∀ cmd, EncodedWord.Statement (.drainRow cmd) := fun _ _ e => no_word e
theorem EncodedWord.drainLinePerformed : ∀ cmd line, EncodedWord.Statement (.drainLinePerformed cmd line) := fun _ _ _ e => no_word e
theorem EncodedWord.drainComplete : ∀ cmd, EncodedWord.Statement (.drainComplete cmd) := fun _ _ e => no_word e
theorem EncodedWord.drainPageResume : ∀ cmd, EncodedWord.Statement (.drainPageResume cmd) := fun _ _ e => no_word e
theorem EncodedWord.drainAbort : ∀ cmd, EncodedWord.Statement (.drainAbort cmd) := fun _ _ e => no_word e
theorem EncodedWord.matrixStepReexecute : ∀ cmd, EncodedWord.Statement (.matrixStepReexecute cmd) := fun _ _ e => no_word e
theorem EncodedWord.reservationFreed : ∀ core rec, EncodedWord.Statement (.reservationFreed core rec) := fun _ _ _ e => no_word e
theorem EncodedWord.latticeLanePerformed : ∀ op, EncodedWord.Statement (.latticeLanePerformed op) := fun _ _ e => no_word e
theorem EncodedWord.latticeReply : ∀ op, EncodedWord.Statement (.latticeReply op) := fun _ _ e => no_word e
theorem EncodedWord.thresholdReached : ∀ op, EncodedWord.Statement (.thresholdReached op) := fun _ _ e => no_word e
theorem EncodedWord.thresholdPoll : ∀ op, EncodedWord.Statement (.thresholdPoll op) := fun _ _ e => no_word e
theorem EncodedWord.cellCacheFill : ∀ stack part region line, EncodedWord.Statement (.cellCacheFill stack part region line) := fun _ _ _ _ _ e => no_word e
theorem EncodedWord.regionCacheFill : ∀ core region, EncodedWord.Statement (.regionCacheFill core region) := fun _ _ _ e => no_word e
theorem EncodedWord.tradeInstant : ∀ part region, EncodedWord.Statement (.tradeInstant part region) := fun _ _ _ e => no_word e
theorem EncodedWord.tradePacketApply : ∀ pkt, EncodedWord.Statement (.tradePacketApply pkt) := fun _ _ e => no_word e
theorem EncodedWord.tradeAck : ∀ pkt, EncodedWord.Statement (.tradeAck pkt) := fun _ _ e => no_word e
theorem EncodedWord.starHubSend : ∀ part region, EncodedWord.Statement (.starHubSend part region) := fun _ _ _ e => no_word e
theorem EncodedWord.jtradeComplete : ∀ op, EncodedWord.Statement (.jtradeComplete op) := fun _ _ e => no_word e
theorem EncodedWord.peerAccessReply : ∀ op lane status value, EncodedWord.Statement (.peerAccessReply op lane status value) := fun _ _ _ _ _ e => no_word e
theorem EncodedWord.fabricPortAccept : ∀ op, EncodedWord.Statement (.fabricPortAccept op) := fun _ _ e => no_word e
theorem EncodedWord.peerWriteAck : ∀ write ack, EncodedWord.Statement (.peerWriteAck write ack) := fun _ _ _ e => no_word e
theorem EncodedWord.multicastApply : ∀ dlv, EncodedWord.Statement (.multicastApply dlv) := fun _ _ e => no_word e
theorem EncodedWord.inboundFabricAccess : ∀ acc, EncodedWord.Statement (.inboundFabricAccess acc) := fun _ _ e => no_word e
theorem EncodedWord.xfenceDone : ∀ op, EncodedWord.Statement (.xfenceDone op) := fun _ _ e => no_word e
theorem EncodedWord.collectiveComplete : ∀ coll peers, EncodedWord.Statement (.collectiveComplete coll peers) := fun _ _ _ e => no_word e
theorem EncodedWord.collectiveTimeout : ∀ coll, EncodedWord.Statement (.collectiveTimeout coll) := fun _ _ e => no_word e
theorem EncodedWord.peerResetLearned : ∀ part member incarn, EncodedWord.Statement (.peerResetLearned part member incarn) := fun _ _ _ _ e => no_word e
theorem EncodedWord.ringPacketAdmit : ∀ pkt, EncodedWord.Statement (.ringPacketAdmit pkt) := fun _ _ e => no_word e
theorem EncodedWord.ringAdmissionStarved : ∀ stop up, EncodedWord.Statement (.ringAdmissionStarved stop up) := fun _ _ _ e => no_word e
theorem EncodedWord.ringPacketDelivery : ∀ pkt, EncodedWord.Statement (.ringPacketDelivery pkt) := fun _ _ e => no_word e
theorem EncodedWord.dieReset : ∀ die, EncodedWord.Statement (.dieReset die) := fun _ _ e => no_word e
theorem EncodedWord.incarnationTableLoad : ∀ die, EncodedWord.Statement (.incarnationTableLoad die) := fun _ _ e => no_word e
theorem EncodedWord.incarnationAnnounce : ∀ die, EncodedWord.Statement (.incarnationAnnounce die) := fun _ _ e => no_word e
theorem EncodedWord.targetResetCompletion : ∀ die target, EncodedWord.Statement (.targetResetCompletion die target) := fun _ _ _ e => no_word e
theorem EncodedWord.baseDieBError : EncodedWord.Statement .baseDieBError := fun _ e => no_word e
theorem EncodedWord.baseDieAError : EncodedWord.Statement .baseDieAError := fun _ e => no_word e
theorem EncodedWord.modulePowerOn : EncodedWord.Statement .modulePowerOn := fun _ e => no_word e
theorem EncodedWord.linkRetrain : ∀ link, EncodedWord.Statement (.linkRetrain link) := fun _ _ e => no_word e
theorem EncodedWord.inboundPostedWrite : ∀ req, EncodedWord.Statement (.inboundPostedWrite req) := fun _ _ e => no_word e
theorem EncodedWord.inboundRead : ∀ req, EncodedWord.Statement (.inboundRead req) := fun _ _ e => no_word e
theorem EncodedWord.inboundAtomicop : ∀ req, EncodedWord.Statement (.inboundAtomicop req) := fun _ _ e => no_word e
theorem EncodedWord.inboundLineAck : ∀ req line, EncodedWord.Statement (.inboundLineAck req line) := fun _ _ _ e => no_word e
theorem EncodedWord.hostMemoryRequest : ∀ op lanes, EncodedWord.Statement (.hostMemoryRequest op lanes) := fun _ _ _ e => no_word e
theorem EncodedWord.hostCompletion : ∀ op lane ok vals, EncodedWord.Statement (.hostCompletion op lane ok vals) := fun _ _ _ _ _ e => no_word e
theorem EncodedWord.systemReleaseFlush : ∀ g, EncodedWord.Statement (.systemReleaseFlush g) := fun _ _ e => no_word e
theorem EncodedWord.pageRequest : ∀ part gran asker, EncodedWord.Statement (.pageRequest part gran asker) := fun _ _ _ _ e => no_word e
theorem EncodedWord.prqptrHeadWrite : ∀ part head, EncodedWord.Statement (.prqptrHeadWrite part head) := fun _ _ _ e => no_word e
theorem EncodedWord.pageAnswerZero : ∀ ans, EncodedWord.Statement (.pageAnswerZero ans) := fun _ _ e => no_word e
theorem EncodedWord.pageAnswerCopy : ∀ ans, EncodedWord.Statement (.pageAnswerCopy ans) := fun _ _ e => no_word e
theorem EncodedWord.pageAnswerMap : ∀ ans, EncodedWord.Statement (.pageAnswerMap ans) := fun _ _ e => no_word e
theorem EncodedWord.pageAnswerFail : ∀ ans, EncodedWord.Statement (.pageAnswerFail ans) := fun _ _ e => no_word e
theorem EncodedWord.hreqQuery : ∀ part gran, EncodedWord.Statement (.hreqQuery part gran) := fun _ _ _ e => no_word e
theorem EncodedWord.hreqPin : ∀ part gran, EncodedWord.Statement (.hreqPin part gran) := fun _ _ _ e => no_word e
theorem EncodedWord.hreqUnpin : ∀ part gran, EncodedWord.Statement (.hreqUnpin part gran) := fun _ _ _ e => no_word e
theorem EncodedWord.hreqTohost : ∀ part gran hpa, EncodedWord.Statement (.hreqTohost part gran hpa) := fun _ _ _ _ e => no_word e
theorem EncodedWord.hreqTodev : ∀ part gran, EncodedWord.Statement (.hreqTodev part gran) := fun _ _ _ e => no_word e
theorem EncodedWord.hreqDrop : ∀ part gran, EncodedWord.Statement (.hreqDrop part gran) := fun _ _ _ e => no_word e
theorem EncodedWord.otinvWrite : ∀ part obj, EncodedWord.Statement (.otinvWrite part obj) := fun _ _ _ e => no_word e
theorem EncodedWord.otinvComplete : ∀ part, EncodedWord.Statement (.otinvComplete part) := fun _ _ e => no_word e
theorem EncodedWord.partitionEnable : ∀ part val grant, EncodedWord.Statement (.partitionEnable part val grant) := fun _ _ _ _ e => no_word e
theorem EncodedWord.partitionTeardown : ∀ part, EncodedWord.Statement (.partitionTeardown part) := fun _ _ e => no_word e
theorem EncodedWord.teardownComplete : ∀ part, EncodedWord.Statement (.teardownComplete part) := fun _ _ e => no_word e
theorem EncodedWord.epochEnd : ∀ part, EncodedWord.Statement (.epochEnd part) := fun _ _ e => no_word e
theorem EncodedWord.pageMoveStep : ∀ part gran, EncodedWord.Statement (.pageMoveStep part gran) := fun _ _ _ e => no_word e
theorem EncodedWord.functionLevelReset : ∀ func, EncodedWord.Statement (.functionLevelReset func) := fun _ _ e => no_word e
theorem EncodedWord.mctpMessage : ∀ msg, EncodedWord.Statement (.mctpMessage msg) := fun _ _ e => no_word e
theorem EncodedWord.qinSubmission : ∀ part queue bytes, EncodedWord.Statement (.qinSubmission part queue bytes) := fun _ _ _ _ e => no_word e
theorem EncodedWord.qcfgEnable : ∀ part queue val, EncodedWord.Statement (.qcfgEnable part queue val) := fun _ _ _ _ e => no_word e
theorem EncodedWord.qstatusClear : ∀ part queue val, EncodedWord.Statement (.qstatusClear part queue val) := fun _ _ _ _ e => no_word e
theorem EncodedWord.cmdNop : ∀ part queue, EncodedWord.Statement (.cmdNop part queue) := fun _ _ _ e => no_word e
theorem EncodedWord.cmdBegin : ∀ part queue, EncodedWord.Statement (.cmdBegin part queue) := fun _ _ _ e => no_word e
theorem EncodedWord.cmdCommit : ∀ part queue, EncodedWord.Statement (.cmdCommit part queue) := fun _ _ _ e => no_word e
theorem EncodedWord.cmdGraph : ∀ part queue, EncodedWord.Statement (.cmdGraph part queue) := fun _ _ _ e => no_word e
theorem EncodedWord.cmdRcreate : ∀ part queue, EncodedWord.Statement (.cmdRcreate part queue) := fun _ _ _ e => no_word e
theorem EncodedWord.cmdRdestroy : ∀ part queue, EncodedWord.Statement (.cmdRdestroy part queue) := fun _ _ _ e => no_word e
theorem EncodedWord.cmdFence : ∀ part queue, EncodedWord.Statement (.cmdFence part queue) := fun _ _ _ e => no_word e
theorem EncodedWord.gridStart : ∀ run node, EncodedWord.Statement (.gridStart run node) := fun _ _ _ e => no_word e
theorem EncodedWord.gridComplete : ∀ grid, EncodedWord.Statement (.gridComplete grid) := fun _ _ e => no_word e
theorem EncodedWord.runComplete : ∀ run, EncodedWord.Statement (.runComplete run) := fun _ _ e => no_word e
theorem EncodedWord.firmwareRestart : EncodedWord.Statement .firmwareRestart := fun _ e => no_word e
theorem EncodedWord.watchdogPreempt : ∀ grid, EncodedWord.Statement (.watchdogPreempt grid) := fun _ _ e => no_word e
theorem EncodedWord.watchdogKill : ∀ grid, EncodedWord.Statement (.watchdogKill grid) := fun _ _ e => no_word e
theorem EncodedWord.watchdogFence : ∀ grid, EncodedWord.Statement (.watchdogFence grid) := fun _ _ e => no_word e
theorem EncodedWord.haltIdleWake : ∀ core, EncodedWord.Statement (.haltIdleWake core) := fun _ _ e => no_word e
theorem EncodedWord.controlInterval : ∀ env, EncodedWord.Statement (.controlInterval env) := fun _ _ e => no_word e
theorem EncodedWord.fcapWrite : ∀ val, EncodedWord.Statement (.fcapWrite val) := fun _ _ e => no_word e
theorem EncodedWord.currentRatingReached : ∀ stack, EncodedWord.Statement (.currentRatingReached stack) := fun _ _ e => no_word e
theorem EncodedWord.ratioChange : ∀ stack, EncodedWord.Statement (.ratioChange stack) := fun _ _ e => no_word e
theorem EncodedWord.squall : ∀ core, EncodedWord.Statement (.squall core) := fun _ _ e => no_word e
theorem EncodedWord.clauseReexecute : ∀ g, EncodedWord.Statement (.clauseReexecute g) := fun _ _ e => no_word e
theorem EncodedWord.veerInstant : ∀ stack heats, EncodedWord.Statement (.veerInstant stack heats) := fun _ _ _ e => no_word e
theorem EncodedWord.veerStart : ∀ stack, EncodedWord.Statement (.veerStart stack) := fun _ _ e => no_word e
theorem EncodedWord.veerPauseEnd : ∀ stack, EncodedWord.Statement (.veerPauseEnd stack) := fun _ _ e => no_word e
theorem EncodedWord.registerWrite : ∀ func off val, EncodedWord.Statement (.registerWrite func off val) := fun _ _ _ _ e => no_word e
theorem EncodedWord.squallStretchEnd : ∀ core, EncodedWord.Statement (.squallStretchEnd core) := fun _ _ e => no_word e
theorem EncodedWord.firmwareRestartEnd : EncodedWord.Statement .firmwareRestartEnd := fun _ e => no_word e
theorem EncodedWord.matrixQueryComplete : ∀ op, EncodedWord.Statement (.matrixQueryComplete op) := fun _ _ e => no_word e
theorem EncodedWord.latticeQueryComplete : ∀ op, EncodedWord.Statement (.latticeQueryComplete op) := fun _ _ e => no_word e
theorem EncodedWord.fabricQueryComplete : ∀ op, EncodedWord.Statement (.fabricQueryComplete op) := fun _ _ e => no_word e
theorem EncodedWord.qtakeQackComplete : ∀ op, EncodedWord.Statement (.qtakeQackComplete op) := fun _ _ e => no_word e

end Sys2Proof.Laws
end

