-- ==== Sys2Proof/Laws/Trap.lean ====
section
/-! SUPPORT. Sys2Proof/Laws/Trap.lean: what taking a trap can do, and what returning from one gives. -/

namespace Sys2Proof.Machine

set_option Elab.async false

/-- The state after a trap that goes to system software: the record is written and, where the group has a context, its grid is due to be killed. -/
def trapToSystem (s : State) (x : GM) (r : TrapRec) : State :=
  let s1 := putGM s { x with g := { x.g with trec := r, trapDue := none } }
  match ctxOf s1 x.g with
  | none => s1
  | some c => modGrid s1 c.grid (fun gr => { gr with killDue := true, rec1 := gr.rec1.or (some r) })

/-- The state after a trap that goes to the group's handler. -/
def trapToUser (s : State) (x : GM) (r : TrapRec) (resume : Nat) (rem : Option Clause) : State :=
  putGM s { x with g := { x.g with
    trec := r, trapCount := x.g.trapCount + 1, hMode := true, trapDue := none, pos := 0, phase := .header, park := .none,
    pendTraps := x.g.pendTraps.map (fun p => { p with kept := true }),
    trapped := x.g.cur.map (fun f => { f with pc := resume, rem := rem }), trapRets := x.g.rets,
    cur := some { pc := x.g.hEntry, pred := predOf x.g, wbase := wbaseOf x.g + x.g.hShift, waitc := 0, wake := none, hnd := true, rem := none } } }

/-- Everything taking a trap can do. -/
theorem takeTrap_cases (s : State) (gid cause sub : Nat) (lanes : Mask) (addr word : W64) (pc resume : Nat) (rem : Option Clause) :
    (getG s gid = none ∧ takeTrap s gid cause sub lanes addr word pc resume rem = s) ∨
    (∃ g, getG s gid = some g ∧
      let x := landAll (gmOf s g)
      (toUser s x.g cause sub = true ∧ takeTrap s gid cause sub lanes addr word pc resume rem =
        trapToUser s x (trapRec x.g cause sub lanes addr word pc resume false true) resume rem) ∨
      (toUser s x.g cause sub = false ∧ takeTrap s gid cause sub lanes addr word pc resume rem =
        trapToSystem s x (trapRec x.g cause sub lanes addr word pc resume (trapDouble x.g cause sub) false))) := by
  cases hg : getG s gid with
  | none => exact Or.inl ⟨rfl, by simp [takeTrap, hg]⟩
  | some g =>
    refine Or.inr ⟨g, rfl, ?_⟩
    cases hu : toUser s (landAll (gmOf s g)).g cause sub with
    | true => exact Or.inl ⟨hu, by simp [takeTrap, hg, hu, trapToUser]⟩
    | false =>
      refine Or.inr ⟨hu, ?_⟩
      simp only [takeTrap, hg, hu, trapToSystem]
      rfl

/-- A return from a trap whose fibre still has lanes goes on with that fibre. -/
theorem returnTrap_live (g : Group) (f : Fibre) (resume : Nat) (rem : Option Clause) (hf : g.trapped = some f)
    (h : f.pred &&& ~~~g.exited &&& ~~~(contLanes g) ≠ 0) :
    (returnTrap g resume rem).cur = some { f with pc := resume, rem := none, pred := f.pred &&& ~~~g.exited &&& ~~~(contLanes g) } ∧
    (returnTrap g resume rem).hMode = false ∧ (returnTrap g resume rem).trapped = none := by
  simpa [returnTrap, hf, h] using h

/-- A return from a trap whose fibre has no lane left leaves no fibre. -/
theorem returnTrap_gone (g : Group) (f : Fibre) (resume : Nat) (rem : Option Clause) (hf : g.trapped = some f)
    (h : f.pred &&& ~~~g.exited &&& ~~~(contLanes g) = 0) :
    (returnTrap g resume rem).cur = none ∧ (returnTrap g resume rem).phase = .boundary false false := by
  simp [returnTrap, hf, h]

end Sys2Proof.Machine
end

