-- ==== Sys2Proof/Tests/Slice0.lean ====
section
/-! SUPPORT. Sys2Proof/Tests/Slice0.lean: the model's own tests: words of the spec, ill-formed terms, and for each obligation a state that meets its hypotheses. -/

namespace Sys2Proof.Tests

set_option Elab.async false

open Sys2Proof.Machine

/-! ## Small states -/

/-- Scalars whose even pairs from s2 are pointers: G (object 0, offset 256), T (offset 64), P (rank 0), F, L (region 0), O, A, H, X (module 1) and M (group 1); s22 is 0, s23 is 1, s24 the 64-bit value 1. -/
def ptrScalars : List W32 :=
  [0, 0, 256, 0x10000000, 64, 0x20000000, 64, 0x30000000, 0, 0x50000000, 0, 0x40000000, 0, 0x60000000, 0, 0x70000000, 4096, 0x80000000,
    0, 0x90100000, 0, 0xA0100000, 0, 1, 1, 0] ++ List.replicate 22 0
/-- Group 0 of width 32 with 64 registers inside a clause of one instruction, in slot 0 of core 0 (log 10). -/
def boot : State := bootWith State.reset 0
/-- Its group. -/
def gp : Group := { freshGroup 0 0 0 0 0 32 64 4 false false (some ⟨0, 0, 0⟩) 0 with phase := .inClause ⟨0, 0, 1, 0, false⟩, oc := some ocEmpty, scal := ptrScalars }
/-- The boot state with group g in place of its group. -/
def withGroup (s : State) (g : Group) : State := { s with groups := [g] }
/-- The boot state. -/
def st : State := withGroup boot gp
/-- Its clause. -/
def cl : Clause := ⟨0, 0, 1, 0, false⟩
/-- The unguarded guard. -/
def g0 : Guard := ⟨false, 0, false⟩
/-- A format R instruction without marks. -/
def fr (d a b c : Opd) (ty : Ty) (mod ext : Nat) : FormR := ⟨g0, d, a, b, c, ty, BitVec.ofNat 3 mod, 0, false, BitVec.ofNat 8 ext⟩

theorem withGroup_issues {s : State} {g : Group} {c : Clause} (hs : s.cur = some 0) (hg : g.id = 0) (hp : g.phase = .inClause c) (ho : g.oc.isSome = true) :
    Issues (withGroup s g) g c := ⟨by simp [withGroup, getG, hs, hg], hp, ho⟩
theorem st_issues : Issues st gp cl := withGroup_issues rfl rfl rfl rfl

/-! ## Witnesses -/

/-- The hypotheses of a lane clause, met by a well-formed instruction. -/
def LaneMet (mk : FormR → Instr) (sp : FormR → LaneSpec) : Prop :=
  ∃ s g c f, legal (mk f) = true ∧ Issues s g c ∧ frameFail g (laneOpds f (sp f)) = none
/-- The same with a condition. -/
def LaneIfMet (mk : FormR → Instr) (ok : FormR → Group → Bool) (sp : FormR → Group → LaneSpec) : Prop :=
  ∃ s g c f, legal (mk f) = true ∧ Issues s g c ∧ ok f g = true ∧ frameFail g (laneOpds f (sp f g)) = none
/-- The same of a form that reads whole. -/
def WholeMet (mk : FormR → Instr) (ok : FormR → Bool) (sp : FormR → LaneSpec) (fine : FormR → LaneIn → Bool) : Prop :=
  ∃ s g c f, legal (mk f) = true ∧ Issues s g c ∧ ok f = true ∧ frameFail g (laneOpds f (sp f)) = none ∧
    (wholeIns (due s g) f (sp f) (effFirst s g f.gd)).all (fine f) = true ∧ effFirst s g f.gd ≠ 0

theorem laneMet {mk : FormR → Instr} {sp : FormR → LaneSpec} (f : FormR) (h : (legal (mk f) && (frameFail gp (laneOpds f (sp f))).isNone) = true) : LaneMet mk sp := by
  simp only [Bool.and_eq_true, Option.isNone_iff_eq_none] at h
  exact ⟨st, gp, cl, f, h.1, st_issues, h.2⟩
theorem laneIfMet {mk : FormR → Instr} {ok : FormR → Group → Bool} {sp : FormR → Group → LaneSpec} (f : FormR)
    (h : (legal (mk f) && ok f gp && (frameFail gp (laneOpds f (sp f gp))).isNone) = true) : LaneIfMet mk ok sp := by
  simp only [Bool.and_eq_true, Option.isNone_iff_eq_none] at h
  exact ⟨st, gp, cl, f, h.1.1, st_issues, h.1.2, h.2⟩
theorem wholeMet {mk : FormR → Instr} {ok : FormR → Bool} {sp : FormR → LaneSpec} {fine : FormR → LaneIn → Bool} (f : FormR)
    (h : (legal (mk f) && ok f && (frameFail gp (laneOpds f (sp f))).isNone && (wholeIns (due st gp) f (sp f) (effFirst st gp f.gd)).all (fine f) &&
      effFirst st gp f.gd != 0) = true) : WholeMet mk ok sp fine := by
  simp only [Bool.and_eq_true, Option.isNone_iff_eq_none, bne_iff_ne] at h
  exact ⟨st, gp, cl, f, h.1.1.1.1, st_issues, h.1.1.1.2, h.1.1.2, h.1.2, h.2⟩

/-- The hypotheses of a statement about a format R instruction that acts once, met by a well-formed instruction with an effective lane. -/
def OnceMet {α : Type} (lanes : State → Group → Guard → Mask) (mk : FormR → Instr) (sp : FormR → LaneSpec) (pre : α → State → GM → FormR → Mask → Prop) : Prop :=
  ∃ (a : α) (s : State) (g : Group) (c : Clause) (f : FormR), legal (mk f) = true ∧ Issues s g c ∧ frameFail g (laneOpds f (sp f)) = none ∧
    lanes s g f.gd ≠ 0 ∧ pre a s (due s g) f (lanes s g f.gd)
/-- The same of format M. -/
def MemMet {α : Type} (mk : FormM → Instr) (op : Nat) (nA nB nD : FormM → Nat) (pre : α → State → GM → FormM → Mask → Prop) : Prop :=
  ∃ (a : α) (s : State) (g : Group) (c : Clause) (f : FormM), legal (mk f) = true ∧ Issues s g c ∧ frameFail g [(f.a, nA f), (f.b, nB f), (f.d, nD f)] = none ∧
    effFirst s g f.gd ≠ 0 ∧ pre a (memFrom s g op f) (memAt s g op f (nA f) (nB f)) f (effFirst s g f.gd)
/-- The same of format Q. -/
def QMet {α : Type} (mk : FormQ → Instr) (nA nB nD : FormQ → Nat) (pre : α → State → GM → FormQ → Mask → Prop) : Prop :=
  ∃ (a : α) (s : State) (g : Group) (c : Clause) (f : FormQ), legal (mk f) = true ∧ Issues s g c ∧ frameFail g [(f.a, nA f), (f.b, nB f), (f.d, nD f)] = none ∧
    effFirst s g f.gd ≠ 0 ∧ pre a s (qAt s g) f (effFirst s g f.gd)
/-- The same of format J. -/
def JumpMet (lanes : State → Group → Guard → Mask) (mk : FormJ → Instr) (pre : State → GM → FormJ → Mask → Prop) : Prop :=
  ∃ (s : State) (g : Group) (c : Clause) (f : FormJ) (gr : Grid), legal (mk f) = true ∧ Issues s g c ∧ gridOf s g = some gr ∧ targetOk s gr (jTarget c f) = true ∧
    lanes s g f.gd ≠ 0 ∧ pre s (due s g) f (lanes s g f.gd)

/-- What a group needs to stand in for the boot group. -/
def standsIn (s : State) (g : Group) : Bool := s.cur == some 0 && g.id == 0 && g.phase == .inClause cl && g.oc.isSome

theorem standsIn_issues {s : State} {g : Group} (h : standsIn s g = true) : Issues (withGroup s g) g cl := by
  simp only [standsIn, Bool.and_eq_true, beq_iff_eq] at h
  exact withGroup_issues h.1.1.1 h.1.1.2 h.1.2 h.2

theorem onceMet {α : Type} {lanes : State → Group → Guard → Mask} {mk : FormR → Instr} {sp : FormR → LaneSpec} {pre : α → State → GM → FormR → Mask → Prop}
    (a : α) (s : State) (g : Group) (f : FormR)
    (h : (standsIn s g && legal (mk f) && (frameFail g (laneOpds f (sp f))).isNone && lanes (withGroup s g) g f.gd != 0) = true)
    (hp : pre a (withGroup s g) (due (withGroup s g) g) f (lanes (withGroup s g) g f.gd)) : OnceMet lanes mk sp pre := by
  simp only [Bool.and_eq_true, Option.isNone_iff_eq_none, bne_iff_ne] at h
  exact ⟨a, _, g, cl, f, h.1.1.2, standsIn_issues h.1.1.1, h.1.2, h.2, hp⟩
theorem memMet {α : Type} {mk : FormM → Instr} {op : Nat} {nA nB nD : FormM → Nat} {pre : α → State → GM → FormM → Mask → Prop}
    (a : α) (s : State) (g : Group) (f : FormM)
    (h : (standsIn s g && legal (mk f) && (frameFail g [(f.a, nA f), (f.b, nB f), (f.d, nD f)]).isNone && effFirst (withGroup s g) g f.gd != 0) = true)
    (hp : pre a (memFrom (withGroup s g) g op f) (memAt (withGroup s g) g op f (nA f) (nB f)) f (effFirst (withGroup s g) g f.gd)) : MemMet mk op nA nB nD pre := by
  simp only [Bool.and_eq_true, Option.isNone_iff_eq_none, bne_iff_ne] at h
  exact ⟨a, _, g, cl, f, h.1.1.2, standsIn_issues h.1.1.1, h.1.2, h.2, hp⟩
theorem qMet {α : Type} {mk : FormQ → Instr} {nA nB nD : FormQ → Nat} {pre : α → State → GM → FormQ → Mask → Prop} (a : α) (s : State) (g : Group) (f : FormQ)
    (h : (standsIn s g && legal (mk f) && (frameFail g [(f.a, nA f), (f.b, nB f), (f.d, nD f)]).isNone && effFirst (withGroup s g) g f.gd != 0) = true)
    (hp : pre a (withGroup s g) (qAt (withGroup s g) g) f (effFirst (withGroup s g) g f.gd)) : QMet mk nA nB nD pre := by
  simp only [Bool.and_eq_true, Option.isNone_iff_eq_none, bne_iff_ne] at h
  exact ⟨a, _, g, cl, f, h.1.1.2, standsIn_issues h.1.1.1, h.1.2, h.2, hp⟩
theorem jumpMet {lanes : State → Group → Guard → Mask} {mk : FormJ → Instr} {pre : State → GM → FormJ → Mask → Prop} (s : State) (g : Group) (f : FormJ) (gr : Grid)
    (h : (standsIn s g && legal (mk f) && targetOk (withGroup s g) gr (jTarget cl f) && lanes (withGroup s g) g f.gd != 0) = true)
    (hg : gridOf (withGroup s g) g = some gr) (hp : pre (withGroup s g) (due (withGroup s g) g) f (lanes (withGroup s g) g f.gd)) : JumpMet lanes mk pre := by
  simp only [Bool.and_eq_true, bne_iff_ne] at h
  exact ⟨_, g, cl, f, gr, h.1.1.2, standsIn_issues h.1.1.1, hg, h.1.2, h.2, hp⟩

/-- The hypotheses of LoadResult. -/
def LoadMet (mk : FormM → Instr) (op : Nat) (bc : Bool) : Prop :=
  MemMet mk op (fun _ => 2) (fun _ => 0) (fun f => regsOf (sizeBytes f))
    (fun ats s x f eff => chkLanes s x f 1 (fun l _ => isMcast l) (loadLanes bc eff) = .go ats ∧ loadFull x.g ats = false ∧ ats ≠ [])
/-- The hypotheses of WriteResult. -/
def WriteMet (mk : FormM → Instr) (op : Nat) (nB nD : FormM → Nat) (ctr : Nat) (rights : BitVec 4) (atomic : Bool) (refuse : Loc → Nat → Bool) : Prop :=
  MemMet mk op (fun _ => 2) nB nD (fun ats s x f eff => chkLanes s x f rights refuse (lanesOf eff) = .go ats ∧ ats.all (fun a => !isLat a.loc) = true ∧
    (atomic = true → ats.all (fun a => ptrOff a.ptr % sizeBytes f == 0) = true) ∧ cntOf x.g ctr ≠ 63 ∧ ats ≠ [])
/-- The hypotheses of LatResult. -/
def LatMet (mk : FormM → Instr) (op : Nat) (kind : OpKind) : Prop :=
  MemMet mk op (fun _ => 2) (fun f => if kind = .jldn then 0 else regsOf (sizeBytes f)) (fun f => regsOf (sizeBytes f))
    (fun ats s x f eff => let y := ocWriteBackAll x
      latChk s y.g ((lanesOf eff).map (fun l => (l, (laneAddr y f l).1, (laneAddr y f l).2))) (some f.size.toNat) op = .go ats ∧ cntOf y.g 5 ≠ 63 ∧ ats ≠ [])
/-- The hypotheses of LatCmdResult. -/
def LatCmdMet (mk : FormQ → Instr) (op : Nat) (nD : FormQ → Nat) : Prop :=
  QMet mk (fun _ => 2) (fun _ => 0) nD
    (fun ats s x f eff => latChk s x.g [((lowLane eff).getD 0, blkPtr x f eff, some (blkPtr x f eff))] none op = .go ats ∧ cntOf x.g 5 ≠ 63 ∧ ats ≠ [])
/-- The hypotheses of CopyResult. -/
def CopyMet (mk : FormQ → Instr) (form : CopyForm) : Prop :=
  QMet mk (fun _ => 2) barRegs (fun _ => 1) (fun (a : State × Req) s x f eff => CopyAccepts form a.1 a.2 s x f eff)
/-- The hypotheses of BlockResult. -/
def BlockMet (mk : FormQ → Instr) (kind : MKind) (build : State → Group → MCmd → Nat → MBuild) : Prop :=
  QMet mk (fun _ => 2) barRegs (fun _ => 1)
    (fun (a : State × MCmd) s x f eff => d4Full x.g = false ∧ queueWait s x.g = false ∧ ∃ (k : Nat) (m0 : MCmd) (b : Option Nat),
      blockChk s x.g (blkPtr x f eff) (ownBlock s x.g) = .go k ∧ earlierAt s x.g.id eff (.pool k) 64 = false ∧
      a.1 = consultBlock s x.g kind (memRdV s.mem k 64) ∧ build a.1 x.g { freshCmd a.1 x eff kind with blk := k } (memRdV s.mem k 64) = .go m0 ∧
      (∀ q, barPtr x f eff = some q → isScratch q = true) ∧ BarOk a.1 x.g (barPtr x f eff) b ∧ a.2 = { m0 with bar := b })

/-- A format M instruction without marks. -/
def fm (d a b : Opd) (scope : Scope) (order : Order) (size sub : Nat) : FormM := ⟨g0, d, a, b, scope, order, BitVec.ofNat 3 size, BitVec.ofNat 4 sub, 0, false, 0⟩
/-- A format Q instruction without marks. -/
def fq (d a b : Opd) (scope : Scope) (sub ext : Nat) : FormQ := ⟨g0, d, a, b, 0, scope, BitVec.ofNat 8 sub, 0, false, BitVec.ofNat 8 ext⟩
/-- A format J instruction to the next clause but n. -/
def fj (off ck opd : Nat) (cn : Bool) : FormJ := ⟨g0, BitVec.ofNat 32 off, 0, BitVec.ofNat 3 ck, cn, BitVec.ofNat 8 opd, 0⟩

/-- An object-table entry with every right. -/
def obj0 (k : ObjKey) : ObjEnt := ⟨k, true, 4096, 65536, 15, none, 0⟩
/-- A lattice region of 64-bit counters with one replica. -/
def region0 : Region := { num := 0, inst := 0, ty := 1, sched := 0, cells := 64, period := 1000, reps := [⟨0, [], [], [], 0, []⟩], taken := 0, completed := 0, trade := none, lastInstant := 0, dying := none }
/-- An operand-buffer and an accumulator reservation of team 0. -/
def resvs0 : List Resv := [⟨100, 0, 0, false, 0, 8192, 2, 0, none⟩, ⟨101, 0, 0, true, 0, 16384, 0, 0, none⟩]
/-- The boot machine in a domain of two members, its core's caches filled, with a region and two reservations. -/
def base : State :=
  modCore (modP (uniWr (modP boot 0 (fun p => { p with grans := (List.range 17).map (fun n => { num := n, state := .hbm 0, moving := none, pinned := false, psize := 0, advice := 0, missA := 0, missB := 0, hostAcc := 0 }) }))
    0 0 (leBytes 32 (15 + 2 ^ 6 + 4096 * 2 ^ 64 + 65536 * 2 ^ 128))) 0 (fun p => { p with
    member := some 0, peers := [⟨1, 1, 1, true⟩], groups := [⟨1, [0, 1]⟩], regions := [region0], imports := [obj0 (.x 1 0), obj0 (.m 1 0)] }))
    0 (fun k => { k with objCache := [obj0 (.g 0), obj0 (.x 1 0), obj0 (.m 1 0)], regionCache := [0], resvs := resvs0 })
/-- The base machine with its group. -/
def bs : State := withGroup base gp
/-- The same with a region of counters. -/
def base6 : State := modP base 0 (fun p => { p with regions := [{ region0 with ty := 6, cells := 16 }] })
/-- The same with bytes in the team's scratchpad from offset 64 on. -/
def baseScr (w : Nat) : State := poolWr base (scrKey 0 64) (leBytes 64 w)
/-- The lanes of a check that passes. -/
def goOf (c : Chk) : List LaneAt := match c with
  | .go ats => ats
  | _ => []
/-- The lanes of a lattice check that passes. -/
def latOf (c : LatChk) : List LaneAt := match c with
  | .go ats => ats
  | _ => []
/-- The command a matrix check builds. -/
def cmdOf (b : MBuild) (d : MCmd) : MCmd := match b with
  | .go c => c
  | _ => d
/-- The boot grid. -/
def grid0 : Grid := { freshGrid 0 0 0 0 0 bootLaunch [0] with ticket := 1, bound := 1, icache := [(0, bootLine 0)] }
/-- The boot context. -/
def ctx0 : Ctx := freshCtx 0 0 0 0 0 0 0 0 4096 0 8 0
/-- A second context of core 0, with a save area in object 0. -/
def ctx1 (st : CtxState) : Ctx := { freshCtx 1 1 0 0 0 0 1 0 4096 0 2 0x1000000000000000 with state := st }
/-- The boot group as the agent of its core. -/
def gpA : Group := { gp with agent := true, slot := some ⟨0, 0, 15⟩ }
/-- A fibre at offset pc. -/
def fib (pc : Nat) : Fibre := { pc := pc, pred := fullMask 32, wbase := 0, waitc := 0, wake := none, hnd := false, rem := none }
/-- The instruction IADD v10, v0, v4. -/
def iaddF : FormR := fr (.v 10) (.v 0) (.v 4) (.v 0) .z32 0 0
/-- A group in handler mode, trapped at that instruction. -/
def gpH : Group := { gp with hMode := true, trapped := some (fib 8), trec := { TrapRec.zero with word := wordR 0x05 iaddF, lanes := fullMask 32 } }
theorem st_base : Issues bs gp cl := withGroup_issues rfl rfl rfl rfl

/-- The base machine with a group in place of its own. -/
def wg (g : Group) : State := withGroup base g
/-- One lane of an access at a place. -/
def ln (l : Loc) (st : LaneState) (data : List W32) : LaneOp := { lane := 0, ptr := 0, loc := l, key := none, data := data, val := [], st := st, got := [] }
/-- An operation of group 0 with one lane. -/
def op1 (k : OpKind) (ctr : Nat) (x : LaneOp) : Op :=
  { id := 50, g := 0, kind := k, ctr := ctr, lanes := [x], dst := .vec 8 false, eff := 1, size := 4, hold := false, order := .rlx, scope := .grp, word := 0, mate := none, inc := 1, absent := false }
/-- The base machine with that operation in flight. -/
def wo (o : Op) : State := { bs with ops := [o] }
/-- A streamer request from scratchpad offset 1024 to 2048, of four words. -/
def req1 : Req := { (newReq bs ⟨gp, []⟩ 1 .cpy false .team (blkOf (2 ^ 272 + 2 ^ 288 + 2 ^ 304 + 4 * 2 ^ 232)) 4 ⟨.pool (scrKey 0 1024), .pool (scrKey 0 2048), .pool 0⟩ none) with id := 60 }
/-- The base machine with a request. -/
def wr (r : Req) : State := { bs with reqs := [r] }
/-- A matrix command on tile 0. -/
def cmd1 (k : MKind) (st : MState) : MCmd := { freshCmd bs ⟨gp, []⟩ 1 k with id := 70, acc := accKey 0 0, dst := .uni 0 4096, dpitch := 256, state := st, asrc := .pool (frameKey 0 0), bsrc := .pool (obufKey 0 0), adesc := 2, bdesc := 2, steps := 1, blk := scrKey 0 64 }
/-- The base machine with a command. -/
def wc (c : MCmd) : State := { bs with mcmds := [c] }
/-- A ring packet between dies 2 and 3. -/
def pkt1 (fly del : Bool) (m : RingMsg) : Pkt := { id := 80, src := 2, dst := 3, srcStop := 1, dstStop := 1, fl := if fly then [1, 1] else [], part := 0, incarn := 1, reqIncarn := none, flits := 2, up := true, flying := fly, delivered := del, msg := m }
/-- The base machine with a packet. -/
def wp (p : Pkt) : State := { bs with pkts := [p] }
/-- A barrier update with an arrival for the object at scratchpad offset 64. -/
def upd1 (reply : Option (Nat × Nat)) : Upd := { id := 90, obj := scrKey 0 64, ctx := 0, item := ⟨true, 0, 0, false, 0, false⟩, reply := reply, src := ⟨0, 0, 0, 0, 0, .team, [], .team⟩ }
/-- The base machine with that object initialised for two parties. -/
def bo : State := withGroup (baseScr (2 ^ 178 + 2 * 2 ^ 48 + 2 * 2 ^ 32)) gp
/-- The base machine over a partition of two stacks, the region with a replica on each. -/
def bp (r : Region) : State := modP bs 0 (fun p => { p with stackBits := 3, regions := [{ r with reps := [⟨0, [], [(3, 9)], [(0, 0)], 0, []⟩, ⟨1, [], [], [], 0, []⟩] }] })
/-- Nothing pending and nothing listed: a collective of two members. -/
def coll1 : Coll := { id := 95, g := 0, ctx := 0, part := 0, team := 0, scope := .fab, mgrp := 1, seq := 0, kind := 0, ty := 1, rop := 0, root := 0, count := 4, n := 2, rank := 0, send := some (.pool (scrKey 0 1024)), recv := some (.pool (scrKey 0 2048)), bar := none, since := 0, absent := [], lane := 0, out := none, peers := [], own := none, staged := true, lines := [], sent := false }
/-- The base machine with partition 0 changed. -/
def wpt (f : Part → Part) : State := modP bs 0 f
/-- A packet's 64 bytes. -/
def raw (seq kind arg0 arg1 arg2 : Nat) : List Byte := leBytes 64 (seq + kind * 2 ^ 32 + arg0 * 2 ^ 64 + arg1 * 2 ^ 128 + arg2 * 2 ^ 192)
/-- The base machine with queue 0 enabled and holding packets that agents have taken. -/
def wq (s : State) (b c : Bool) (rs : List (List Byte)) : State :=
  modQ s 0 0 (fun q => { q with enable := true, inBatch := b, committed := c, intake := rs.map (fun r => { raw := r, taken := some 0, started := false }) })
/-- A host request to unified address 4096 + off. -/
def hq (off : Nat) (data : List Byte) : HostReq := { part := 0, link := 0, rid := 1, ro := false, ido := false, off := 4096 + off, len := 8, data := data, atom := none, compare := 0 }
/-- The base machine with page 16 as st says. -/
def wpage (st : GranState) (mv : Option GranState) : State :=
  wpt (fun p => { p with grant := List.replicate 14 4, grans := p.grans.map (fun g => if g.num = 16 then { g with state := st, moving := mv } else g) })
/-- A graph table of one node at object offset 2048, its launch record at 2304. -/
def bg : State := uniWr (uniWr bs 0 (4096 + 2048) (leBytes 96 (1 + (0x1000000000000000 + 2304) * 2 ^ 512))) 0 (4096 + 2304)
  (leBytes 256 (0x1000000000000000 + (0x1000000000000000 + 4096) * 2 ^ 128 + 2 ^ 192 + 4096 * 2 ^ 256 + (0x1000000000000000 + 8192) * 2 ^ 320 + Config.deviceStamp * 2 ^ 416 +
    (64 * 2 ^ 32 + 2 ^ 40 + 2 * 2 ^ 48 + 4 * 2 ^ 64) * 2 ^ 512))
/-- A run of one node that waits. -/
def run1 : Run := { id := 200, num := 1, part := 0, queue := 0, seq := 1, nodes := [{ pred := 0, ahead := 0, state := .waiting, succ := [], lr := bootLaunch }], crec := 0x1000000000000A00, status := 0, faultNode := 0, rec1 := none, done := false }

theorem collNext_one {s : State} {c : Coll} {l : CopyLine} (h : c.lines.filter (collLandable s c) = [l]) : collNext s c = some l := by
  simp [collNext, h, Nat.mod_one]
theorem pick_some {s : State} {l : List Nat} (h : l ≠ []) : ∃ n, pick s l = some n :=
  ⟨_, List.getElem?_eq_getElem (Nat.mod_lt _ (List.length_pos_iff.2 h))⟩
theorem freeRuns_ne {s : State} (h : s.runs = []) : freeRuns s ≠ [] :=
  List.ne_nil_of_mem (a := 1) (by simp [freeRuns, h])
/-- A format I instruction without marks. -/
def fi (d : Opd) (ty : Ty) (imm : Nat) : FormI := ⟨g0, d, ty, 0, false, 0, BitVec.ofNat 32 imm⟩
/-- A claim of grid 0's tickets in flight, the grid with these tickets returned and the next ticket n. -/
def wtc (l : List Nat) (n : Nat) : State :=
  { wo (op1 (.tclaim 0) 2 (ln (.pool (scrKey 0 64)) .sent [])) with grids := [{ grid0 with returned := l, ticket := n }] }
/-- Obligations.IntegerLaneResults: the hypotheses of each lane clause are met. -/
theorem wit_integer :
    LaneMet .nop (fun _ => ⟨.no, .no, .no, .no, 4⟩) ∧
    LaneMet .mov (fun f => spA f.ty 4) ∧
    LaneMet .sel (fun f => ⟨.val f.ty, .val f.ty, .msk, .val (tyN f.ty), 4⟩) ∧
    LaneMet .imul (fun f => spAB f.ty (mulLat f.ty)) ∧
    LaneMet .imulh (fun f => spAB f.ty (mulLat f.ty)) ∧
    LaneMet .imad (fun f => spABC f.ty (mulLat f.ty)) ∧
    LaneMet .imadw (fun f => ⟨.val f.ty, .val f.ty, .val .z64, .val 2, 5⟩) ∧
    LaneMet .icmp (fun f => ⟨.val f.ty, .val f.ty, .no, .msk, 4⟩) ∧
    LaneMet .and (fun f => spAB f.ty 4) ∧
    LaneMet .or (fun f => spAB f.ty 4) ∧
    LaneMet .xor (fun f => spAB f.ty 4) ∧
    LaneMet .not (fun f => spA f.ty 4) ∧
    LaneMet .andn (fun f => spAB f.ty 4) ∧
    LaneMet .bfe (fun f => ⟨.val f.ty, .val .z32, .val .z32, .val (tyN f.ty), 4⟩) ∧
    LaneMet .bfi (fun f => ⟨.val f.ty, .val f.ty, .val .z32, .val (tyN f.ty), 4⟩) ∧
    LaneMet .popc (fun f => ⟨.val f.ty, .no, .no, .val 1, 4⟩) ∧
    LaneMet .clz (fun f => ⟨.val f.ty, .no, .no, .val 1, 4⟩) ∧
    LaneMet .ctz (fun f => ⟨.val f.ty, .no, .no, .val 1, 4⟩) ∧
    LaneMet .brev (fun f => spA f.ty 4) ∧
    LaneMet .bperm (fun _ => spABC .b32 4) ∧
    LaneMet .lea (fun _ => ⟨.val .b64, .val .z32, .no, .val 2, 4⟩) ∧
    LaneMet .ptrget (fun _ => ⟨.val .b64, .no, .no, .val 2, 4⟩) ∧
    LaneMet .kop (fun _ => ⟨.msk, .msk, .no, .msk, 4⟩) :=
  ⟨laneMet (fr (.v 0) (.v 0) (.v 0) (.v 0) .b32 0 0) (by decide),
    laneMet (fr (.v 8) (.v 2) (.v 0) (.v 0) .z32 0 0) (by decide),
    laneMet (fr (.v 8) (.v 2) (.v 4) (.k 4) .z32 0 0) (by decide),
    laneMet (fr (.v 8) (.v 2) (.v 4) (.v 0) .z32 0 0) (by decide),
    laneMet (fr (.v 8) (.v 2) (.v 4) (.v 0) .z32 0 0) (by decide),
    laneMet (fr (.v 8) (.v 2) (.v 4) (.v 6) .z32 0 0) (by decide),
    laneMet (fr (.v 8) (.v 2) (.v 4) (.v 6) .z32 0 0) (by decide),
    laneMet (fr (.k 1) (.v 2) (.v 4) (.v 0) .z32 0 0) (by decide),
    laneMet (fr (.v 8) (.v 2) (.v 4) (.v 0) .b32 0 0) (by decide),
    laneMet (fr (.v 8) (.v 2) (.v 4) (.v 0) .b32 0 0) (by decide),
    laneMet (fr (.v 8) (.v 2) (.v 4) (.v 0) .b32 0 0) (by decide),
    laneMet (fr (.v 8) (.v 2) (.v 0) (.v 0) .b32 0 0) (by decide),
    laneMet (fr (.v 8) (.v 2) (.v 4) (.v 0) .b32 0 0) (by decide),
    laneMet (fr (.v 8) (.v 2) (.v 4) (.v 6) .z32 0 0) (by decide),
    laneMet (fr (.v 8) (.v 2) (.v 4) (.v 6) .b32 0 0) (by decide),
    laneMet (fr (.v 8) (.v 2) (.v 0) (.v 0) .b32 0 0) (by decide),
    laneMet (fr (.v 8) (.v 2) (.v 0) (.v 0) .b32 0 0) (by decide),
    laneMet (fr (.v 8) (.v 2) (.v 0) (.v 0) .b32 0 0) (by decide),
    laneMet (fr (.v 8) (.v 2) (.v 0) (.v 0) .b32 0 0) (by decide),
    laneMet (fr (.v 8) (.v 2) (.v 4) (.v 6) .b32 0 0) (by decide),
    laneMet (fr (.v 8) (.v 2) (.v 4) (.v 0) .z32 0 0) (by decide),
    laneMet (fr (.v 8) (.v 2) (.v 0) (.v 0) .z64 0 0) (by decide),
    laneMet (fr (.k 1) (.k 2) (.k 3) (.v 0) .b32 0 0) (by decide)⟩

/-- Obligations.FloatLaneResults: the hypotheses of each lane clause are met. -/
theorem wit_float :
    LaneMet .fadd (fun f => spAB f.ty 6) ∧
    LaneMet .fsub (fun f => spAB f.ty 6) ∧
    LaneMet .fmul (fun f => spAB f.ty 6) ∧
    LaneMet .ffma (fun f => spABC f.ty 6) ∧
    LaneMet .fmin (fun f => spAB f.ty 6) ∧
    LaneMet .fmax (fun f => spAB f.ty 6) ∧
    LaneMet .fminnum (fun f => spAB f.ty 6) ∧
    LaneMet .fmaxnum (fun f => spAB f.ty 6) ∧
    LaneMet .fcmp (fun f => ⟨.val f.ty, .val f.ty, .no, .msk, 6⟩) ∧
    LaneMet .fclass (fun f => ⟨.val f.ty, .no, .no, .val 1, 6⟩) ∧
    LaneMet .frnd (fun f => spA f.ty 6) ∧
    LaneMet .ffrac (fun f => spA f.ty 6) ∧
    LaneMet .fscale (fun f => ⟨.val f.ty, .val .s32, .no, .val 1, 6⟩) ∧
    LaneMet .fgetexp (fun f => spA f.ty 6) ∧
    LaneMet .frcp (fun f => spA f.ty 14) ∧
    LaneMet .frsq (fun f => spA f.ty 14) ∧
    LaneMet .fsqrt (fun f => spA f.ty (divsqLat false f.ty)) ∧
    LaneMet .fdiv (fun f => spAB f.ty (divsqLat true f.ty)) ∧
    LaneMet .fexp2 (fun f => spA f.ty 14) ∧
    LaneMet .flog2 (fun f => spA f.ty 14) ∧
    LaneMet .fsin (fun f => spA f.ty 14) ∧
    LaneMet .fcos (fun f => spA f.ty 14) ∧
    LaneMet .ftanh (fun f => spA f.ty 14) ∧
    LaneMet .fsigm (fun f => spA f.ty 14) ∧
    LaneMet .cvti (fun f => ⟨.val f.ty, .no, .no, .val 1, 6⟩) ∧
    LaneMet .cvtfi (fun f => ⟨.val (ffTy (extN f)), .no, .no, .val (tyN f.ty), 6⟩) ∧
    LaneMet .fpack (fun f => ⟨.val f.ty, .val f.ty, .val .b32, .val 1, 6⟩) ∧
    LaneMet .funpack (fun _ => ⟨.val .b32, .no, .no, .val 1, 6⟩) ∧
    LaneMet .dqnt (fun _ => ⟨.val .b32, .val .b32, .no, .val 1, 6⟩) ∧
    LaneMet .fdot2 (fun f => ⟨.val f.ty, .val f.ty, .val .f32, .val 1, 7⟩) ∧
    LaneMet .fdot4 (fun _ => ⟨.val .b32, .val .b32, .val .f32, .val 1, 7⟩) ∧
    LaneMet .fdot8 (fun _ => ⟨.val .b32, .val .b32, .val .f32, .val 1, 7⟩) ∧
    LaneMet .cvtf (fun f => ⟨.val f.ty, if extN f / 32 = 3 then .val f.ty else .no, .no, .val 1, 6⟩) :=
  ⟨laneMet (fr (.v 8) (.v 2) (.v 4) (.v 0) .f32 0 0) (by decide),
    laneMet (fr (.v 8) (.v 2) (.v 4) (.v 0) .f32 0 0) (by decide),
    laneMet (fr (.v 8) (.v 2) (.v 4) (.v 0) .f32 0 0) (by decide),
    laneMet (fr (.v 8) (.v 2) (.v 4) (.v 6) .f32 0 0) (by decide),
    laneMet (fr (.v 8) (.v 2) (.v 4) (.v 0) .f32 0 0) (by decide),
    laneMet (fr (.v 8) (.v 2) (.v 4) (.v 0) .f32 0 0) (by decide),
    laneMet (fr (.v 8) (.v 2) (.v 4) (.v 0) .f32 0 0) (by decide),
    laneMet (fr (.v 8) (.v 2) (.v 4) (.v 0) .f32 0 0) (by decide),
    laneMet (fr (.k 1) (.v 2) (.v 4) (.v 0) .f32 0 0) (by decide),
    laneMet (fr (.v 8) (.v 2) (.v 0) (.v 0) .f32 0 0) (by decide),
    laneMet (fr (.v 8) (.v 2) (.v 0) (.v 0) .f32 0 0) (by decide),
    laneMet (fr (.v 8) (.v 2) (.v 0) (.v 0) .f32 0 0) (by decide),
    laneMet (fr (.v 8) (.v 2) (.v 4) (.v 0) .f32 0 0) (by decide),
    laneMet (fr (.v 8) (.v 2) (.v 0) (.v 0) .f32 0 0) (by decide),
    laneMet (fr (.v 8) (.v 2) (.v 0) (.v 0) .f32 0 0) (by decide),
    laneMet (fr (.v 8) (.v 2) (.v 0) (.v 0) .f32 0 0) (by decide),
    laneMet (fr (.v 8) (.v 2) (.v 0) (.v 0) .f32 0 0) (by decide),
    laneMet (fr (.v 8) (.v 2) (.v 4) (.v 0) .f32 0 0) (by decide),
    laneMet (fr (.v 8) (.v 2) (.v 0) (.v 0) .f32 0 0) (by decide),
    laneMet (fr (.v 8) (.v 2) (.v 0) (.v 0) .f32 0 0) (by decide),
    laneMet (fr (.v 8) (.v 2) (.v 0) (.v 0) .f32 0 0) (by decide),
    laneMet (fr (.v 8) (.v 2) (.v 0) (.v 0) .f32 0 0) (by decide),
    laneMet (fr (.v 8) (.v 2) (.v 0) (.v 0) .f32 0 0) (by decide),
    laneMet (fr (.v 8) (.v 2) (.v 0) (.v 0) .f32 0 0) (by decide),
    laneMet (fr (.v 8) (.v 2) (.v 0) (.v 0) .z32 0 0) (by decide),
    laneMet (fr (.v 8) (.v 2) (.v 0) (.v 0) .z32 0 0) (by decide),
    laneMet (fr (.v 8) (.v 2) (.v 4) (.v 6) .f32 0 36) (by decide),
    laneMet (fr (.v 8) (.v 2) (.v 0) (.v 0) .f32 0 36) (by decide),
    laneMet (fr (.v 8) (.v 2) (.v 4) (.v 0) .f32 0 36) (by decide),
    laneMet (fr (.v 8) (.v 2) (.v 4) (.v 6) .f16x2 0 0) (by decide),
    laneMet (fr (.v 8) (.v 2) (.v 4) (.v 6) .b32 0 3) (by decide),
    laneMet (fr (.v 8) (.v 2) (.v 4) (.v 6) .b32 0 7) (by decide),
    laneMet (fr (.v 8) (.v 2) (.v 0) (.v 0) .f32 0 0) (by decide)⟩

/-- Obligations.PointerResults: the hypotheses of each lane clause are met. -/
theorem wit_pointer :
    WholeMet .ptrmk (fun _ => true) (fun f => ⟨if f.ext = 8 then .no else .val .z32, .val .z64, .no, .val 2, 4⟩) (fun f i => (ptrmkVal (extN f) i.a i.b).isSome) ∧
    WholeMet .ptradd (fun _ => true) (fun f => ⟨.val .b64, .val f.ty, .no, .val 2, 4⟩) (fun f i => (ptrAdd i.a (elemInt f.ty (tyElems f.ty).1 i.b)).isSome) :=
  ⟨wholeMet (fr (.v 8) (.s 2) .zero (.v 0) .b64 0 9) (by decide +kernel),
    wholeMet (fr (.v 8) (.s 2) .zero (.v 0) .s32 0 0) (by decide +kernel)⟩

/-- Obligations.CrossLaneResults: the hypotheses of each lane clause are met. -/
theorem wit_cross :
    LaneIfMet .lshuf (fun f g => !segTooWide f g) (fun f g => ⟨.val f.ty, .val .z32, .no, .val (tyN f.ty), 6 + wideLat g.width⟩) ∧
    LaneIfMet .lbcast (fun _ _ => true) (fun f g => ⟨.val f.ty, if f.ext = 1 then .no else .val .z32, .no, .val (tyN f.ty), 4 + wideLat g.width⟩) ∧
    LaneIfMet .lvote (fun f g => !(extN f == 3 && wordsMis g f.d)) (fun f g => ⟨if extN f = 2 then .val f.ty else .msk, .no, .no, if extN f = 3 then .val (maskWords g.width) else .msk, 4 + wideLat g.width⟩) ∧
    LaneIfMet .lscan (fun f g => !segTooWide f g) (fun f g => ⟨.val f.ty, .no, .no, .val (tyN f.ty), scanLat f.ty g.width⟩) ∧
    LaneIfMet .lreduce (fun f g => !segTooWide f g) (fun f g => ⟨.val f.ty, .no, .no, .val (tyN f.ty), scanLat f.ty g.width⟩) ∧
    LaneIfMet .qnt (fun f g => decide (qntLen f ≤ g.width)) (fun f g => ⟨.val f.ty, .no, .no, .val 2, 10 + wideLat g.width⟩) ∧
    LaneIfMet .kmov (fun f _ => extN f == 0) (fun _ _ => ⟨.msk, .no, .no, .msk, 4⟩) ∧
    LaneIfMet .kmov (fun f g => extN f == 1 && !wordsMis g f.a) (fun _ g => ⟨.regs (maskWords g.width), .no, .no, .msk, 4 + wideLat g.width⟩) ∧
    LaneIfMet .kmov (fun f g => extN f == 2 && !wordsMis g f.d) (fun _ g => ⟨.msk, .no, .no, .val (maskWords g.width), 4 + wideLat g.width⟩) ∧
    LaneIfMet .kmov (fun f _ => extN f == 3) (fun _ _ => ⟨.val .b32, .no, .no, .msk, 4⟩) ∧
    LaneIfMet .kmov (fun f _ => decide (4 ≤ extN f)) (fun _ _ => ⟨.msk, .no, .no, .val 1, 4⟩) :=
  ⟨laneIfMet (fr (.v 8) (.v 2) (.v 4) (.v 0) .z32 0 0) (by decide),
    laneIfMet (fr (.v 8) (.v 2) (.v 4) (.v 0) .z32 0 0) (by decide),
    laneIfMet (fr (.k 1) (.k 2) (.v 0) (.v 0) .b32 0 0) (by decide),
    laneIfMet (fr (.v 8) (.v 2) (.v 0) (.v 0) .z32 0 0) (by decide),
    laneIfMet (fr (.v 8) (.v 2) (.v 0) (.v 0) .z32 0 0) (by decide),
    laneIfMet (fr (.v 8) (.v 2) (.v 0) (.v 0) .f32 0 36) (by decide),
    laneIfMet (fr (.k 1) (.k 2) (.v 0) (.v 0) .b32 0 0) (by decide),
    laneIfMet (fr (.k 1) (.v 2) (.v 0) (.v 0) .b32 0 1) (by decide),
    laneIfMet (fr (.v 8) (.k 2) (.v 0) (.v 0) .b32 0 2) (by decide),
    laneIfMet (fr (.k 1) (.v 2) (.v 0) (.v 0) .b32 0 3) (by decide),
    laneIfMet (fr (.v 8) (.k 2) (.v 0) (.v 0) .b32 0 4) (by decide)⟩

/-- Obligations.ReadMoveResults: the hypotheses of each lane clause are met. -/
theorem wit_read_lane :
    LaneIfMet .tinfo (fun f g => !((f.ext.toNat % 16 == 4 || f.ext.toNat % 16 == 7) && wordsMis g f.d)) (fun f g => ⟨.no, .no, .no, .val (tinfoWords g (f.ext.toNat % 16)), 4⟩) :=
  laneIfMet (fr (.v 8) (.v 0) (.v 0) (.v 0) .z32 0 0) (by decide)

/-- Obligations.ElementArithmetic: the hypotheses of each lane clause are met. -/
theorem wit_element :
    LaneMet .iadd (fun f => spAB f.ty 4) ∧
    LaneMet .isub (fun f => spAB f.ty 4) ∧
    LaneMet .ineg (fun f => spA f.ty 4) ∧
    LaneMet .iabs (fun f => spA f.ty 4) ∧
    LaneMet .imin (fun f => spAB f.ty 4) ∧
    LaneMet .imax (fun f => spAB f.ty 4) :=
  ⟨laneMet (fr (.v 8) (.v 2) (.v 4) (.v 0) .z32 0 0) (by decide),
    laneMet (fr (.v 8) (.v 2) (.v 4) (.v 0) .z32 0 0) (by decide),
    laneMet (fr (.v 8) (.v 2) (.v 0) (.v 0) .s32 0 0) (by decide),
    laneMet (fr (.v 8) (.v 2) (.v 0) (.v 0) .s32 0 0) (by decide),
    laneMet (fr (.v 8) (.v 2) (.v 4) (.v 0) .z32 0 0) (by decide),
    laneMet (fr (.v 8) (.v 2) (.v 4) (.v 0) .z32 0 0) (by decide)⟩

/-- Obligations.CarryArithmetic: the hypotheses of each lane clause are met. -/
theorem wit_carry :
    LaneMet .iaddc (fun f => ⟨.val f.ty, .val f.ty, .msk, .valK (tyN f.ty), 4⟩) ∧
    LaneMet .isubb (fun f => ⟨.val f.ty, .val f.ty, .msk, .valK (tyN f.ty), 4⟩) :=
  ⟨laneMet (fr (.v 8) (.v 2) (.v 4) (.k 4) .z32 0 0) (by decide),
    laneMet (fr (.v 8) (.v 2) (.v 4) (.k 4) .z32 0 0) (by decide)⟩

/-- Obligations.DivisionResults: the hypotheses of each lane clause are met. -/
theorem wit_division :
    LaneIfMet .idiv (fun f _ => !variant f) (fun f _ => spAB f.ty (divLat f.ty)) ∧
    LaneIfMet .irem (fun f _ => !variant f) (fun f _ => spAB f.ty (divLat f.ty)) ∧
    WholeMet .idiv variant (fun f => spAB f.ty (divLat f.ty)) (fun f i => i.b % 2 ^ (tyElems f.ty).1 != 0) ∧
    WholeMet .irem variant (fun f => spAB f.ty (divLat f.ty)) (fun f i => i.b % 2 ^ (tyElems f.ty).1 != 0) :=
  ⟨laneIfMet (fr (.v 8) (.v 2) (.v 4) (.v 0) .z32 0 0) (by decide),
    laneIfMet (fr (.v 8) (.v 2) (.v 4) (.v 0) .z32 0 0) (by decide),
    wholeMet (fr (.v 8) (.v 2) .ones (.v 0) .z32 1 0) (by decide +kernel),
    wholeMet (fr (.v 8) (.v 2) .ones (.v 0) .z32 1 0) (by decide +kernel)⟩

/-- Obligations.ShiftResults: the hypotheses of each lane clause are met. -/
theorem wit_shift :
    LaneMet .shl (fun f => ⟨.val f.ty, .val .z32, .no, .val (tyN f.ty), 4⟩) ∧
    LaneMet .shr (fun f => ⟨.val f.ty, .val .z32, .no, .val (tyN f.ty), 4⟩) ∧
    LaneMet .sar (fun f => ⟨.val f.ty, .val .z32, .no, .val (tyN f.ty), 4⟩) ∧
    LaneMet .rot (fun f => ⟨.val f.ty, .val .z32, .no, .val (tyN f.ty), 4⟩) ∧
    LaneMet .funnel (fun _ => spABC .b32 4) :=
  ⟨laneMet (fr (.v 8) (.v 2) (.v 4) (.v 0) .z32 0 0) (by decide),
    laneMet (fr (.v 8) (.v 2) (.v 4) (.v 0) .z32 0 0) (by decide),
    laneMet (fr (.v 8) (.v 2) (.v 4) (.v 0) .z32 0 0) (by decide),
    laneMet (fr (.v 8) (.v 2) (.v 4) (.v 0) .z32 0 0) (by decide),
    laneMet (fr (.v 8) (.v 2) (.v 4) (.v 6) .b32 0 0) (by decide)⟩
/-- Obligations.ReadMoveResults: the hypotheses of each clause are met. -/
theorem wit_read_move_results :
    (∃ (s : State) (g : Group) (c : Clause) (f : FormI), Issues s g c ∧ frameFail g [(f.d, tyN f.ty)] = none) ∧
    (∃ (s : State) (g : Group) (c : Clause) (f : FormI), Issues s g c ∧ frameFail g [(f.d, 2)] = none) ∧
    (∃ (s : State) (g : Group) (c : Clause) (f : FormR), Issues s g c ∧ mustResync s f g = false ∧ f.ext ≠ 0x14 ∧ ((f.ext = 0x0C → wordsMis g f.d = false)) ∧ frameFail g (laneOpds f ⟨.no, .no, .no, .val (specWords g f.ext.toNat), 4⟩) = none) ∧
    (∃ (s : State) (g : Group) (c : Clause) (f : FormR), Issues s g c ∧ mustResync s f g = false ∧ f.ext = 0x14 ∧ frameFail g (laneOpds f ⟨.no, .no, .no, .val 2, 4⟩) = none) ∧
    (∃ (s : State) (g : Group) (c : Clause) (f : FormR), Issues s g c ∧ frameFail g (laneOpds f ⟨.val .b64, .cold .z32, .no, .msk, 6⟩) = none ∧ (let t := consultAll s g ((lanesOf (effFirst s g f.gd)).map (rdOpd (due s g) f.a .b64)); (lanesOf (effFirst s g f.gd)).all (fun l => match checkPtr t g (rdOpd (due s g) f.a .b64 l) (max 1 (rdOpd (due s g) f.b .z32 l)) 0 false with
        | .missObj _ => false
        | .ok _ | .bad | .missRegion _ => true) = true)) ∧
    (∃ (s : State) (g : Group) (c : Clause), Issues s g c) :=
  ⟨⟨st, gp, cl, fi (.v 8) .z32 5, st_issues, by decide +kernel⟩,
    ⟨st, gp, cl, fi (.v 9) .z32 5, st_issues, by decide +kernel⟩,
    ⟨st, gp, cl, fr (.v 8) (.v 0) (.v 0) (.v 0) .z32 0 0x0F, st_issues, by decide +kernel⟩,
    ⟨st, gp, cl, fr (.v 8) (.v 0) (.v 0) (.v 0) .z32 0 0x14, st_issues, by decide +kernel⟩,
    ⟨bs, gp, cl, fr (.k 1) (.s 2) (.s 24) (.v 0) .z32 0 1, st_base, by decide +kernel⟩,
    ⟨st, gp, cl, st_issues⟩⟩

/-- Obligations.LoadStoreIssueResults: the hypotheses of each clause are met. -/
theorem wit_load_store_issue_results :
    LoadMet .ld 0x60 false ∧
    LoadMet .ldnp 0x62 false ∧
    LoadMet .ldb 0x63 true ∧
    WriteMet .st 0x61 (fun f => regsOf (sizeBytes f)) (fun _ => 0) 1 2 false (fun _ _ => false) ∧
    WriteMet .atom 0x64 (fun f => regsOf (sizeBytes f)) (fun f => regsOf (sizeBytes f)) 2 11 true (fun l p => atomRefuse l p || isMcast l) ∧
    WriteMet .acas 0x65 (fun f => 2 * regsOf (sizeBytes f)) (fun f => regsOf (sizeBytes f)) 2 11 true (fun l p => atomRefuse l p || isMcast l) ∧
    WriteMet .red 0x66 (fun f => regsOf (sizeBytes f)) (fun _ => 0) 2 10 true atomRefuse :=
  ⟨memMet (goOf (chkLanes (memFrom bs gp 0x60 (fm (.v 8) (.s 2) (.v 0) .grp .rlx 2 0)) (memAt bs gp 0x60 (fm (.v 8) (.s 2) (.v 0) .grp .rlx 2 0) 2 0) (fm (.v 8) (.s 2) (.v 0) .grp .rlx 2 0) 1 (fun l _ => isMcast l) (loadLanes false (effFirst bs gp g0)))) base gp (fm (.v 8) (.s 2) (.v 0) .grp .rlx 2 0) (by decide +kernel) (by decide +kernel),
    memMet (goOf (chkLanes (memFrom bs gp 0x62 (fm (.v 8) (.s 2) (.v 0) .grp .rlx 3 0)) (memAt bs gp 0x62 (fm (.v 8) (.s 2) (.v 0) .grp .rlx 3 0) 2 0) (fm (.v 8) (.s 2) (.v 0) .grp .rlx 3 0) 1 (fun l _ => isMcast l) (loadLanes false (effFirst bs gp g0)))) base gp (fm (.v 8) (.s 2) (.v 0) .grp .rlx 3 0) (by decide +kernel) (by decide +kernel),
    memMet (goOf (chkLanes (memFrom bs gp 0x63 (fm (.v 8) (.s 4) (.v 0) .team .acq 2 0)) (memAt bs gp 0x63 (fm (.v 8) (.s 4) (.v 0) .team .acq 2 0) 2 0) (fm (.v 8) (.s 4) (.v 0) .team .acq 2 0) 1 (fun l _ => isMcast l) (loadLanes true (effFirst bs gp g0)))) base gp (fm (.v 8) (.s 4) (.v 0) .team .acq 2 0) (by decide +kernel) (by decide +kernel),
    memMet (goOf (chkLanes (memFrom bs gp 0x61 (fm (.v 0) (.s 2) (.v 8) .grp .rlx 2 0)) (memAt bs gp 0x61 (fm (.v 0) (.s 2) (.v 8) .grp .rlx 2 0) 2 0) (fm (.v 0) (.s 2) (.v 8) .grp .rlx 2 0) 2 (fun _ _ => false) (lanesOf (effFirst bs gp g0)))) base gp (fm (.v 0) (.s 2) (.v 8) .grp .rlx 2 0) (by decide +kernel) (by decide +kernel),
    memMet (goOf (chkLanes (memFrom bs gp 0x64 (fm (.v 8) (.s 2) (.v 10) .dev .ar 2 0)) (memAt bs gp 0x64 (fm (.v 8) (.s 2) (.v 10) .dev .ar 2 0) 2 0) (fm (.v 8) (.s 2) (.v 10) .dev .ar 2 0) 11 (fun l p => atomRefuse l p || isMcast l) (lanesOf (effFirst bs gp g0)))) base gp (fm (.v 8) (.s 2) (.v 10) .dev .ar 2 0) (by decide +kernel) (by decide +kernel),
    memMet (goOf (chkLanes (memFrom bs gp 0x65 (fm (.v 8) (.s 2) (.v 12) .dev .rlx 3 0)) (memAt bs gp 0x65 (fm (.v 8) (.s 2) (.v 12) .dev .rlx 3 0) 2 0) (fm (.v 8) (.s 2) (.v 12) .dev .rlx 3 0) 11 (fun l p => atomRefuse l p || isMcast l) (lanesOf (effFirst bs gp g0)))) base gp (fm (.v 8) (.s 2) (.v 12) .dev .rlx 3 0) (by decide +kernel) (by decide +kernel),
    memMet (goOf (chkLanes (memFrom bs gp 0x66 (fm (.v 0) (.s 20) (.v 10) .fab .rel 3 0)) (memAt bs gp 0x66 (fm (.v 0) (.s 20) (.v 10) .fab .rel 3 0) 2 0) (fm (.v 0) (.s 20) (.v 10) .fab .rel 3 0) 10 (atomRefuse) (lanesOf (effFirst bs gp g0)))) base gp (fm (.v 0) (.s 20) (.v 10) .fab .rel 3 0) (by decide +kernel) (by decide +kernel)⟩

/-- Obligations.FenceAndL1ControlResults: the hypotheses of each clause are met. -/
theorem wit_fence_and_l1_control_results :
    MemMet .fence 0x67 (fun _ => 0) (fun _ => 0) (fun _ => 0)
      (fun (_ : Unit) s x f _ => relOrder f.order = true → fenceDrained s x.g f.scope = true) ∧
    MemMet .pres 0x73 (fun _ => 2) (fun _ => 0) (fun _ => 1)
      (fun ats s x f eff => chkAll (fun _ _ => false) ((lanesOf eff).map (presLane s x f)) = .go ats ∧ cntOf x.g 0 ≠ 63) ∧
    MemMet .advise 0x76 (fun _ => 2) (fun _ => 1) (fun _ => 0)
      (fun (_ : Unit) s x f eff => (lanesOf eff).findSome? (l1Miss s x f) = none) ∧
    MemMet .lpin 0x6F (fun _ => 2) (fun _ => 0) (fun _ => 0)
      (fun (_ : Unit) s x f eff => L1Free s x f 1 eff) ∧
    MemMet .lunpin 0x70 (fun _ => 2) (fun _ => 0) (fun _ => 0)
      (fun (_ : Unit) s x f eff => L1Free s x f 0 eff) ∧
    MemMet .linv 0x71 (fun _ => 2) (fun _ => 0) (fun _ => 0)
      (fun (_ : Unit) s x f eff => L1Free s x f 0 eff) ∧
    MemMet .lwb 0x72 (fun _ => 2) (fun _ => 0) (fun _ => 0)
      (fun (_ : Unit) s x f eff => L1Free s x f 0 eff) :=
  ⟨memMet () base gp (fm (.v 0) (.v 0) (.v 0) .sys .ar 0 0) (by decide +kernel) (by decide +kernel),
    memMet (goOf (chkAll (fun _ _ => false) ((lanesOf (effFirst bs gp g0)).map (presLane bs (memAt bs gp 0x73 (fm (.v 8) (.s 4) (.v 0) .grp .rlx 2 0) 2 0) (fm (.v 8) (.s 4) (.v 0) .grp .rlx 2 0))))) base gp (fm (.v 8) (.s 4) (.v 0) .grp .rlx 2 0) (by decide +kernel) (by decide +kernel),
    memMet () base gp (fm (.v 0) (.s 2) (.v 8) .grp .rlx 0 1) (by decide +kernel) (by decide +kernel),
    memMet () base gp (fm (.k 1) (.s 2) (.v 0) .grp .rlx 2 0) (by decide +kernel) (by unfold L1Free; decide +kernel),
    memMet () base gp (fm (.v 0) (.s 2) (.v 0) .grp .rlx 2 0) (by decide +kernel) (by unfold L1Free; decide +kernel),
    memMet () base gp (fm (.v 0) (.s 2) (.v 0) .grp .rlx 2 0) (by decide +kernel) (by unfold L1Free; decide +kernel),
    memMet () base gp (fm (.v 0) (.s 2) (.v 0) .grp .rlx 2 0) (by decide +kernel) (by unfold L1Free; decide +kernel)⟩

/-- Obligations.PoolControlResults: the hypotheses of each clause are met. -/
theorem wit_pool_control_results :
    OnceMet effAt .pgrow (fun _ => allocSpec) (fun (_ : Unit) _ _ _ _ => True) ∧ OnceMet effAt .pshrink (fun _ => allocSpec) (fun (_ : Unit) _ _ _ _ => True) ∧ OnceMet effAt .fgrow (fun _ => allocSpec) (fun (_ : Unit) _ _ _ _ => True) ∧ OnceMet effAt .fshrink (fun _ => allocSpec) (fun (_ : Unit) _ _ _ _ => True) ∧
    (∃ (s : State) (core : Nat) (r : AllocReq) (rest : List AllocReq) (g : Group) (c : Ctx) (old k : Nat) (new : Int), (coreAt s core).alloc = r :: rest ∧ getG s r.g = some g ∧ ctxOf s g = some c ∧ waitsAlloc g = true ∧ (let s1 := modCore s core (fun k => { k with alloc := rest }); allocPlan s1 r g c = (old, new, k, true) ∧ ((r.grow = false → copiesIn s1 (shrinkRange r g c new.toNat).1 (shrinkRange r g c new.toNat).2 = false)))) ∧
    OnceMet effAt .ocfill ocSpec
      (fun (_ : Unit) _ x _ _ => cntOf x.g 7 ≠ 63) ∧
    OnceMet effAt .ocdrop ocSpec
      (fun (_ : Unit) _ x _ _ => cntOf x.g 7 ≠ 63) ∧
    OnceMet effAt .ocsync (fun _ => noSpec)
      (fun (_ : Unit) _ x _ _ => cntOf x.g 7 ≠ 63) ∧
    (∃ (s : State) (g : Group) (c : Clause) (f : FormR), (let sp : LaneSpec := ⟨.val .b64, .no, .no, .val (if f.ext = 0 then 2 else 1), 0⟩; (let x := dueTouched s g f sp; (let ps := (lanesOf (effAt s g f.gd)).map (fun l => (l, rdOpd (atPass x f.gd l) f.a .b64 l)); (let t := consultAll s x.g ((ps.map (·.2)).filter (fun p => ptrSpace p == 1)); Issues s g c ∧ frameFail g (laneOpds f sp) = none ∧ effAt s g f.gd ≠ 0 ∧ ps.all (fun p => (objqLane t x.g (f.ext.toNat % 4) p.2).1.isNone) = true ∧ cntOf x.g 0 ≠ 63))))) :=
  ⟨onceMet () base gp (fr (.v 8) (.s 22) (.v 0) (.v 0) .z32 0 0) (by decide +kernel) trivial, onceMet () base gp (fr (.v 8) (.s 22) (.v 0) (.v 0) .z32 0 0) (by decide +kernel) trivial, onceMet () base gp (fr (.v 8) (.s 22) (.v 0) (.v 0) .z32 0 0) (by decide +kernel) trivial, onceMet () base gp (fr (.v 8) (.s 22) (.v 0) (.v 0) .z32 0 0) (by decide +kernel) trivial,
    ⟨((withGroup (modCore base 0 (fun k => { k with alloc := [{ g := 0, op := 0x68, f := (fr (.v 8) (.s 22) (.v 0) (.v 0) .z32 0 0), amount := 2048, eff := fullMask 32, since := 0 }] })) { gp with park := .alloc })), 0, { g := 0, op := 0x68, f := (fr (.v 8) (.s 22) (.v 0) (.v 0) .z32 0 0), amount := 2048, eff := fullMask 32, since := 0 }, [], { gp with park := .alloc }, ctx0, 4096, 1, 6144, by decide +kernel⟩,
    onceMet () base gp (fr (.v 0) (.v 8) (.v 0) (.v 0) .b32 0 3) (by decide +kernel) (by decide +kernel),
    onceMet () base gp (fr (.v 0) (.v 8) (.v 0) (.v 0) .b32 0 8) (by decide +kernel) (by decide +kernel),
    onceMet () base gp (fr (.v 0) (.v 0) (.v 0) (.v 0) .b32 0 0) (by decide +kernel) (by decide +kernel),
    ⟨bs, gp, cl, fr (.v 8) (.s 2) (.v 0) (.v 0) .z64 0 0, st_base, by decide +kernel⟩⟩

/-- Obligations.TransferResults: the hypotheses of each clause are met. -/
theorem wit_transfer_results :
    JumpMet effAt .bra
      (fun _ _ _ _ => True) ∧
    JumpMet effAt .brc
      (fun _ _ _ _ => True) ∧
    JumpMet effAt .loop
      (fun _ _ _ _ => True) ∧
    JumpMet effFirst .call
      (fun _ x f eff => wbaseOf x.g + f.opd.toNat < x.g.frame ∧ fullLanes x.g eff = 0) ∧
    JumpMet effAt .fspawn
      (fun _ _ _ _ => True) ∧
    (∃ (s : State) (g : Group) (c : Clause) (f : FormJ) (gr : Grid) (q k : Nat), Issues s g c ∧ gridOf s g = some gr ∧ targetOk s gr (jTarget c f) = true ∧ effAt s g f.gd ≠ 0 ∧ frameFail (due s g).g [(bcontOpnd f, 2)] = none ∧ (let x := (opdRegs (due s g).g (bcontOpnd f) 2).foldl (fun x r => touchReg x true r) (due s g); (let p := rdOpd x (bcontOpnd f) .b64 ((lowLane (effAt s g f.gd)).getD 0); objPlace p 32 (checkPtr s x.g p 32 0 true) = .go q k ∧ scrKey x.g.ctx 0 ≤ k ∧ k < scrKey x.g.ctx (2 ^ 32) ∧ (if f.cn then earlierAny s x.g.id (effAt s g f.gd) else earlierAt s x.g.id (effAt s g f.gd) (.pool k) 32) = false ∧ objInit (objRd s k) = true))) ∧
    OnceMet effFirst .brx (fun _ => a32Spec)
      (fun (_ : Unit) s x f eff => badTarget s (touchSrc x f a32Spec).g ((lanesOf eff).map (fun l => rdOpd (touchSrc x f a32Spec) f.a .z32 l)) = none) ∧
    OnceMet effFirst .callx (fun _ => a32Spec)
      (fun (_ : Unit) s x f eff => badTarget s (touchSrc x f a32Spec).g ((lanesOf eff).map (fun l => rdOpd (touchSrc x f a32Spec) f.a .z32 l)) = none ∧
      wbaseOf (dropLu (touchSrc x f a32Spec) f a32Spec).g + f.ext.toNat < (dropLu (touchSrc x f a32Spec) f a32Spec).g.frame ∧
      fullLanes (dropLu (touchSrc x f a32Spec) f a32Spec).g eff = 0) ∧
    OnceMet effFirst .ret (fun _ => noSpec)
      (fun (_ : Unit) _ x _ eff => (lanesOf eff).all (fun l => !(nth x.g.rets l []).isEmpty) = true) :=
  ⟨jumpMet base gp (fj 2 0 0 false) grid0 (by decide +kernel) (by decide +kernel) (trivial),
    jumpMet base gp (fj 2 1 0 false) grid0 (by decide +kernel) (by decide +kernel) (trivial),
    jumpMet base gp (fj 0 0 0xC5 false) grid0 (by decide +kernel) (by decide +kernel) (trivial),
    jumpMet base gp (fj 2 0 4 false) grid0 (by decide +kernel) (by decide +kernel) (by decide +kernel),
    jumpMet base gp (fj 2 0 0 false) grid0 (by decide +kernel) (by decide +kernel) (trivial),
    ⟨withGroup (baseScr (2 ^ 178 + 2 ^ 48 + 2 ^ 32)) gp, gp, cl, fj 2 0 0xC4 true, grid0, 0x2000000000000040, scrKey 0 64, withGroup_issues rfl rfl rfl rfl, by decide +kernel⟩,
    onceMet () base gp (fr (.v 0) (.s 22) (.v 0) (.v 0) .z32 0 0) (by decide +kernel) (by decide +kernel),
    onceMet () base gp (fr (.v 0) (.s 22) (.v 0) (.v 0) .z32 0 4) (by decide +kernel) (by decide +kernel),
    onceMet () base { gp with rets := List.replicate 32 [⟨16, 0⟩] } (fr (.v 0) (.v 0) (.v 0) (.v 0) .b32 0 0) (by decide +kernel) (by decide +kernel)⟩

/-- Obligations.FibreAndRegisterControlResults: the hypotheses of each clause are met. -/
theorem wit_fibre_and_register_control_results :
    OnceMet effAt .fend (fun _ => noSpec)
      (fun (_ : Unit) _ _ _ _ => True) ∧
    OnceMet effAt .fyield (fun _ => noSpec)
      (fun (_ : Unit) _ _ _ _ => True) ∧
    OnceMet effAt .exit (fun _ => noSpec)
      (fun (_ : Unit) _ _ _ _ => True) ∧
    OnceMet effAt .sleep (fun _ => a32Spec)
      (fun (_ : Unit) _ _ _ _ => True) ∧
    OnceMet effAt .sets (fun _ => a32Spec)
      (fun (_ : Unit) _ _ _ _ => True) :=
  ⟨onceMet () base gp (fr (.v 0) (.v 0) (.v 0) (.v 0) .b32 0 0) (by decide +kernel) (trivial),
    onceMet () base gp (fr (.v 0) (.v 0) (.v 0) (.v 0) .b32 0 0) (by decide +kernel) (trivial),
    onceMet () base gp (fr (.v 0) (.v 0) (.v 0) (.v 0) .b32 0 0) (by decide +kernel) (trivial),
    onceMet () base gp (fr (.v 0) (.s 22) (.v 0) (.v 0) .z32 0 0) (by decide +kernel) (trivial),
    onceMet () base gp (fr (.v 0) (.s 22) (.v 0) (.v 0) .z32 0 15) (by decide +kernel) (trivial)⟩

/-- Obligations.TrapInstructionResults: the hypotheses of each clause are met. -/
theorem wit_trap_instruction_results :
    OnceMet effAt .trap (fun _ => noSpec)
      (fun (_ : Unit) _ _ _ _ => True) ∧
    OnceMet effAt .tret (fun _ => noSpec)
      (fun (t : Fibre) _ x f _ => x.g.hMode = true ∧ x.g.trapped = some t ∧ (f.ext.getLsbD 0 && x.g.trec.resume == x.g.trec.pc && t.rem.isNone) = false) ∧
    OnceMet effAt .tmask (fun _ => tmaskSpec)
      (fun (gr : Grid) s x f eff => gridOf s (touchSrc x f tmaskSpec).g = some gr ∧
      targetOk s gr (rdOpd (touchSrc x f tmaskSpec) f.a .z32 ((lowLane eff).getD 0) : Int) = true) ∧
    OnceMet effAt .tsub tsubSpec
      (fun (_ : Unit) _ x f _ => (touchSrc x f (tsubSpec f)).g.hMode = true ∧ trappedDst (touchSrc x f (tsubSpec f)).g = none) ∧
    OnceMet effAt .tsub tsubSpec
      (fun (d : Opd × Nat) _ x f _ =>
      let y := touchSrc x f (tsubSpec f)
      y.g.hMode = true ∧ trappedDst y.g = some d ∧ f.ext.toNat % 8 ≤ d.2 ∧
      (tyN f.ty = 2 → isMask d.1 = false → (regNo d.1 + f.ext.toNat % 8) % 2 = 0) ∧
      (isVec d.1 = true → y.g.trec.wbase + regNo d.1 + f.ext.toNat % 8 + tyN f.ty ≤ y.g.frame)) :=
  ⟨onceMet () base gp (fr (.v 0) (.v 0) (.v 0) (.v 0) .b32 0 7) (by decide +kernel) (trivial),
    onceMet (fib 8) base gpH (fr (.v 0) (.v 0) (.v 0) (.v 0) .b32 0 0) (by decide +kernel) (by decide +kernel),
    onceMet grid0 base gp (fr (.v 0) (.s 22) (.s 23) (.v 0) .z32 0 8) (by decide +kernel) (by decide +kernel),
    onceMet () base { gpH with trec := TrapRec.zero } (fr (.v 0) (.v 8) (.v 0) (.v 0) .b32 0 0) (by decide +kernel) (by decide +kernel),
    onceMet ((.v 10, 1) : Opd × Nat) base gpH (fr (.v 0) (.v 8) (.v 0) (.v 0) .b32 0 0) (by decide +kernel) (by decide +kernel)⟩

/-- Obligations.AgentControlResults: the hypotheses of each clause are met. -/
theorem wit_agent_control_results :
    OnceMet effAt .ctxsave (fun _ => agentSpec)
      (fun (a : Ctx × Nat) s x f eff =>
      let y := touchSrc x f agentSpec
      let s0 := putGM s y
      ctxInStack s0 (stackOf s0 y.g) (rdOpd y f.a .z32 ((lowLane eff).getD 0)) = some a.1 ∧ a.1.core = coreOf s0 y.g ∧ a.1.state = .halted ∧
      saveAt s0 a.1 2 = some a.2 ∧ countersQuiet s0 a.1.id = true ∧ saveHeld s0 a.1 = false) ∧
    OnceMet effAt .ctxload (fun _ => agentSpec)
      (fun (a : Ctx × Nat × State) s x f eff =>
      let y := touchSrc x f agentSpec
      let s0 := putGM s y
      ctxInStack s0 (stackOf s0 y.g) (rdOpd y f.a .z32 ((lowLane eff).getD 0)) = some a.1 ∧ a.1.core = coreOf s0 y.g ∧ a.1.state = .saved ∧ a.1.faulted = false ∧
      saveAt s0 a.1 1 = some a.2.1 ∧ saveHeld s0 a.1 = false ∧ ((groupsOf s0 a.1.id).filter (fun g => !g.ended)).length ≤ (freeSlots s0 a.1.core).length ∧
      makeRoomFor s0 a.1.core a.1.evicted a.1.id = some a.2.2) ∧
    OnceMet effAt .halt (fun _ => noSpec)
      (fun (_ : Unit) _ _ f _ => f.ext.getLsbD 0 = true) ∧
    OnceMet effAt .halt (fun _ => noSpec)
      (fun (_ : Unit) _ _ f _ => f.ext.getLsbD 0 = false) ∧
    OnceMet effAt .preq (fun _ => preqSpec)
      (fun (k : Option Ctx) s x f eff => ctxInStack s (stackOf s (touchSrc x f preqSpec).g) (rdOpd (touchSrc x f preqSpec) f.a .z32 ((lowLane eff).getD 0)) = k) :=
  ⟨onceMet ((ctx1 .halted, 4096) : Ctx × Nat) { base with ctxs := [ctx0, ctx1 .halted] } gpA (fr (.v 8) (.s 23) (.v 0) (.v 0) .z32 0 0) (by decide +kernel) (by decide +kernel),
    onceMet ((ctx1 .saved, 4096, putGM (withGroup { base with ctxs := [ctx0, ctx1 .saved] } gpA) (touchSrc (due (withGroup { base with ctxs := [ctx0, ctx1 .saved] } gpA) gpA) (fr (.v 8) (.s 23) (.v 0) (.v 0) .z32 0 0) agentSpec)) : Ctx × Nat × State) { base with ctxs := [ctx0, ctx1 .saved] } gpA (fr (.v 8) (.s 23) (.v 0) (.v 0) .z32 0 0) (by decide +kernel) (by decide +kernel),
    onceMet () base gpA (fr (.v 0) (.v 0) (.v 0) (.v 0) .b32 0 1) (by decide +kernel) (by decide +kernel),
    onceMet () base gpA (fr (.v 0) (.v 0) (.v 0) (.v 0) .b32 0 0) (by decide +kernel) (by decide +kernel),
    onceMet (some (ctx1 .halted)) { base with ctxs := [ctx0, ctx1 .halted] } gpA (fr (.v 8) (.s 23) (.v 0) (.v 0) .z32 0 0) (by decide +kernel) (by decide +kernel)⟩

/-- Obligations.AgentAndPowerResults: the hypotheses of each clause are met. -/
theorem wit_agent_and_power_results :
    OnceMet effAt .tclaim (fun _ => agentRd (.val .z32) .no)
      (fun (_ : Unit) _ x f _ => cntOf (touchSrc x f (agentRd (.val .z32) .no)).g 2 ≠ 63) ∧
    OnceMet effAt .gdec (fun _ => agentRd (.val .z32) .no)
      (fun (_ : Unit) _ x f _ => cntOf (touchSrc x f (agentRd (.val .z32) .no)).g 2 ≠ 63) ∧
    OnceMet effAt .qack (fun _ => agentRd (.val .z32) (.val .z32))
      (fun (_ : Unit) _ x f _ => cntOf (touchSrc x f (agentRd (.val .z32) (.val .z32))).g 2 ≠ 63) ∧
    OnceMet effAt .qtake (fun _ => agentRd (.val .b64) .no)
      (fun (k : Nat) s x f eff =>
      let y := touchSrc x f (agentRd (.val .b64) .no)
      let p := rdOpd y f.a .b64 ((lowLane eff).getD 0)
      cntOf y.g 0 ≠ 63 ∧ isScratch p = true ∧ checkPtr s y.g p 64 2 false = .ok (.pool k)) ∧
    OnceMet effAt .tplace (fun _ => agentRd (.val .z32) (.val .z32))
      (fun (_ : Unit) s x f eff =>
      let y := touchSrc x f (agentRd (.val .z32) (.val .z32))
      (match liveGrid s (partOf s y.g) (rdOpd y f.a .z32 ((lowLane eff).getD 0)) with
      | some g => teamCores g (coreOf s y.g)
      | none => [coreOf s y.g]).all (fun k => (coreAt s k).alloc.isEmpty) = true) ∧
    OnceMet effAt .pwrq (fun _ => pwrqSpec)
      (fun (_ : Unit) _ _ _ _ => True) ∧
    OnceMet effAt .pwrarm (fun _ => noSpec)
      (fun (_ : Unit) _ _ f _ => f.ext.getLsbD 0 = true) ∧
    OnceMet effAt .pwrarm (fun _ => noSpec)
      (fun (_ : Unit) _ _ f _ => f.ext.getLsbD 0 = false) ∧
    OnceMet effAt .veerhold (fun _ => holdSpec)
      (fun (_ : Unit) _ _ _ _ => True) :=
  ⟨onceMet () base gpA (fr (.v 8) (.s 22) (.v 0) (.v 0) .z32 0 0) (by decide +kernel) (by decide +kernel),
    onceMet () base gpA (fr (.v 8) (.s 22) (.v 0) (.v 0) .z32 0 0) (by decide +kernel) (by decide +kernel),
    onceMet () base gpA (fr (.v 8) (.s 22) (.s 23) (.v 0) .z32 0 0) (by decide +kernel) (by decide +kernel),
    onceMet (scrKey 0 64) base gpA (fr (.v 8) (.s 4) (.v 0) (.v 0) .z32 0 0) (by decide +kernel) (by decide +kernel),
    onceMet () base gpA (fr (.v 8) (.s 22) (.v 0) (.v 0) .z32 0 0) (by decide +kernel) (by decide +kernel),
    onceMet () base gp (fr (.v 8) (.v 0) (.v 0) (.v 0) .z32 0 2) (by decide +kernel) (trivial),
    onceMet () base gp (fr (.v 0) (.v 0) (.v 0) (.v 0) .b32 0 1) (by decide +kernel) (by decide +kernel),
    onceMet () base gp (fr (.v 0) (.v 0) (.v 0) (.v 0) .b32 0 0) (by decide +kernel) (by decide +kernel),
    onceMet () base gp (fr (.v 8) (.s 23) (.v 0) (.v 0) .z32 0 0) (by decide +kernel) (trivial)⟩

/-- Obligations.BarrierInstructionResults: the hypotheses of each clause are met. -/
theorem wit_barrier_instruction_results :
    MemMet .binit 0xA0 (fun _ => 2) (fun _ => 2) (fun _ => 0)
      (fun (a : Nat × Nat) s x f eff =>
      let b := rdOpd x f.b .z64 ((lowLane eff).getD 0)
      objChk s x f ((lowLane eff).getD 0) = .go a.1 a.2 ∧ 0 < b % 65536 ∧ b / 65536 < 2 ^ 47 ∧
      earlierAt s x.g.id eff (.pool a.2) 32 = false ∧ imageHere s (ctxOfObj s a.2) = true ∧ objNamed s x.g.team a.2 = false) ∧
    MemMet .barv 0xA1 (fun _ => 2) (fun _ => 0) (fun _ => 1)
      (fun (a : Nat × Nat) s x f eff =>
      objChks ((if f.sub.getLsbD 0 then lanesOf eff else (lanesOf eff).take 1).map (fun l => (l, objChk s x f l))) = .go a.1 a.2 ∧ cntOf x.g 2 ≠ 63) ∧
    MemMet .bexp 0xA2 (fun _ => 2) (fun _ => 2) (fun _ => 1)
      (fun (a : Nat × Nat) s x f eff =>
      objChks (((lanesOf eff).take 1).map (fun l => (l, objChk s x f l))) = .go a.1 a.2 ∧ cntOf x.g 2 ≠ 63 ∧
      rdOpd x f.b .z64 ((lowLane eff).getD 0) < 2 ^ 47) ∧
    MemMet .bwait 0xA3 (fun _ => 2) (fun _ => 1) (fun _ => 1)
      (fun (a : Nat × Nat) s x f eff => objChk s x f ((lowLane eff).getD 0) = .go a.1 a.2 ∧ earlierAt s x.g.id eff (.pool a.2) 32 = false ∧
      objInit (objRd s a.2) = true) ∧
    MemMet .await 0xA5 (fun _ => 2) (fun f => if f.size = 3 then 2 else 1) (fun f => if f.size = 3 then 2 else 1)
      (fun (a : Nat × Nat × Nat) s x f eff => (laneAddr x f ((lowLane eff).getD 0)).2 = some a.2.2 ∧
      (match checkPtr s x.g a.2.2 (sizeBytes f) 0 true with
      | .ok (.lat _ _ _) => false
      | _ => true) = true ∧
      objPlace a.2.2 32 (checkPtr s x.g a.2.2 (sizeBytes f) 0 true) = .go a.1 a.2.1 ∧
      earlierAt s x.g.id eff (.pool a.2.1) 32 = false ∧ objInit (objRd s a.2.1) = true) ∧
    (∃ (s : State) (g : Group) (c : Clause) (f : FormM) (q part region off : Nat) (r : Region), Issues s g c ∧ (let nB := if f.size = 3 then 2 else 1; frameFail g [(f.a, 2), (f.b, nB), (f.d, nB)] = none ∧ effFirst s g f.gd ≠ 0 ∧ (let x := memAt s g 0xA5 f 2 nB; (let eff := effFirst s g f.gd; (let t := memFrom s g 0xA5 f; (laneAddr x f ((lowLane eff).getD 0)).2 = some q ∧ checkPtr t x.g q (sizeBytes f) 0 true = .ok (.lat part region off) ∧ regionAt t part region = some r ∧ off % cellBytes r.ty = 0 ∧ earlierAt t x.g.id eff (.lat part region off) (max (sizeBytes f) (if isGcount t (.lat part region off) then 64 else 0)) = false))))) ∧
    MemMet .watch 0xA6 (fun _ => 2) (fun _ => 0) (fun _ => 0)
      (fun (a : Nat × Loc) s x f eff => (laneAddr x f ((lowLane eff).getD 0)).2 = some a.1 ∧
      checkPtr s x.g a.1 (sizeBytes f) (if ptrSpace a.1 == 1 then 1 else 0) true = .ok a.2 ∧
      (ptrSpace a.1 = 1 ∨ ptrSpace a.1 = 8 ∨ ptrSpace a.1 = 2 ∨ ptrSpace a.1 = 3) ∧ cntOf x.g 0 ≠ 63) ∧
    OnceMet effAt .pause (fun _ => pauseSpec)
      (fun (_ : Unit) _ _ _ _ => True) ∧
    OnceMet effAt .tbar (fun _ => noSpec)
      (fun (_ : Unit) _ _ _ _ => True) ∧
    OnceMet effAt .sbar (fun _ => noSpec)
      (fun (_ : Unit) _ _ _ _ => True) ∧
    OnceMet effAt .gbar (fun _ => noSpec)
      (fun (_ : Unit) _ _ _ _ => True) :=
  ⟨memMet ((0x2000000000000040, scrKey 0 64) : Nat × Nat) base gp (fm (.v 0) (.s 4) (.s 24) .grp .rlx 5 0) (by decide +kernel) (by decide +kernel),
    memMet ((0, 0) : Nat × Nat) base gp (fm (.v 8) (.s 4) (.v 0) .team .rel 5 1) (by decide +kernel) (by decide +kernel),
    memMet ((0, 0) : Nat × Nat) base gp (fm (.v 8) (.s 4) (.s 24) .team .rlx 5 1) (by decide +kernel) (by decide +kernel),
    memMet ((0x2000000000000040, scrKey 0 64) : Nat × Nat) (baseScr (2 ^ 178 + 2 ^ 48 + 2 ^ 32)) gp (fm (.v 8) (.s 4) (.s 22) .team .rlx 5 0) (by decide +kernel) (by decide +kernel),
    memMet ((0x2000000000000040, scrKey 0 64, 0x2000000000000040) : Nat × Nat × Nat) (baseScr (2 ^ 178 + 2 ^ 48 + 2 ^ 32)) gp (fm (.v 8) (.s 4) (.s 22) .team .rlx 2 0) (by decide +kernel) (by decide +kernel),
    ⟨bs, gp, cl, fm (.v 8) (.s 10) (.v 12) .stk .rlx 3 0, 0x4000000000000000, 0, 0, 0, region0, withGroup_issues rfl rfl rfl rfl, by decide +kernel⟩,
    memMet ((0x1000000000000100, .uni 0 4352) : Nat × Loc) base gp (fm (.v 0) (.s 2) (.v 0) .grp .rlx 2 0) (by decide +kernel) (by decide +kernel),
    onceMet () base gp (fr (.v 8) (.s 22) (.v 0) (.v 0) .z32 0 0) (by decide +kernel) (trivial),
    onceMet () base gp (fr (.v 0) (.v 0) (.v 0) (.v 0) .b32 0 0) (by decide +kernel) (trivial),
    onceMet () base gp (fr (.v 0) (.v 0) (.v 0) (.v 0) .b32 0 0) (by decide +kernel) (trivial),
    onceMet () base gp (fr (.v 0) (.v 0) (.v 0) (.v 0) .b32 0 0) (by decide +kernel) (trivial)⟩

/-- Obligations.EngineCommandResults: the hypotheses of each clause are met. -/
theorem wit_engine_command_results :
    CopyMet .cpy .cpy ∧
    CopyMet .gath .gath ∧
    CopyMet .scat .scat ∧
    CopyMet .cfill .cfill ∧
    BlockMet .mma .mma mmaBuild ∧
    BlockMet .adrain .adrain drainBuild ∧
    (∃ (s : State) (g : Group) (c : Clause) (f : FormQ) (l : Loc), legal (.azero f) = true ∧ Issues s g c ∧
      frameFail g [(f.a, 2), (f.d, if MKind.azero = .azero then 0 else 64 * moveN f / g.width)] = none ∧ (MKind.azero ≠ .azero → 64 * moveN f % g.width = 0) ∧ effFirst s g f.gd ≠ 0 ∧
      (let x := qAt s g; let p := blkPtr x f (effFirst s g f.gd);
        d4Full x.g = false ∧ queueWait s x.g = false ∧ ptrSpace p = 7 ∧ otherCore s x.g p = false ∧ ptrOff p % 16384 = 0 ∧
        (if MKind.azero = .azero then extChk s x.g p 0 16384 (moveN f) (fun i => ((i * 16384 : Nat) : Int)) 0 ((moveN f * 16384 : Nat) : Int) else contigChk s x.g p (moveN f * 16384) 0) = .ok l)) ∧
    (∃ (s : State) (g : Group) (c : Clause) (f : FormQ) (l : Loc), legal (.amov f) = true ∧ Issues s g c ∧
      frameFail g [(f.a, 2), (f.d, if MKind.amov = .azero then 0 else 64 * moveN f / g.width)] = none ∧ (MKind.amov ≠ .azero → 64 * moveN f % g.width = 0) ∧ effFirst s g f.gd ≠ 0 ∧
      (let x := qAt s g; let p := blkPtr x f (effFirst s g f.gd);
        d4Full x.g = false ∧ queueWait s x.g = false ∧ ptrSpace p = 7 ∧ otherCore s x.g p = false ∧ ptrOff p % 256 = 0 ∧
        (if MKind.amov = .azero then extChk s x.g p 0 256 (moveN f) (fun i => ((i * 256 : Nat) : Int)) 0 ((moveN f * 256 : Nat) : Int) else contigChk s x.g p (moveN f * 256) 0) = .ok l)) ∧
    (∃ (s : State) (g : Group) (c : Clause) (f : FormQ) (l : Loc), legal (.ains f) = true ∧ Issues s g c ∧
      frameFail g [(f.a, 2), (f.b, if MKind.ains = .azero then 0 else 64 * moveN f / g.width)] = none ∧ (MKind.ains ≠ .azero → 64 * moveN f % g.width = 0) ∧ effFirst s g f.gd ≠ 0 ∧
      (let x := qAt s g; let p := blkPtr x f (effFirst s g f.gd);
        d4Full x.g = false ∧ queueWait s x.g = false ∧ ptrSpace p = 7 ∧ otherCore s x.g p = false ∧ ptrOff p % 256 = 0 ∧
        (if MKind.ains = .azero then extChk s x.g p 0 256 (moveN f) (fun i => ((i * 256 : Nat) : Int)) 0 ((moveN f * 256 : Nat) : Int) else contigChk s x.g p (moveN f * 256) 0) = .ok l)) ∧
    QMet .orsv (fun _ => 2) (fun _ => 0) (fun _ => 2)
      (fun (a : Nat × Nat) s x f eff => blockChkN s x.g (blkPtr x f eff) 16 (ownBlock s x.g) = .go a.1 ∧ d4Full x.g = false ∧
      earlierAt s x.g.id eff (.pool a.1) 16 = false ∧ orsvRefusal (f.sub.getLsbD 1) (memRdV s.mem a.1 16) = none ∧
      (coreAt s (coreOf s x.g)).resvs.length < 32 ∧ lowestRun (coreAt s (coreOf s x.g)) (f.sub.getLsbD 1) (bits (memRdV s.mem a.1 16) 31 0) = some a.2) ∧
    QMet .orel (fun _ => 2) (fun _ => 0) (fun _ => 1)
      (fun (r : Resv) s x f eff => (ptrSpace (blkPtr x f eff) = 6 ∨ ptrSpace (blkPtr x f eff) = 7) ∧ otherCore s x.g (blkPtr x f eff) = false ∧ d4Full x.g = false ∧
      resvOf s x.g (blkPtr x f eff) = some r ∧ r.base = ptrOff (blkPtr x f eff) ∧ ptrClean (blkPtr x f eff) = true) ∧
    QMet .oqry (fun _ => 0) (fun _ => 0) (fun _ => 1)
      (fun (_ : Unit) _ x _ _ => d4Full x.g = false) :=
  ⟨qMet ((_, _) : State × Req) (baseScr ((0x2000000000000000 + 1024) + (0x2000000000000000 + 2048) * 2 ^ 64 + 0 * 2 ^ 128 + 4 * 2 ^ 232 + 0 * 2 ^ 256 + 1 * 2 ^ 272 + 2 ^ 288 + 2 ^ 304)) gp (fq (.v 8) (.s 4) .zero .team 0 0) (by decide +kernel) (⟨by decide +kernel, by decide +kernel, by decide +kernel, scrKey 0 64, 4, .pool (scrKey 0 1024), ⟨.pool (scrKey 0 1024), .pool (scrKey 0 2048), .pool 0⟩, none, by decide +kernel, by decide +kernel, by decide +kernel, by decide +kernel, by decide +kernel, by decide +kernel, by decide +kernel, Or.inl (by decide +kernel), rfl, rfl⟩),
    qMet ((_, _) : State × Req) (baseScr ((0x2000000000000000 + 1024) + (0x2000000000000000 + 2048) * 2 ^ 64 + (0x2000000000000000 + 512) * 2 ^ 128 + 4 * 2 ^ 232 + 0 * 2 ^ 256 + 2 * 2 ^ 272 + 2 ^ 288 + 2 ^ 304)) gp (fq (.v 8) (.s 4) .zero .team 0 0) (by decide +kernel) (⟨by decide +kernel, by decide +kernel, by decide +kernel, scrKey 0 64, 4, .pool (scrKey 0 1024), ⟨.pool (scrKey 0 1024), .pool (scrKey 0 2048), .pool (scrKey 0 512)⟩, none, by decide +kernel, by decide +kernel, by decide +kernel, by decide +kernel, by decide +kernel, by decide +kernel, by decide +kernel, Or.inl (by decide +kernel), rfl, rfl⟩),
    qMet ((_, _) : State × Req) (baseScr ((0x2000000000000000 + 1024) + (0x2000000000000000 + 2048) * 2 ^ 64 + (0x2000000000000000 + 512) * 2 ^ 128 + 4 * 2 ^ 232 + 0 * 2 ^ 256 + 2 * 2 ^ 272 + 2 ^ 288 + 2 ^ 304)) gp (fq (.v 8) (.s 4) .zero .team 0 0) (by decide +kernel) (⟨by decide +kernel, by decide +kernel, by decide +kernel, scrKey 0 64, 4, .pool (scrKey 0 1024), ⟨.pool (scrKey 0 1024), .pool (scrKey 0 2048), .pool (scrKey 0 512)⟩, none, by decide +kernel, by decide +kernel, by decide +kernel, by decide +kernel, by decide +kernel, by decide +kernel, by decide +kernel, Or.inl (by decide +kernel), rfl, rfl⟩),
    qMet ((_, _) : State × Req) (baseScr (0 + (0x2000000000000000 + 2048) * 2 ^ 64 + 7 * 2 ^ 128 + 4 * 2 ^ 232 + 0 * 2 ^ 256 + 1 * 2 ^ 272 + 2 ^ 288 + 2 ^ 304)) gp (fq (.v 8) (.s 4) .zero .team 0 0) (by decide +kernel) (⟨by decide +kernel, by decide +kernel, by decide +kernel, scrKey 0 64, 4, .pool 0, ⟨.pool 0, .pool (scrKey 0 2048), .pool 0⟩, none, by decide +kernel, by decide +kernel, by decide +kernel, by decide +kernel, by decide +kernel, by decide +kernel, by decide +kernel, Or.inl (by decide +kernel), rfl, rfl⟩),
    qMet ((_, _) : State × MCmd) (baseScr (0x5000000000000000 * 2 ^ 448 + 0x6000000000000000 * 2 ^ 384 + 0x7000000000000000 * 2 ^ 192 + 2 ^ 176 + 2 * 2 ^ 168 + 2 * 2 ^ 160)) gp (fq (.v 8) (.s 4) .zero .grp 0 0) (by decide +kernel) (⟨by decide +kernel, by decide +kernel, scrKey 0 64, (cmdOf (mmaBuild (consultBlock (withGroup (baseScr (0x5000000000000000 * 2 ^ 448 + 0x6000000000000000 * 2 ^ 384 + 0x7000000000000000 * 2 ^ 192 + 2 ^ 176 + 2 * 2 ^ 168 + 2 * 2 ^ 160)) gp) (qAt (withGroup (baseScr (0x5000000000000000 * 2 ^ 448 + 0x6000000000000000 * 2 ^ 384 + 0x7000000000000000 * 2 ^ 192 + 2 ^ 176 + 2 * 2 ^ 168 + 2 * 2 ^ 160)) gp) gp).g .mma (memRdV (withGroup (baseScr (0x5000000000000000 * 2 ^ 448 + 0x6000000000000000 * 2 ^ 384 + 0x7000000000000000 * 2 ^ 192 + 2 ^ 176 + 2 * 2 ^ 168 + 2 * 2 ^ 160)) gp).mem (scrKey 0 64) 64)) (qAt (withGroup (baseScr (0x5000000000000000 * 2 ^ 448 + 0x6000000000000000 * 2 ^ 384 + 0x7000000000000000 * 2 ^ 192 + 2 ^ 176 + 2 * 2 ^ 168 + 2 * 2 ^ 160)) gp) gp).g { freshCmd (consultBlock (withGroup (baseScr (0x5000000000000000 * 2 ^ 448 + 0x6000000000000000 * 2 ^ 384 + 0x7000000000000000 * 2 ^ 192 + 2 ^ 176 + 2 * 2 ^ 168 + 2 * 2 ^ 160)) gp) (qAt (withGroup (baseScr (0x5000000000000000 * 2 ^ 448 + 0x6000000000000000 * 2 ^ 384 + 0x7000000000000000 * 2 ^ 192 + 2 ^ 176 + 2 * 2 ^ 168 + 2 * 2 ^ 160)) gp) gp).g .mma (memRdV (withGroup (baseScr (0x5000000000000000 * 2 ^ 448 + 0x6000000000000000 * 2 ^ 384 + 0x7000000000000000 * 2 ^ 192 + 2 ^ 176 + 2 * 2 ^ 168 + 2 * 2 ^ 160)) gp).mem (scrKey 0 64) 64)) (qAt (withGroup (baseScr (0x5000000000000000 * 2 ^ 448 + 0x6000000000000000 * 2 ^ 384 + 0x7000000000000000 * 2 ^ 192 + 2 ^ 176 + 2 * 2 ^ 168 + 2 * 2 ^ 160)) gp) gp) (effFirst (withGroup (baseScr (0x5000000000000000 * 2 ^ 448 + 0x6000000000000000 * 2 ^ 384 + 0x7000000000000000 * 2 ^ 192 + 2 ^ 176 + 2 * 2 ^ 168 + 2 * 2 ^ 160)) gp) gp g0) .mma with blk := scrKey 0 64 } (memRdV (withGroup (baseScr (0x5000000000000000 * 2 ^ 448 + 0x6000000000000000 * 2 ^ 384 + 0x7000000000000000 * 2 ^ 192 + 2 ^ 176 + 2 * 2 ^ 168 + 2 * 2 ^ 160)) gp).mem (scrKey 0 64) 64)) (freshCmd bs ⟨gp, []⟩ 0 .mma)), none, by decide +kernel, by decide +kernel, rfl, by decide +kernel, by decide +kernel, Or.inl (by decide +kernel), rfl⟩),
    qMet ((_, _) : State × MCmd) (baseScr (0x1000000000000000 * 2 ^ 448 + 0x7000000000000000 * 2 ^ 192 + 256 * 2 ^ 160)) gp (fq (.v 8) (.s 4) .zero .grp 0 0) (by decide +kernel) (⟨by decide +kernel, by decide +kernel, scrKey 0 64, (cmdOf (drainBuild (consultBlock (withGroup (baseScr (0x1000000000000000 * 2 ^ 448 + 0x7000000000000000 * 2 ^ 192 + 256 * 2 ^ 160)) gp) (qAt (withGroup (baseScr (0x1000000000000000 * 2 ^ 448 + 0x7000000000000000 * 2 ^ 192 + 256 * 2 ^ 160)) gp) gp).g .adrain (memRdV (withGroup (baseScr (0x1000000000000000 * 2 ^ 448 + 0x7000000000000000 * 2 ^ 192 + 256 * 2 ^ 160)) gp).mem (scrKey 0 64) 64)) (qAt (withGroup (baseScr (0x1000000000000000 * 2 ^ 448 + 0x7000000000000000 * 2 ^ 192 + 256 * 2 ^ 160)) gp) gp).g { freshCmd (consultBlock (withGroup (baseScr (0x1000000000000000 * 2 ^ 448 + 0x7000000000000000 * 2 ^ 192 + 256 * 2 ^ 160)) gp) (qAt (withGroup (baseScr (0x1000000000000000 * 2 ^ 448 + 0x7000000000000000 * 2 ^ 192 + 256 * 2 ^ 160)) gp) gp).g .adrain (memRdV (withGroup (baseScr (0x1000000000000000 * 2 ^ 448 + 0x7000000000000000 * 2 ^ 192 + 256 * 2 ^ 160)) gp).mem (scrKey 0 64) 64)) (qAt (withGroup (baseScr (0x1000000000000000 * 2 ^ 448 + 0x7000000000000000 * 2 ^ 192 + 256 * 2 ^ 160)) gp) gp) (effFirst (withGroup (baseScr (0x1000000000000000 * 2 ^ 448 + 0x7000000000000000 * 2 ^ 192 + 256 * 2 ^ 160)) gp) gp g0) .adrain with blk := scrKey 0 64 } (memRdV (withGroup (baseScr (0x1000000000000000 * 2 ^ 448 + 0x7000000000000000 * 2 ^ 192 + 256 * 2 ^ 160)) gp).mem (scrKey 0 64) 64)) (freshCmd bs ⟨gp, []⟩ 0 .mma)), none, by decide +kernel, by decide +kernel, rfl, by decide +kernel, by decide +kernel, Or.inl (by decide +kernel), rfl⟩),
    ⟨bs, gp, cl, (fq (.v 0) (.s 14) (.v 0) .grp 0 0), .pool (accKey 0 0), by decide +kernel, st_base, by decide +kernel⟩,
    ⟨bs, gp, cl, (fq (.v 8) (.s 14) (.v 0) .grp 0 0), .pool (accKey 0 0), by decide +kernel, st_base, by decide +kernel⟩,
    ⟨bs, gp, cl, (fq (.v 0) (.s 14) (.v 8) .grp 0 0), .pool (accKey 0 0), by decide +kernel, st_base, by decide +kernel⟩,
    qMet ((scrKey 0 64, 16384) : Nat × Nat) (baseScr 16384) gp (fq (.v 8) (.s 4) (.v 0) .grp 2 0) (by decide +kernel) (by decide +kernel),
    qMet ⟨100, 0, 0, false, 0, 8192, 2, 0, none⟩ base gp (fq (.v 8) (.s 12) (.v 0) .grp 0 0) (by decide +kernel) (by decide +kernel),
    qMet () base gp (fq (.v 8) (.v 0) (.v 0) .grp 0 0) (by decide +kernel) (by decide +kernel)⟩

/-- Obligations.LatticeFabricInstructionResults: the hypotheses of each clause are met. -/
theorem wit_lattice_fabric_instruction_results :
    LatMet .jst 0xC8 .jst ∧
    LatMet .jld 0xC9 .jld ∧
    LatMet .jldn 0xCA .jldn ∧
    LatMet .jadd 0xCB .jadd ∧
    LatCmdMet .jtrade 0xCC (fun _ => 1) ∧
    LatCmdMet .jqry 0xCD (fun f => if f.sub.toNat % 8 = 4 then 2 else 1) ∧
    QMet .coll (fun _ => 2) barRegs (fun _ => 1)
      (fun (a : State × Coll) s x f eff => cntOf x.g 6 ≠ 63 ∧ collWait s x.g = false ∧ ∃ (k : Nat) (lS lR : Loc) (b : Option Nat),
      blockChk s x.g (blkPtr x f eff) (ownBlock s x.g) = .go k ∧ earlierAt s x.g.id eff (.pool k) 64 = false ∧
      (let w := memRdV s.mem k 64
      let d := collBlkOf w
      a.1 = consultAll s x.g [d.send, d.recv] ∧
      (let n := (membersOf (partAt a.1 (partOf a.1 x.g)) d.mgrp).length
      collRefusal (partAt a.1 (partOf a.1 x.g)) d w (barPtr x f eff) = none ∧
      collExt d.kind (contigChk a.1 x.g d.send (sendLen d.kind n d.count d.ty) 1) = .ok lS ∧
      collExt d.kind (contigChk a.1 x.g d.recv (recvLen d.kind n d.count d.ty) 2) = .ok lR ∧
      BarOk a.1 x.g (barPtr x f eff) b ∧ a.2 = newColl a.1 x.g ((lowLane eff).getD 0) f.scope d (.ok lS) (.ok lR) b))) ∧
    MemMet .xfence 0xD1 (fun f => if f.a = .zero then 0 else 2) (fun _ => 0) (fun _ => 1)
      (fun (_ : Unit) s x f eff =>
      let y := ocWriteBackAll x
      (f.a ≠ .zero → ptrSpace (rdOpd x f.a .b64 ((lowLane eff).getD 0)) = 9) ∧ cntOf y.g 6 ≠ 63 ∧
      (relOrder f.order = true → fenceDrained s y.g f.scope = true)) ∧
    QMet .xqry (fun f => if f.a = .zero then 0 else 2) (fun _ => 0) (fun _ => 1)
      (fun (_ : Unit) _ x _ _ => cntOf x.g 6 ≠ 63) :=
  ⟨memMet (latOf (latChk (memFrom (withGroup base gp) gp 0xC8 (fm (.v 8) (.s 10) (.v 12) .grp .rlx 3 0)) (ocWriteBackAll (memAt (withGroup base gp) gp 0xC8 (fm (.v 8) (.s 10) (.v 12) .grp .rlx 3 0) 2 2)).g ((lanesOf (fullMask 32)).map (fun l => (l, (laneAddr (ocWriteBackAll (memAt (withGroup base gp) gp 0xC8 (fm (.v 8) (.s 10) (.v 12) .grp .rlx 3 0) 2 2)) (fm (.v 8) (.s 10) (.v 12) .grp .rlx 3 0) l).1, (laneAddr (ocWriteBackAll (memAt (withGroup base gp) gp 0xC8 (fm (.v 8) (.s 10) (.v 12) .grp .rlx 3 0) 2 2)) (fm (.v 8) (.s 10) (.v 12) .grp .rlx 3 0) l).2))) (some 3) 0xC8)) base gp (fm (.v 8) (.s 10) (.v 12) .grp .rlx 3 0) (by decide +kernel) (by decide +kernel),
    memMet (latOf (latChk (memFrom (withGroup base gp) gp 0xC9 (fm (.v 8) (.s 10) (.v 12) .grp .rlx 3 0)) (ocWriteBackAll (memAt (withGroup base gp) gp 0xC9 (fm (.v 8) (.s 10) (.v 12) .grp .rlx 3 0) 2 2)).g ((lanesOf (fullMask 32)).map (fun l => (l, (laneAddr (ocWriteBackAll (memAt (withGroup base gp) gp 0xC9 (fm (.v 8) (.s 10) (.v 12) .grp .rlx 3 0) 2 2)) (fm (.v 8) (.s 10) (.v 12) .grp .rlx 3 0) l).1, (laneAddr (ocWriteBackAll (memAt (withGroup base gp) gp 0xC9 (fm (.v 8) (.s 10) (.v 12) .grp .rlx 3 0) 2 2)) (fm (.v 8) (.s 10) (.v 12) .grp .rlx 3 0) l).2))) (some 3) 0xC9)) base gp (fm (.v 8) (.s 10) (.v 12) .grp .rlx 3 0) (by decide +kernel) (by decide +kernel),
    memMet (latOf (latChk (memFrom (withGroup base gp) gp 0xCA (fm (.v 8) (.s 10) (.v 0) .grp .rlx 3 0)) (ocWriteBackAll (memAt (withGroup base gp) gp 0xCA (fm (.v 8) (.s 10) (.v 0) .grp .rlx 3 0) 2 2)).g ((lanesOf (fullMask 32)).map (fun l => (l, (laneAddr (ocWriteBackAll (memAt (withGroup base gp) gp 0xCA (fm (.v 8) (.s 10) (.v 0) .grp .rlx 3 0) 2 2)) (fm (.v 8) (.s 10) (.v 0) .grp .rlx 3 0) l).1, (laneAddr (ocWriteBackAll (memAt (withGroup base gp) gp 0xCA (fm (.v 8) (.s 10) (.v 0) .grp .rlx 3 0) 2 2)) (fm (.v 8) (.s 10) (.v 0) .grp .rlx 3 0) l).2))) (some 3) 0xCA)) base gp (fm (.v 8) (.s 10) (.v 0) .grp .rlx 3 0) (by decide +kernel) (by decide +kernel),
    memMet (latOf (latChk (memFrom (withGroup base6 gp) gp 0xCB (fm (.v 8) (.s 10) (.v 12) .grp .rlx 3 0)) (ocWriteBackAll (memAt (withGroup base6 gp) gp 0xCB (fm (.v 8) (.s 10) (.v 12) .grp .rlx 3 0) 2 2)).g ((lanesOf (fullMask 32)).map (fun l => (l, (laneAddr (ocWriteBackAll (memAt (withGroup base6 gp) gp 0xCB (fm (.v 8) (.s 10) (.v 12) .grp .rlx 3 0) 2 2)) (fm (.v 8) (.s 10) (.v 12) .grp .rlx 3 0) l).1, (laneAddr (ocWriteBackAll (memAt (withGroup base6 gp) gp 0xCB (fm (.v 8) (.s 10) (.v 12) .grp .rlx 3 0) 2 2)) (fm (.v 8) (.s 10) (.v 12) .grp .rlx 3 0) l).2))) (some 3) 0xCB)) base6 gp (fm (.v 8) (.s 10) (.v 12) .grp .rlx 3 0) (by decide +kernel) (by decide +kernel),
    qMet (latOf (latChk bs (qAt bs gp).g [(0, 0x4000000000000000, some 0x4000000000000000)] none 0xCC)) base gp (fq (.v 8) (.s 10) (.v 0) .grp 0 0) (by decide +kernel) (by decide +kernel),
    qMet (latOf (latChk bs (qAt bs gp).g [(0, 0x4000000000000000, some 0x4000000000000000)] none 0xCD)) base gp (fq (.v 8) (.s 10) (.v 0) .grp 1 0) (by decide +kernel) (by decide +kernel),
    qMet (((consultAll (withGroup (baseScr (0x2000000000000400 + 0x2000000000000800 * 2 ^ 64 + 4 * 2 ^ 128 + 2 ^ 160 + 2 ^ 172)) gp) (qAt (withGroup (baseScr (0x2000000000000400 + 0x2000000000000800 * 2 ^ 64 + 4 * 2 ^ 128 + 2 ^ 160 + 2 ^ 172)) gp) gp).g [0x2000000000000400, 0x2000000000000800]), newColl (consultAll (withGroup (baseScr (0x2000000000000400 + 0x2000000000000800 * 2 ^ 64 + 4 * 2 ^ 128 + 2 ^ 160 + 2 ^ 172)) gp) (qAt (withGroup (baseScr (0x2000000000000400 + 0x2000000000000800 * 2 ^ 64 + 4 * 2 ^ 128 + 2 ^ 160 + 2 ^ 172)) gp) gp).g [0x2000000000000400, 0x2000000000000800]) (qAt (withGroup (baseScr (0x2000000000000400 + 0x2000000000000800 * 2 ^ 64 + 4 * 2 ^ 128 + 2 ^ 160 + 2 ^ 172)) gp) gp).g 0 .fab (collBlkOf (memRdV (withGroup (baseScr (0x2000000000000400 + 0x2000000000000800 * 2 ^ 64 + 4 * 2 ^ 128 + 2 ^ 160 + 2 ^ 172)) gp).mem (scrKey 0 64) 64)) (.ok (.pool (scrKey 0 1024))) (.ok (.pool (scrKey 0 2048))) none) : State × Coll) (baseScr (0x2000000000000400 + 0x2000000000000800 * 2 ^ 64 + 4 * 2 ^ 128 + 2 ^ 160 + 2 ^ 172)) gp (fq (.v 8) (.s 4) .zero .fab 0 0) (by decide +kernel) (⟨by decide +kernel, by decide +kernel, scrKey 0 64, .pool (scrKey 0 1024), .pool (scrKey 0 2048), none, by decide +kernel, by decide +kernel, by decide +kernel, by decide +kernel, by decide +kernel, by decide +kernel, Or.inl (by decide +kernel), by decide +kernel⟩),
    memMet () base gp (fm (.v 8) .zero (.v 0) .fab .rel 0 0) (by decide +kernel) (by decide +kernel),
    qMet () base gp (fq (.v 8) .zero (.v 0) .grp 2 0) (by decide +kernel) (by decide +kernel)⟩

/-- Obligations.SequencerEventResults: the hypotheses of each clause are met. -/
theorem wit_sequencer_event_results :
    (∃ (s : State) (gid : Nat) (refetch : BitVec 4) (g : Group) (f : Fibre) (gr gr1 : Grid) (h : Header) (w : Nat), getG s gid = some g ∧ g.cur = some f ∧ gridOf s g = some gr ∧ mayStart s g = true ∧ throttleWaits s g = false ∧ (let e := (codeEnt s (coreOf s g) gr).getD (objTable s gr.part (codeObj gr)); (let s1 := objCachePut s (coreOf s g) e; codeOk e f.pc = true ∧ codeHere s1 (coreOf s g) gr e f.pc 8 = true ∧ headerFetch s1 gr e f.pc refetch = (gr1, w) ∧ headerCheck e g f.pc w = none ∧ headerOf w = some h ∧ codeHere s1 (coreOf s g) gr e f.pc (8 * (h.cnt + 1)) = true ∧ ((∀ d ∈ List.range 8, h.wait.getLsbD d = true → cntOf g d = 0))))) ∧
    (∃ (s : State) (gid : Nat) (g : Group) (b y : Bool), getG s gid = some g ∧ g.phase = .boundary b y ∧ g.park = .none ∧ g.trapDue = none ∧ g.ended = false ∧ g.halted = false) ∧
    (∃ (s : State) (core slice : Nat) (g : Group), (let all := (issuable s core slice).map (fun g => markUrgent (sliceNow s g) g); s.turn = [] ∧ pickGroup all = some g)) ∧
    (∃ (s : State) (gid : Nat) (g : Group) (p : Pend) (rest : List Pend), getG s gid = some g ∧ g.pend = p :: rest ∧ ((p.at' ≤ g.pos ∨ (∀ c, g.phase = .inClause c → g.park = .sw)))) ∧
    (∃ (s : State) (gid : Nat) (g : Group), getG s gid = some g ∧ g.park = .sw ∧ cntZero g = true ∧ ((pendDue g = none ∨ inClauseNow g = false)) ∧ ((g.halted = true ∨ inClauseNow g = false ∨ veerStops s (coreOf s g) = false))) ∧
    (∃ (s : State) (gid : Nat) (g : Group), getG s gid = some g ∧ wantsSet s g = true ∧ canAcquire s g = true) ∧
    (∃ (s : State) (gid : Nat) (g h : Group), getG s gid = some g ∧ wantsSet s g = true ∧ canAcquire s g = false ∧ s.groups.find? (fun h => h.id != g.id && h.slot.map (fun a => (a.core, a.slice)) == g.slot.map (fun a => (a.core, a.slice)) && givesSet s h) = some h) ∧
    (∃ (s : State) (gid : Nat) (o : Op) (y : LaneOp), s.ops.find? (fun o => o.g == gid && o.kind == .ocfill) = some o ∧ o.lanes.find? (fun y => !laneOver y) = some y) ∧
    (∃ (s : State) (op : Nat) (o : Op), getOp s op = some o ∧ o.kind = .ocdrop) ∧
    (∃ (s : State) (op : Nat) (o : Op), getOp s op = some o ∧ o.kind = .ocsync) ∧
    (∃ (s : State) (core : Nat), (let due := fun (g : Group) => match g.park with | .agentIdle t => g.agent && coreOf s g == core && ((coreAt s core).agent.event || decide (t ≤ s.tick)) | _ => false; s.groups.any due = true)) ∧
    (∃ (s : State) (gid : Nat) (g : Group), getG s gid = some g ∧ g.left = false ∧ g.ended = true ∧ cntZero g = true) :=
  ⟨⟨wg { gp with phase := .header }, 0, 0, { gp with phase := .header }, fib 0, grid0, grid0, ⟨0, 1, 0, false, 0⟩, 63 * 2 ^ 58, by decide +kernel⟩,
    ⟨wg { gp with phase := .boundary false false }, 0, { gp with phase := .boundary false false }, false, false, by decide +kernel⟩,
    ⟨{ bs with turn := [] }, 0, 0, gp, by decide +kernel⟩,
    ⟨wg { gp with pend := [⟨0, .sreg 3 7⟩] }, 0, { gp with pend := [⟨0, .sreg 3 7⟩] }, ⟨0, .sreg 3 7⟩, [], by decide +kernel, rfl, Or.inl (by decide)⟩,
    ⟨wg { gp with park := .sw }, 0, { gp with park := .sw }, by decide +kernel⟩,
    ⟨modSlice (wg { gp with oc := none }) 0 0 (fun sl => { sl with waiters := [0] }), 0, { gp with oc := none }, by decide +kernel⟩,
    ⟨modSlice { wg { gp with oc := none } with groups := { gp with oc := none } :: [1, 2, 3, 4].map (fun i => { gp with id := i, width := 128, phase := .asleep }) } 0 0 (fun sl => { sl with waiters := [0] }), 0, { gp with oc := none }, { gp with id := 1, width := 128, phase := .asleep }, by decide +kernel⟩,
    ⟨wo (op1 .ocfill 7 (ln (.pool 0) .sent [])), 0, op1 .ocfill 7 (ln (.pool 0) .sent []), ln (.pool 0) .sent [], by decide +kernel⟩,
    ⟨wo (op1 .ocdrop 7 (ln (.pool 0) .sent [])), 50, op1 .ocdrop 7 (ln (.pool 0) .sent []), by decide +kernel⟩,
    ⟨wo (op1 .ocsync 7 (ln (.pool 0) .sent [])), 50, op1 .ocsync 7 (ln (.pool 0) .sent []), by decide +kernel⟩,
    ⟨wg { gpA with park := .agentIdle 0 }, 0, by decide +kernel⟩,
    ⟨wg { gp with ended := true }, 0, { gp with ended := true }, by decide +kernel⟩⟩

/-- Obligations.PoolEventResults: the hypotheses of each clause are met. -/
theorem wit_pool_event_results :
    (∃ (s : State) (op : Nat) (o : Op), getOp s op = some o ∧ retKind o.kind = true) ∧
    (∃ (s : State) (op : Nat) (o : Op), getOp s op = some o ∧ o.kind = .watch) ∧
    (∃ (s : State) (op : Nat) (o : Op), getOp s op = some o ∧ o.kind = .st) ∧
    (∃ (s : State) (op : Nat) (o : Op), getOp s op = some o ∧ isRmw o.kind = true) ∧
    (∃ (s : State) (op num : Nat) (o : Op), getOp s op = some o ∧ o.kind = .tclaim num) ∧
    (∃ (s : State) (op run node : Nat) (o : Op), getOp s op = some o ∧ o.kind = .gdec run node) ∧
    (∃ (s : State) (op : Nat) (o : Op), getOp s op = some o ∧ opPresent s o = true) ∧
    (∃ (s : State) (gid : Nat) (g : Group) (n : Order) (sc : Scope), getG s gid = some g ∧ g.park = .fence n sc ∧ fenceDrained s g sc = true) ∧
    (∃ (s : State) (core : Nat) (obj : ObjKey) (g : Group), s.groups.find? (fun g => g.park == .objMiss obj && coreOf s g == core) = some g ∧ fillHeld s core (partOf s g) obj = false) ∧
    (∃ (s : State) (core : Nat) (r : AllocReq) (rest : List AllocReq), (coreAt s core).alloc = r :: rest) ∧
    (∃ (s : State) (gid t : Nat) (g : Group) (c : Ctx) (r : AllocReq), getG s gid = some g ∧ g.park = .growWait t ∧ ctxOf s g = some c ∧ ((coreAt s c.core).alloc ++ (coreAt s c.core).stalled).find? (fun r => r.g == gid) = some r ∧ t + 65536 ≤ s.tick) ∧
    (∃ (s : State) (gid : Nat) (g : Group) (c : Ctx) (r : AllocReq), getG s gid = some g ∧ ctxOf s g = some c ∧ g.park = .shrinkWait ∧ r.g = gid ∧ r.grow = false ∧ (coreAt s (coreOf s g)).stalled.find? (fun r => r.g == gid && !r.grow) = some r ∧ (let t := allocDrop s gid (coreOf s g); (let p := allocPlan t r g c; p.2.2.2 = true ∧ copiesIn t (shrinkRange r g c p.2.1.toNat).1 (shrinkRange r g c p.2.1.toNat).2 = false))) :=
  ⟨⟨wo (op1 (.ld false false false) 0 (ln (.pool (scrKey 0 64)) .sent [])), 50, op1 (.ld false false false) 0 (ln (.pool (scrKey 0 64)) .sent []), by decide +kernel⟩,
    ⟨wo (op1 .watch 0 (ln (.pool (scrKey 0 64)) .sent [])), 50, op1 .watch 0 (ln (.pool (scrKey 0 64)) .sent []), by decide +kernel⟩,
    ⟨wo (op1 .st 1 (ln (.pool (scrKey 0 64)) .sent [])), 50, op1 .st 1 (ln (.pool (scrKey 0 64)) .sent []), by decide +kernel⟩,
    ⟨wo (op1 .acas 2 (ln (.pool (scrKey 0 64)) .sent [])), 50, op1 .acas 2 (ln (.pool (scrKey 0 64)) .sent []), by decide +kernel⟩,
    ⟨wo (op1 (.tclaim 0) 2 (ln (.pool (scrKey 0 64)) .sent [])), 50, 0, op1 (.tclaim 0) 2 (ln (.pool (scrKey 0 64)) .sent []), by decide +kernel⟩,
    ⟨wo (op1 (.gdec 0 1) 2 (ln (.pool (scrKey 0 64)) .sent [])), 50, 0, 1, op1 (.gdec 0 1) 2 (ln (.pool (scrKey 0 64)) .sent []), by decide +kernel⟩,
    ⟨wo (op1 (.ld false false false) 0 (ln (.pool (scrKey 0 64)) .sent [])), 50, op1 (.ld false false false) 0 (ln (.pool (scrKey 0 64)) .sent []), by decide +kernel⟩,
    ⟨wg { gp with park := .fence .ar .dev }, 0, { gp with park := .fence .ar .dev }, .ar, .dev, by decide +kernel⟩,
    ⟨wg { gp with park := .objMiss (.g 3) }, 0, .g 3, { gp with park := .objMiss (.g 3) }, by decide +kernel⟩,
    ⟨modCore bs 0 (fun k => { k with alloc := [{ g := 0, op := 0x68, f := (fr (.v 8) (.s 22) (.v 0) (.v 0) .z32 0 0), amount := 2048, eff := fullMask 32, since := 0 }] }), 0, { g := 0, op := 0x68, f := (fr (.v 8) (.s 22) (.v 0) (.v 0) .z32 0 0), amount := 2048, eff := fullMask 32, since := 0 }, [], by decide +kernel⟩,
    ⟨{ modCore (wg { gp with park := .growWait 0 }) 0 (fun k => { k with stalled := [{ g := 0, op := 0x68, f := (fr (.v 8) (.s 22) (.v 0) (.v 0) .z32 0 0), amount := 2048, eff := fullMask 32, since := 0 }] }) with tick := 65536 }, 0, 0, { gp with park := .growWait 0 }, ctx0, { g := 0, op := 0x68, f := (fr (.v 8) (.s 22) (.v 0) (.v 0) .z32 0 0), amount := 2048, eff := fullMask 32, since := 0 }, by decide +kernel⟩,
    ⟨modCore (wg { gp with park := .shrinkWait }) 0 (fun k => { k with stalled := [{ g := 0, op := 0x69, f := (fr (.v 8) (.s 22) (.v 0) (.v 0) .z32 0 0), amount := 2048, eff := fullMask 32, since := 0 }] }), 0, { gp with park := .shrinkWait }, ctx0, { g := 0, op := 0x69, f := (fr (.v 8) (.s 22) (.v 0) (.v 0) .z32 0 0), amount := 2048, eff := fullMask 32, since := 0 }, by decide +kernel⟩⟩

/-- Obligations.TrapAndContextEventResults: the hypotheses of each clause are met. -/
theorem wit_trap_and_context_event_results :
    (∃ (s : State) (gid : Nat) (g : Group) (r : TrapRec), getG s gid = some g ∧ g.trapDue = some r ∧ g.suspect = false) ∧
    (∃ (s : State) (gid : Nat) (g : Group) (p : PendTrap) (f : Fibre), getG s gid = some g ∧ pendDue g = some p ∧ g.cur = some f ∧ g.halted = false ∧ g.ended = false ∧ g.trapDue = none ∧ g.slot.isSome = true ∧ g.phase = .header ∧ g.park = .none) ∧
    (∃ (s : State) (gid : Nat) (g : Group) (p : PendTrap) (f : Fibre) (c : Clause), getG s gid = some g ∧ pendDue g = some p ∧ g.cur = some f ∧ g.halted = false ∧ g.ended = false ∧ g.trapDue = none ∧ g.slot.isSome = true ∧ g.phase = .inClause c ∧ g.park = .sw ∧ cntZero g = true) ∧
    (∃ (s : State) (gid : Nat) (g : Group), getG s gid = some g ∧ g.suspect = true) ∧
    (∀ p ∈ [(false, false), (true, true), (true, false)], ∃ (s : State) (t : Team) (g : Group), getT s 0 = some t ∧
      (let gs := s.groups.filter (fun g => g.team == 0 && !g.ended); (gs.find? (fun g => g.held.isSome)).or (lowestGroup (gs.filter Group.armed)) = some g) ∧
      ((partAt s (partOf s g)).thr.active != t.lastSeen, g.hMode) = p ∧ atBoundary s g = true) ∧
    (∃ (s : State) (gid : Nat) (g : Group) (c : Ctx), getG s gid = some g ∧ ctxOf s g = some c ∧ c.state = .halting ∧ mayHalt g = true ∧ g.halted = false) ∧
    (∃ (s : State) (grid : Nat) (gr : Grid), getGrid s grid = some gr ∧ gr.killDue = true ∧ gr.killed = false) ∧
    (∃ (s : State) (ctx : Nat) (c : Ctx), getC s ctx = some c ∧ c.state = .killing ∧ (s.ops.any (fun o => (s.groups.filter (fun g => g.ctx == ctx)).any (fun g => g.id == o.g)) || s.reqs.any (fun r => r.ctx == ctx) || s.mcmds.any (fun m => m.ctx == ctx)) = false) ∧
    (∃ (s : State) (team : Nat) (t : Team), getT s team = some t ∧ t.ended = true ∧ (s.groups.filter (fun g => g.team == team)).all (fun g => g.ended) = true ∧ (s.groups.filter (fun g => g.team == team)).all (fun g => g.left && g.frame == 0) = true ∧ teamBusy s t = false ∧ s.cores.any (fun c => c.resvs.any (fun r => r.team == team)) = false) ∧
    (∃ (s : State) (team : Nat) (t : Team), getT s team = some t ∧ t.ended = false ∧ (s.groups.filter (fun g => g.team == team)).all (fun g => g.ended) = true ∧ (s.groups.filter (fun g => g.team == team)).all (fun g => g.left && g.frame == 0) = false) :=
  ⟨⟨wg { gp with trapDue := some TrapRec.zero }, 0, { gp with trapDue := some TrapRec.zero }, TrapRec.zero, by decide +kernel⟩,
    ⟨wg { gp with phase := .header, pendTraps := [⟨false, 0x0F, 0, 1, 4096, 0⟩] }, 0, { gp with phase := .header, pendTraps := [⟨false, 0x0F, 0, 1, 4096, 0⟩] }, ⟨false, 0x0F, 0, 1, 4096, 0⟩, fib 0, by decide +kernel⟩,
    ⟨wg { gp with park := .sw, pendTraps := [⟨false, 0x0F, 0, 1, 4096, 0⟩] }, 0, { gp with park := .sw, pendTraps := [⟨false, 0x0F, 0, 1, 4096, 0⟩] }, ⟨false, 0x0F, 0, 1, 4096, 0⟩, fib 0, cl, by decide +kernel⟩,
    ⟨wg { gp with suspect := true }, 0, { gp with suspect := true }, by decide +kernel⟩,
    (by
      intro p hp
      simp only [List.mem_cons, List.not_mem_nil, or_false] at hp
      rcases hp with rfl | rfl | rfl
      · exact ⟨wg { gp with phase := .header, held := some 0 }, freshTeam 0 0 0 0 0 false, { gp with phase := .header, held := some 0 }, by decide +kernel⟩
      · exact ⟨modP (wg { gp with phase := .header, armed := true, hMode := true }) 0 (fun p => { p with thr := ⟨1, 4, 0, true, 1⟩ }), freshTeam 0 0 0 0 0 false,
          { gp with phase := .header, armed := true, hMode := true }, by decide +kernel⟩
      · exact ⟨modP (wg { gp with phase := .header, armed := true }) 0 (fun p => { p with thr := ⟨1, 4, 0, true, 1⟩ }), freshTeam 0 0 0 0 0 false,
          { gp with phase := .header, armed := true }, by decide +kernel⟩),
    ⟨{ wg { gp with park := .sw } with ctxs := [{ ctx0 with state := .halting }] }, 0, { gp with park := .sw }, { ctx0 with state := .halting }, by decide +kernel⟩,
    ⟨{ bs with grids := [{ grid0 with killDue := true }] }, 0, { grid0 with killDue := true }, by decide +kernel⟩,
    ⟨{ wg { gp with ended := true } with ctxs := [{ ctx0 with state := .killing }] }, 0, { ctx0 with state := .killing }, by decide +kernel⟩,
    ⟨{ modCore (wg { gp with ended := true, left := true, frame := 0 }) 0 (fun k => { k with resvs := [] }) with teams := [{ freshTeam 0 0 0 0 0 false with ended := true }] }, 0, { freshTeam 0 0 0 0 0 false with ended := true }, by decide +kernel⟩,
    ⟨wg { gp with ended := true }, 0, freshTeam 0 0 0 0 0 false, by decide +kernel⟩⟩

/-- Obligations.BarrierEventResults: the hypotheses of each clause are met. -/
theorem wit_barrier_event_results :
    (∃ (s : State) (upd : Nat) (u : Upd), s.upds.find? (fun u => u.id == upd) = some u ∧ updDue s u = true ∧ u.reply.bind (fun r => (getOp s r.1).map (fun o => (o, r.2))) = none) ∧
    (∃ (s : State) (upd lane : Nat) (u : Upd) (o : Op) (g : Group), s.upds.find? (fun u => u.id == upd) = some u ∧ updDue s u = true ∧ (let s0 := { s with upds := s.upds.filter (fun v => v.id != upd), colls := s.colls.filter (fun c => !(c.sent && u.src.group == engineGroup c.id)) }; u.reply.bind (fun r => (getOp s r.1).map (fun o => (o, r.2))) = some (o, lane) ∧ getG s0 o.g = some g)) ∧
    (∃ (s : State) (gid : Nat) (g : Group), getG s gid = some g ∧ g.waitEntry = true ∧ g.halted = false) ∧
    (∃ (s : State) (gid : Nat) (g : Group), getG s gid = some g ∧ g.waitEntry = true ∧ g.halted = false) ∧
    (∃ (s : State) (gid : Nat) (g : Group) (k : ContRec) (rest : List ContRec), getG s gid = some g ∧ g.firing = k :: rest) ∧
    (∀ p ∈ ([.bwait (scrKey 0 64) 0x2000000000000040 0 (.vec 8 false) 1 .team, .awaitPhase (scrKey 0 64) 0x2000000000000040 0 (.vec 8 false) 1 .team false,
      .pause 99 (.vec 8 false) 1, .absent 50, .tbar 0] : List Park), ∃ (s : State) (g : Group), getG s 0 = some g ∧ g.waitEntry = false ∧ g.halted = false ∧ g.park = p ∧
      (p = .absent 50 → ∃ o, getOp s 50 = some o ∧ opPresent s o = true)) ∧
    (∃ (s : State) (gid t : Nat) (g : Group) (d : Dst) (eff : Mask), getG s gid = some g ∧ g.park = .pause t d eff ∧ t ≤ s.tick ∧ g.halted = false ∧ g.watch.bind Watch.trig = none) ∧
    (∃ (s : State) (grid : Nat) (gr : Grid) (gu : Gust), getGrid s grid = some gr ∧ gr.gust = some gu ∧ gu.start + gu.wave * gu.gap ≤ s.tick) :=
  ⟨⟨{ bo with upds := [upd1 none] }, 90, upd1 none, by decide +kernel⟩,
    ⟨{ bo with upds := [upd1 (some (50, 0))], ops := [op1 (.bar false) 2 (ln (.pool (scrKey 0 64)) .sent [])] }, 90, 0, upd1 (some (50, 0)), op1 (.bar false) 2 (ln (.pool (scrKey 0 64)) .sent []), gp, by decide +kernel⟩,
    ⟨wg { gp with park := .bwait (scrKey 0 64) 0x2000000000000040 0 (.vec 8 false) 1 .team, waitEntry := true }, 0, { gp with park := .bwait (scrKey 0 64) 0x2000000000000040 0 (.vec 8 false) 1 .team, waitEntry := true }, by decide +kernel⟩,
    ⟨wg { gp with park := .pause 99 (.vec 8 false) 1, waitEntry := true }, 0, { gp with park := .pause 99 (.vec 8 false) 1, waitEntry := true }, by decide +kernel⟩,
    ⟨wg { gp with firing := [⟨31, 1, 16, 0, 0, scrKey 0 64, false⟩] }, 0, { gp with firing := [⟨31, 1, 16, 0, 0, scrKey 0 64, false⟩] }, ⟨31, 1, 16, 0, 0, scrKey 0 64, false⟩, [], by decide +kernel⟩,
    (by
      intro p hp
      simp only [List.mem_cons, List.not_mem_nil, or_false] at hp
      rcases hp with rfl | rfl | rfl | rfl | rfl
      · exact ⟨wg { gp with park := .bwait (scrKey 0 64) 0x2000000000000040 0 (.vec 8 false) 1 .team }, _, rfl, rfl, rfl, rfl, by decide⟩
      · exact ⟨wg { gp with park := .awaitPhase (scrKey 0 64) 0x2000000000000040 0 (.vec 8 false) 1 .team false }, _, rfl, rfl, rfl, rfl, by decide⟩
      · exact ⟨wg { gp with park := .pause 99 (.vec 8 false) 1 }, _, rfl, rfl, rfl, rfl, by decide⟩
      · exact ⟨{ wo (op1 (.ld false false false) 0 (ln (.pool (scrKey 0 64)) .sent [])) with groups := [{ gp with park := .absent 50 }] }, _, rfl, rfl, rfl, rfl,
          fun _ => ⟨op1 (.ld false false false) 0 (ln (.pool (scrKey 0 64)) .sent []), by decide +kernel⟩⟩
      · exact ⟨wg { gp with park := .tbar 0 }, _, rfl, rfl, rfl, rfl, by decide⟩),
    ⟨wg { gp with park := .pause 0 (.vec 8 false) 1 }, 0, 0, { gp with park := .pause 0 (.vec 8 false) 1 }, .vec 8 false, 1, by decide +kernel⟩,
    ⟨{ bs with grids := [{ grid0 with gust := some ⟨0, 0, 1, 10, 0⟩ }] }, 0, { grid0 with gust := some ⟨0, 0, 1, 10, 0⟩ }, ⟨0, 0, 1, 10, 0⟩, by decide +kernel⟩⟩

/-- Obligations.StreamerEventResults: the hypotheses of each clause are met. -/
theorem wit_streamer_event_results :
    (∃ (s : State) (req : Nat) (r : Req), getReq s req = some r ∧ r.state = .queued ∧ r.bulk = false ∧ ((coreQueue s (reqCore s r)).find? (fun e => e.state == .queued && !e.bulk)).map Req.id = some req ∧ (coreAt s (reqCore s r)).paused = false ∧ ((coreQueue s (reqCore s r)).filter (fun e => e.state == .active)).length < 4) ∧
    (∃ (s : State) (req : Nat) (r : Req), getReq s req = some r ∧ MayRead s r ∧ (runReads r).any (fun x => linkLost s r.part x.1) = false ∧ reqReach s r = .ready ∧ (hostLines s (runReads r)).isEmpty = true ∧ sourceBad s r = false) ∧
    (∃ (s : State) (req : Nat) (r : Req), getReq s req = some r ∧ MayRead s r ∧ (runReads r).any (fun x => linkLost s r.part x.1) = false ∧ reqReach s r = .ready ∧ (hostLines s (runReads r)).isEmpty = true ∧ sourceBad s r = true) ∧
    (∃ (s : State) (req : Nat) (r : Req), getReq s req = some r ∧ MayRead s r ∧ (runReads r).any (fun x => linkLost s r.part x.1) = true) ∧
    (∃ (s : State) (req : Nat) (r : Req), getOp s req = none ∧ getReq s req = some r ∧ MayRead s r ∧ (hostLines s (runReads r)).isEmpty = false ∧ reqReach s r = .ready) ∧
    (∃ (s : State) (req line : Nat) (r : Req) (l : CopyLine), getReq s req = some r ∧ r.lines.find? (fun l => l.id == line) = some l ∧ landFree s r l = true ∧ (((∀ b ∈ l.bytes, linkLost s r.part b.1 = false) ∨ ctxOut s r.ctx = true))) ∧
    (∃ (s : State) (req line : Nat) (r : Req) (l : CopyLine), getReq s req = some r ∧ r.lines.find? (fun l => l.id == line) = some l ∧ ((∃ b ∈ l.bytes, linkLost s r.part b.1 = true)) ∧ ctxOut s r.ctx = false) ∧
    (∃ (s : State) (req obj : Nat) (r : Req), getReq s req = some r ∧ r.bar = some obj ∧ r.killed = false ∧ r.finalSent = false ∧ ((r.scope = .sys → s.hwrites.any (fun w => w.g == r.g) = false)) ∧ reqLanded r = true) ∧
    (∃ (s : State) (req obj : Nat) (r : Req), getReq s req = some r ∧ r.bar = some obj ∧ r.killed = false ∧ r.finalSent = false ∧ ((r.scope = .sys → s.hwrites.any (fun w => w.g == r.g) = false)) ∧ reqLanded r = false ∧ r.bcred ≠ 1 ∧ 16 ≤ r.sinceCredit ∧ r.err = false) ∧
    (∃ (s : State) (req num cell : Nat) (r : Req), getReq s req = some r ∧ r.gcnt = some (num, cell) ∧ r.gdone = false ∧ r.killed = false ∧ finalDone s r = true ∧ ((r.scope = .sys → s.hwrites.any (fun w => w.g == r.g) = false))) ∧
    (∃ (s : State) (req : Nat) (r : Req), getReq s req = some r ∧ finalDone s r = true ∧ ((r.gcnt = none ∨ r.gdone = true ∨ r.killed = true))) ∧
    (∃ (s : State) (req : Nat) (r : Req), getReq s req = some r ∧ r.bulk = true ∧ r.state = .queued ∧ r.bs = none) ∧
    (∃ (s : State) (req : Nat) (r : Req) (p : Pkt), getReq s req = some r ∧ r.state = .bulkSent ∧ s.pkts.find? (fun p => p.delivered && p.msg == .bulk req) = some p ∧ (s.reqs.filter (fun e => e.bs == r.bs && (e.state == .bulk || e.state == .stopped))).length < 64) ∧
    (∃ (s : State) (pkt : Nat) (p : Pkt) (u : Upd), getPkt s pkt = some p ∧ p.delivered = true ∧ p.msg = .bulkCredit u) ∧
    (∃ (s : State) (req n : Nat) (r : Req), getReq s req = some r ∧ r.state = .stopped ∧ r.pageAt = some n ∧ r.err = false ∧ granNone (granAt (partAt s r.part) n) = false ∧ (granAt (partAt s r.part) n).moving = none) :=
  ⟨⟨wr req1, 60, req1, by decide +kernel⟩,
    ⟨wr { req1 with state := .active }, 60, { req1 with state := .active }, by unfold MayRead; decide +kernel⟩,
    ⟨{ wr { req1 with state := .active } with poison := [.word (scrKey 0 1024 / 32)] }, 60, { req1 with state := .active }, by unfold MayRead; decide +kernel⟩,
    ⟨{ wpage (.host 65536) none with reqs := [{ req1 with state := .active, src := .uni 0 65536 }], links := [false, false] }, 60, { req1 with state := .active, src := .uni 0 65536 }, by unfold MayRead; decide +kernel⟩,
    ⟨{ wpage (.host 65536) none with reqs := [{ req1 with state := .active, src := .uni 0 65536 }], links := [true, true] }, 60, { req1 with state := .active, src := .uni 0 65536 }, by unfold MayRead; decide +kernel⟩,
    ⟨wr { req1 with lines := [⟨61, [(.pool (scrKey 0 2048), 5)]⟩] }, 60, 61, { req1 with lines := [⟨61, [(.pool (scrKey 0 2048), 5)]⟩] }, ⟨61, [(.pool (scrKey 0 2048), 5)]⟩, by decide +kernel⟩,
    ⟨{ wpage (.host 65536) none with reqs := [{ req1 with lines := [⟨61, [(.uni 0 65536, 5)]⟩] }], links := [false, false] }, 60, 61, { req1 with lines := [⟨61, [(.uni 0 65536, 5)]⟩] }, ⟨61, [(.uni 0 65536, 5)]⟩, by decide +kernel⟩,
    ⟨wr { req1 with next := 4, state := .issued, bar := some (scrKey 0 64) }, 60, scrKey 0 64, { req1 with next := 4, state := .issued, bar := some (scrKey 0 64) }, by decide +kernel⟩,
    ⟨wr { req1 with next := 4, state := .active, sinceCredit := 16, bar := some (scrKey 0 64) }, 60, scrKey 0 64, { req1 with next := 4, state := .active, sinceCredit := 16, bar := some (scrKey 0 64) }, by decide +kernel⟩,
    ⟨wr { req1 with next := 4, state := .issued, gcnt := some (0, 3) }, 60, 0, 3, { req1 with next := 4, state := .issued, gcnt := some (0, 3) }, by decide +kernel⟩,
    ⟨wr { req1 with next := 4, state := .issued }, 60, { req1 with next := 4, state := .issued }, by decide +kernel⟩,
    ⟨wr { req1 with bulk := true }, 60, { req1 with bulk := true }, by decide +kernel⟩,
    ⟨{ wr { req1 with bulk := true, state := .bulkSent, bs := some 1 } with pkts := [pkt1 false true (.bulk 60)] }, 60, { req1 with bulk := true, state := .bulkSent, bs := some 1 }, pkt1 false true (.bulk 60), by decide +kernel⟩,
    ⟨wp (pkt1 false true (.bulkCredit (upd1 none))), 80, pkt1 false true (.bulkCredit (upd1 none)), upd1 none, by decide +kernel⟩,
    ⟨wr { req1 with state := .stopped, pageAt := some 1 }, 60, 1, { req1 with state := .stopped, pageAt := some 1 }, by decide +kernel⟩⟩

/-- Obligations.MatrixEventResults: the hypotheses of each clause are met. -/
theorem wit_matrix_event_results :
    (∃ (s : State) (cmd : Nat) (c : MCmd), getCmd s cmd = some c ∧ stepDue s c = true) ∧
    (∃ (s : State) (cmd : Nat) (c : MCmd), getCmd s cmd = some c ∧ c.kind = .mma ∧ c.state = .stepsDone ∧ c.suspect = false ∧ ctxHere s c.ctx = true ∧ ctxPaused s c.ctx = false ∧ updatesBefore s c = false) ∧
    (∃ (s : State) (cmd : Nat) (c : MCmd), getCmd s cmd = some c ∧ c.state = .queued ∧ cmdTurn s c = true ∧ c.kind = .azero) ∧
    (∃ (s : State) (cmd : Nat) (c : MCmd), getCmd s cmd = some c ∧ c.state = .queued ∧ cmdTurn s c = true ∧ c.kind = .amov) ∧
    (∃ (s : State) (cmd : Nat) (c : MCmd), getCmd s cmd = some c ∧ c.state = .queued ∧ cmdTurn s c = true ∧ c.kind = .ains) ∧
    (∃ (s : State) (cmd : Nat) (c : MCmd), getCmd s cmd = some c ∧ c.state = .queued ∧ cmdTurn s c = true ∧ c.kind = .adrain) ∧
    (∃ (s : State) (cmd : Nat) (c : MCmd), getCmd s cmd = some c ∧ c.state = .begun ∧ ctxHere s c.ctx = true ∧ c.kind = .azero) ∧
    (∃ (s : State) (cmd : Nat) (c : MCmd) (g : Group), getCmd s cmd = some c ∧ c.state = .begun ∧ ctxHere s c.ctx = true ∧ c.kind = .amov ∧ getG s c.g = some g) ∧
    (∃ (s : State) (cmd : Nat) (c : MCmd) (g : Group), getCmd s cmd = some c ∧ c.state = .begun ∧ ctxHere s c.ctx = true ∧ c.kind = .ains ∧ getG s c.g = some g) ∧
    (∃ (s : State) (c : MCmd), getCmd s 70 = some c ∧ c.kind = .adrain ∧ c.state = .begun ∧ c.step < drainRows c ∧ ctxHere s c.ctx = true ∧ ctxPaused s c.ctx = false ∧
      (let e := drainRow c; let left := (((rowPlaces c c.step).zip [e.1, e.2.1]).flatMap (fun x => placed x.1.1 x.2)).drop c.made;
        left.head?.any (fun b => linkLost s c.part b.1) = true)) ∧
    (∀ p ∈ [256, 128], ∃ (s : State) (c : MCmd), getCmd s 70 = some c ∧ c.kind = .adrain ∧ c.state = .begun ∧ c.step < drainRows c ∧ ctxHere s c.ctx = true ∧ ctxPaused s c.ctx = false ∧
      (let e := drainRow c; let left := (((rowPlaces c c.step).zip [e.1, e.2.1]).flatMap (fun x => placed x.1.1 x.2)).drop c.made;
        left.head?.any (fun b => linkLost s c.part b.1) = false ∧ (left.takeWhile (fun b => writable s c b.1 1)).length = p ∧ left.length = 256)) ∧
    (∃ (s : State) (cmd line : Nat) (c : MCmd) (l : CopyLine), getCmd s cmd = some c ∧ c.lines.find? (fun l => l.id == line) = some l ∧ lineDue s c l = true ∧ l.bytes.any (fun b => linkLost s c.part b.1) = false ∧ ((c.add = true → l.bytes.any (fun b => (hostFrame s b.1).isSome) = false)) ∧ ((c.add = true → l.bytes.any (fun b => (staleAt s (cmdSrc s c) b.1 1).isSome) = false))) ∧
    (∃ (s : State) (cmd line : Nat) (c : MCmd) (l : CopyLine), getCmd s cmd = some c ∧ c.lines.find? (fun l => l.id == line) = some l ∧ ctxHere s c.ctx = true ∧ ((l.bytes.any (fun b => linkLost s c.part b.1) = true ∨ (lineDue s c l = true ∧ c.add = true ∧ l.bytes.any (fun b => (hostFrame s b.1).isSome) = true)))) ∧
    (∃ (s : State) (cmd : Nat) (c : MCmd), getCmd s cmd = some c ∧ c.killed = true ∧ c.lines = []) ∧
    (∃ (s : State) (cmd : Nat) (c : MCmd), getCmd s cmd = some c ∧ c.killed = false ∧ c.kind = .adrain ∧ c.state = .begun ∧ c.step = drainRows c ∧ c.lines = [] ∧ ctxHere s c.ctx = true ∧ ctxPaused s c.ctx = false ∧ updatesBefore s c = false) ∧
    (∃ (s : State) (cmd n : Nat) (c : MCmd), getCmd s cmd = some c ∧ c.state = .stopped ∧ c.pageAt = some n ∧ granNone (granAt (partAt s c.part) n) = false ∧ (granAt (partAt s c.part) n).moving = none) ∧
    (∃ (s : State) (cmd : Nat) (c : MCmd), getCmd s cmd = some c ∧ c.suspect = true) ∧
    (∃ (s : State) (op : Nat) (o : Op), getOp s op = some o ∧ o.kind = .query ∧ o.ctr = 4 ∧ frameHere s o.g = true) :=
  ⟨⟨wc (cmd1 .mma .queued), 70, cmd1 .mma .queued, by decide +kernel⟩,
    ⟨wc (cmd1 .mma .stepsDone), 70, cmd1 .mma .stepsDone, by decide +kernel⟩,
    ⟨wc (cmd1 .azero .queued), 70, cmd1 .azero .queued, by decide +kernel⟩,
    ⟨wc (cmd1 .amov .queued), 70, cmd1 .amov .queued, by decide +kernel⟩,
    ⟨wc (cmd1 .ains .queued), 70, cmd1 .ains .queued, by decide +kernel⟩,
    ⟨wc (cmd1 .adrain .queued), 70, cmd1 .adrain .queued, by decide +kernel⟩,
    ⟨wc (cmd1 .azero .begun), 70, cmd1 .azero .begun, by decide +kernel⟩,
    ⟨wc ({ cmd1 .amov .begun with tile := List.replicate 64 1 }), 70, { cmd1 .amov .begun with tile := List.replicate 64 1 }, gp, by decide +kernel⟩,
    ⟨wc ({ cmd1 .ains .begun with tile := List.replicate 64 1 }), 70, { cmd1 .ains .begun with tile := List.replicate 64 1 }, gp, by decide +kernel⟩,
    ⟨{ wpage (.host 65536) none with mcmds := [{ cmd1 .adrain .begun with dst := .uni 0 65536 }], links := [false, false] }, { cmd1 .adrain .begun with dst := .uni 0 65536 }, by decide +kernel⟩,
    (by
      intro p hp
      simp only [List.mem_cons, List.not_mem_nil, or_false] at hp
      rcases hp with rfl | rfl
      · exact ⟨wc (cmd1 .adrain .begun), cmd1 .adrain .begun, by decide +kernel⟩
      · exact ⟨wc { cmd1 .adrain .begun with dst := .uni 0 69504 }, { cmd1 .adrain .begun with dst := .uni 0 69504 }, by decide +kernel⟩),
    ⟨wc ({ cmd1 .adrain .begun with step := 64, lines := [⟨71, [(.uni 0 4096, 5)]⟩] }), 70, 71, { cmd1 .adrain .begun with step := 64, lines := [⟨71, [(.uni 0 4096, 5)]⟩] }, ⟨71, [(.uni 0 4096, 5)]⟩, by decide +kernel⟩,
    ⟨{ wpage (.host 65536) none with mcmds := [{ cmd1 .adrain .begun with step := 64, lines := [⟨71, [(.uni 0 65536, 5)]⟩] }], links := [false, false] }, 70, 71, { cmd1 .adrain .begun with step := 64, lines := [⟨71, [(.uni 0 65536, 5)]⟩] }, ⟨71, [(.uni 0 65536, 5)]⟩, by decide +kernel⟩,
    ⟨wc ({ cmd1 .adrain .begun with killed := true }), 70, { cmd1 .adrain .begun with killed := true }, by decide +kernel⟩,
    ⟨wc ({ cmd1 .adrain .begun with step := 64 }), 70, { cmd1 .adrain .begun with step := 64 }, by decide +kernel⟩,
    ⟨wc ({ cmd1 .adrain .stopped with pageAt := some 1 }), 70, 1, { cmd1 .adrain .stopped with pageAt := some 1 }, by decide +kernel⟩,
    ⟨wc ({ cmd1 .mma .begun with suspect := true }), 70, { cmd1 .mma .begun with suspect := true }, by decide +kernel⟩,
    ⟨wo (op1 .query 4 (ln (.pool (scrKey 0 64)) .sent [])), 50, op1 .query 4 (ln (.pool (scrKey 0 64)) .sent []), by decide +kernel⟩⟩

/-- Obligations.LatticeEventResults: the hypotheses of each clause are met. -/
theorem wit_lattice_event_results :
    (∃ (s : State) (op off : Nat) (o : Op) (x : LaneOp) (g : Group) (r : Region), getOp s op = some o ∧ o.lanes.find? (fun x => x.st == .sent) = some x ∧ getG s o.g = some g ∧ latRegion s x.loc = some (r, off) ∧ latBehind s o = false ∧ mayReach s (opSrc s o) (baseDie (stackOf s g)) = true ∧ o.kind = .jtrade) ∧
    (∃ (s : State) (op off : Nat) (o : Op) (x : LaneOp) (g : Group) (r : Region), getOp s op = some o ∧ o.lanes.find? (fun x => x.st == .sent) = some x ∧ getG s o.g = some g ∧ latRegion s x.loc = some (r, off) ∧ latBehind s o = false ∧ mayReach s (opSrc s o) (baseDie (stackOf s g)) = true ∧ o.kind ≠ .jtrade ∧ orderFree s o x = true ∧ (let line : CellLine := ⟨partOf s g, r.num, off / 64⟩; (nth s.cellCache (stackOf s g) []).contains line = true)) ∧
    (∃ (s : State) (op : Nat) (o o1 : Op) (g : Group), getOp s op = some o ∧ o.kind ≠ .jtrade ∧ o.lanes.any (fun x => x.st == .sent) = false ∧ getG s o.g = some g ∧ frameHere s o.g = true ∧ (let vs := o.lanes.filter (fun x => x.st == .valued); vs ≠ [] ∧ replyStale s (opSrc s o) = false ∧ pathOpen s (baseDie (stackOf s g)) (opSrc s o).1 = true ∧ (let s1 := vs.foldl (fun s x => setLane (returnValue s o x.lane x.val) op x.lane (fun y => { y with st := .performed })) s; getOp s1 op = some o1))) ∧
    (∃ (s : State) (op : Nat) (o : Op), getOp s op = some o ∧ o.kind ≠ .jtrade ∧ o.lanes.any (fun x => x.st == .sent) = false ∧ frameHere s o.g = true ∧ (let vs := o.lanes.filter (fun x => x.st == .valued); vs ≠ [] ∧ replyStale s (opSrc s o) = true)) ∧
    (∃ (s : State) (core region : Nat) (g : Group), s.groups.find? (fun g => g.park == .regionMiss region && coreOf s g == core) = some g ∧ pathOpen s (coreDie core) (baseDie (core / Config.coresPerStack)) = true) ∧
    (∃ (s : State) (part region : Nat) (r : Region), regionAt s part region = some r ∧ 1 < (stacksOf (partAt s part)).length ∧ r.lastInstant < s.tick / r.period * r.period ∧ r.trade.isSome = true) ∧
    (∃ (s : State) (part region : Nat) (r : Region), regionAt s part region = some r ∧ 1 < (stacksOf (partAt s part)).length ∧ r.lastInstant < s.tick / r.period * r.period ∧ r.trade = none) ∧
    (∃ (s : State) (pkt part num inst m fromK toK n : Nat) (p : Pkt) (ls : List TradeLine) (rels : List (Nat × View)), getPkt s pkt = some p ∧ p.delivered = true ∧ p.msg = .trade part num inst m fromK toK n ls rels ∧ (let ps := partsOf s (.trade part num inst m fromK toK n [] []); n ≤ ps.length ∧ liveInst s part num inst = true)) ∧
    (∃ (s : State) (pkt part num inst m fromK toK n : Nat) (p : Pkt) (ls : List TradeLine) (rels : List (Nat × View)), getPkt s pkt = some p ∧ p.delivered = true ∧ p.msg = .trade part num inst m fromK toK n ls rels ∧ (let ps := partsOf s (.trade part num inst m fromK toK n [] []); n ≤ ps.length ∧ liveInst s part num inst = false)) ∧
    (∃ (s : State) (pkt op part num inst m fromK toK n : Nat) (p : Pkt) (ls : List TradeLine) (rels : List (Nat × View)), getPkt s pkt = some p ∧ p.delivered = true ∧ p.msg = .jtrade op part num inst m fromK toK n ls rels ∧ (let ps := partsOf s (.jtrade op part num inst m fromK toK n [] []); n ≤ ps.length ∧ (liveInst s part num inst && (regionAt s part num).any (fun r => decide (r.completed < m))) = false)) ∧
    (∃ (s : State) (pkt part num inst m a b : Nat) (p : Pkt), getPkt s pkt = some p ∧ p.delivered = true ∧ p.msg = .tradeAck part num inst m a b) ∧
    (∃ (s : State) (pkt op k : Nat) (p : Pkt), getPkt s pkt = some p ∧ p.delivered = true ∧ p.msg = .jtradeAck op k) ∧
    (∃ (s : State) (part region : Nat) (r : Region) (t : Trade), regionAt s part region = some r ∧ r.trade = some t ∧ t.hubSent = false ∧ t.spokes = []) ∧
    (∃ (s : State) (op : Nat) (o : Op), getOp s op = some o ∧ o.kind = .jtrade ∧ jtradeOver s o = true ∧ frameHere s o.g = true) ∧
    (∃ (s : State) (op field off : Nat) (o : Op) (x : LaneOp) (g : Group) (r : Region), getOp s op = some o ∧ o.kind = .jqry field ∧ o.lanes.find? (fun x => x.st == .sent) = some x ∧ getG s o.g = some g ∧ latBehind s o = false ∧ frameHere s o.g = true ∧ replyStale s (opSrc s o) = false ∧ mayReach s (opSrc s o) (baseDie (stackOf s g)) = true ∧ latRegion s x.loc = some (r, off)) :=
  ⟨⟨wo (op1 .jtrade 5 (ln (.lat 0 0 0) .sent [])), 50, 0, (op1 .jtrade 5 (ln (.lat 0 0 0) .sent [])), ln (.lat 0 0 0) .sent [], gp, region0, by decide +kernel⟩,
    ⟨{ wo (op1 .jst 5 (ln (.lat 0 0 0) .sent [])) with cellCache := [[⟨0, 0, 0⟩]] }, 50, 0, (op1 .jst 5 (ln (.lat 0 0 0) .sent [])), ln (.lat 0 0 0) .sent [], gp, region0, by decide +kernel⟩,
    ⟨wo (op1 .jst 5 (ln (.lat 0 0 0) .valued [])), 50, (op1 .jst 5 (ln (.lat 0 0 0) .valued [])), (op1 .jst 5 (ln (.lat 0 0 0) .performed [])), gp, by decide +kernel⟩,
    ⟨wo { (op1 .jst 5 (ln (.lat 0 0 0) .valued [])) with inc := 0 }, 50, { (op1 .jst 5 (ln (.lat 0 0 0) .valued [])) with inc := 0 }, by decide +kernel⟩,
    ⟨wg { gp with park := .regionMiss 3 }, 0, 3, { gp with park := .regionMiss 3 }, by decide +kernel⟩,
    ⟨{ bp { region0 with trade := some ⟨0, 2, [], true⟩ } with tick := 1000 }, 0, 0, { region0 with trade := some ⟨0, 2, [], true⟩, reps := [⟨0, [], [(3, 9)], [(0, 0)], 0, []⟩, ⟨1, [], [], [], 0, []⟩] }, by decide +kernel⟩,
    ⟨{ bp region0 with tick := 1000 }, 0, 0, { region0 with reps := [⟨0, [], [(3, 9)], [(0, 0)], 0, []⟩, ⟨1, [], [], [], 0, []⟩] }, by decide +kernel⟩,
    ⟨wp (pkt1 false true (.trade 0 0 0 0 1 0 1 [⟨0, [(3, 9)]⟩] [])), 80, 0, 0, 0, 0, 1, 0, 1, pkt1 false true (.trade 0 0 0 0 1 0 1 [⟨0, [(3, 9)]⟩] []), [⟨0, [(3, 9)]⟩], [], by decide +kernel⟩,
    ⟨wp (pkt1 false true (.trade 0 0 1 0 1 0 1 [⟨0, [(3, 9)]⟩] [])), 80, 0, 0, 1, 0, 1, 0, 1, pkt1 false true (.trade 0 0 1 0 1 0 1 [⟨0, [(3, 9)]⟩] []), [⟨0, [(3, 9)]⟩], [], by decide +kernel⟩,
    ⟨wp (pkt1 false true (.jtrade 50 0 0 0 0 1 0 1 [⟨0, [(3, 9)]⟩] [])), 80, 50, 0, 0, 0, 0, 1, 0, 1, pkt1 false true (.jtrade 50 0 0 0 0 1 0 1 [⟨0, [(3, 9)]⟩] []), [⟨0, [(3, 9)]⟩], [], by decide +kernel⟩,
    ⟨wp (pkt1 false true (.tradeAck 0 0 0 0 1 0)), 80, 0, 0, 0, 0, 1, 0, pkt1 false true (.tradeAck 0 0 0 0 1 0), by decide +kernel⟩,
    ⟨wp (pkt1 false true (.jtradeAck 50 0)), 80, 50, 0, pkt1 false true (.jtradeAck 50 0), by decide +kernel⟩,
    ⟨bp { region0 with sched := 2, trade := some ⟨0, 1, [], false⟩ }, 0, 0, { region0 with sched := 2, trade := some ⟨0, 1, [], false⟩, reps := [⟨0, [], [(3, 9)], [(0, 0)], 0, []⟩, ⟨1, [], [], [], 0, []⟩] }, ⟨0, 1, [], false⟩, by decide +kernel⟩,
    ⟨wo (op1 .jtrade 5 (ln (.lat 0 0 0) .peer [0, 0])), 50, (op1 .jtrade 5 (ln (.lat 0 0 0) .peer [0, 0])), by decide +kernel⟩,
    ⟨wo (op1 (.jqry 1) 5 (ln (.lat 0 0 0) .sent [])), 50, 1, 0, (op1 (.jqry 1) 5 (ln (.lat 0 0 0) .sent [])), ln (.lat 0 0 0) .sent [], gp, region0, by decide +kernel⟩⟩

/-- Obligations.FabricEventResults: the hypotheses of each clause are met. -/
theorem wit_fabric_event_results :
    (∃ (s : State) (op lane : Nat) (tag : FabTag) (o : Op) (g : Group) (x : LaneOp), getOp s op = some o ∧ getG s o.g = some g ∧ o.lanes.find? (fun x => x.lane == lane) = some x ∧ x.st = .peer ∧ frameHere s o.g = true ∧ fabStale s (partOf s g) (((fabTargets (partAt s (partOf s g)) x.loc).head?).getD 0) tag.incarn (some tag.req) = false) ∧
    (∃ (s : State) (op lane status : Nat) (tag : FabTag) (o : Op) (g : Group) (x : LaneOp), getOp s op = some o ∧ getG s o.g = some g ∧ o.lanes.find? (fun x => x.lane == lane) = some x ∧ x.st = .peer ∧ frameHere s o.g = true ∧ status ≠ 0 ∧ ((status ≠ 1 → fabStale s (partOf s g) (((fabTargets (partAt s (partOf s g)) x.loc).head?).getD 0) tag.incarn (some tag.req) = false))) ∧
    (∃ (s : State) (op lane status : Nat) (tag : FabTag) (o : Op) (g : Group) (x : LaneOp), getOp s op = some o ∧ getG s o.g = some g ∧ o.lanes.find? (fun x => x.lane == lane) = some x ∧ x.st = .peer ∧ frameHere s o.g = true ∧ status ≠ 1 ∧ fabStale s (partOf s g) (((fabTargets (partAt s (partOf s g)) x.loc).head?).getD 0) tag.incarn (some tag.req) = true) ∧
    (∃ (s : State) (op : Nat) (o : Op), getOp s op = some o) ∧
    (∃ (s : State) (write member : Nat) (tag : FabTag) (w : PeerWrite), getWrite s write = some w ∧ w.pending.contains member = true ∧ fabStale s (w.part) member tag.incarn (some tag.req) = false) ∧
    (∃ (s : State) (write member : Nat) (tag : FabTag) (w : PeerWrite), getWrite s write = some w ∧ w.pending.contains member = true ∧ fabStale s (w.part) member tag.incarn (some tag.req) = true) ∧
    (∃ (s : State) (u : FabricUpdate) (me : Nat), (partAt s u.part).member = some me ∧ (membersOf (partAt s u.part) u.group).contains me = true ∧ (peerAt s u.part u.member).isSome = true ∧ fabStale s u.part u.member u.incarn none = false ∧ (let e := objTable s u.part u.obj; (let ua := e.ubase + u.off; entGrants e u.off u.size (if u.red.isSome then 10 else 2) = true ∧ uniHere s u.part ua u.size = true))) ∧
    (∃ (s : State) (u : FabricUpdate) (me : Nat), (partAt s u.part).member = some me ∧ (membersOf (partAt s u.part) u.group).contains me = true ∧ (peerAt s u.part u.member).isSome = true ∧ fabStale s u.part u.member u.incarn none = false ∧ entGrants (objTable s u.part u.obj) u.off u.size (if u.red.isSome then 10 else 2) = false) ∧
    (∃ (s : State) (write : Nat) (w : PeerWrite), getWrite s write = some w ∧ w.own = true ∧ ownBefore s w = false ∧ (let d := ownDo w; (let e := objTable s (w.part) d.obj; (let ua := e.ubase + d.off; entGrants e d.off d.size (if d.red.isSome then 10 else 2) = true ∧ uniHere s (w.part) ua d.size = true)))) ∧
    (∃ (s : State) (acc : FabricAccess) (q : Peer), peerAt s acc.part acc.member = some q ∧ fabStale s acc.part acc.member acc.incarn none = false ∧ (let e := objTable s acc.part acc.obj; (let ua := e.ubase + acc.off; entGrants e acc.off acc.size (accessRights acc.kind) = true ∧ uniHere s acc.part ua acc.size = true))) ∧
    (∃ (s : State) (acc : FabricAccess) (q : Peer), peerAt s acc.part acc.member = some q ∧ fabStale s acc.part acc.member acc.incarn none = false ∧ entGrants (objTable s acc.part acc.obj) acc.off acc.size (accessRights acc.kind) = false) ∧
    (∃ (s : State) (acc : FabricAccess) (q : Peer), peerAt s acc.part acc.member = some q ∧ q.incarn ≠ acc.incarn) ∧
    (∃ (s : State) (op : Nat) (m : Option Nat) (o : Op) (g : Group), getOp s op = some o ∧ o.kind = .xfence m ∧ getG s o.g = some g ∧ xWaits s g op m = false ∧ frameHere s o.g = true) ∧
    (∃ (s : State) (op v : Nat) (o : Op), getOp s op = some o ∧ o.kind = .xqry v ∧ frameHere s o.g = true) ∧
    (∃ (s : State) (coll : Nat) (peers : List PeerColl) (c : Coll), getColl s coll = some c ∧ c.out = none ∧ freshPeers s c peers = peers ∧ ((peers = [] → c.n = 1)) ∧ collMatch c peers = some false) ∧
    (∃ (s : State) (coll : Nat) (peers : List PeerColl) (c : Coll), getColl s coll = some c ∧ c.out = none ∧ freshPeers s c peers = peers ∧ ((peers = [] → c.n = 1)) ∧ collMatch c peers = some true) ∧
    (∃ (s : State) (coll : Nat) (peers : List PeerColl) (c : Coll), getColl s coll = some c ∧ c.out = some false ∧ c.sent = false ∧ freshPeers s c peers = peers ∧ peers.any (fun q => !q.agrees) = true) ∧
    (∃ (s : State) (coll : Nat) (c : Coll), getColl s coll = some c ∧ ((c.out = none ∧ c.n ≠ 1) ∨ (c.out = some false ∧ c.sent = false)) ∧ readDue s c = true) ∧
    (∃ (s : State) (coll : Nat) (peers : List PeerColl) (c : Coll) (err : Bool), getColl s coll = some c ∧ c.out = some err ∧ c.sent = false ∧ c.staged = false ∧ freshPeers s c peers = peers ∧ ((err = false → c.own.isSome = true ∧ peers.any (fun q => !q.agrees) = false)) ∧ ctxOut s c.ctx = false) ∧
    (∃ (s : State) (coll : Nat) (peers : List PeerColl) (c : Coll) (l : CopyLine) (err : Bool), getColl s coll = some c ∧ c.out = some err ∧ c.sent = false ∧ c.staged = true ∧ freshPeers s c peers = peers ∧ ((err = false → c.own.isSome = true ∧ peers.any (fun q => !q.agrees) = false)) ∧ collNext s c = some l) ∧
    (∃ (s : State) (coll : Nat) (peers : List PeerColl) (c : Coll) (err : Bool), getColl s coll = some c ∧ c.out = some err ∧ c.sent = false ∧ c.staged = true ∧ freshPeers s c peers = peers ∧ ((err = false → c.own.isSome = true ∧ peers.any (fun q => !q.agrees) = false)) ∧ c.lines = [] ∧ ctxOut s c.ctx = false ∧ s.colls.any (fun e => decide (e.id < c.id) && collOrdered e c && !(e.sent && !creditOut s e.id)) = false) ∧
    (∃ (s : State) (coll : Nat) (c : Coll), getColl s coll = some c ∧ c.out = none ∧ c.since + 2 ^ 30 < s.tick) :=
  ⟨⟨wo (op1 (.ld false false false) 0 (ln (.peer 1 0 256) .peer [])), 50, 0, ⟨1, (partAt bs 0).myIncarn.toNat, false⟩, op1 (.ld false false false) 0 (ln (.peer 1 0 256) .peer []), gp, ln (.peer 1 0 256) .peer [], by decide +kernel⟩,
    ⟨wo (op1 (.ld false false false) 0 (ln (.peer 1 0 256) .peer [])), 50, 0, 1, ⟨1, (partAt bs 0).myIncarn.toNat, false⟩, op1 (.ld false false false) 0 (ln (.peer 1 0 256) .peer []), gp, ln (.peer 1 0 256) .peer [], by decide +kernel⟩,
    ⟨wo (op1 (.ld false false false) 0 (ln (.peer 1 0 256) .peer [])), 50, 0, 0, ⟨2, (partAt bs 0).myIncarn.toNat, false⟩, op1 (.ld false false false) 0 (ln (.peer 1 0 256) .peer []), gp, ln (.peer 1 0 256) .peer [], by decide +kernel⟩,
    ⟨wo (op1 .st 1 (ln (.peer 1 0 256) .sent [])), 50, op1 .st 1 (ln (.peer 1 0 256) .sent []), by decide +kernel⟩,
    ⟨{ bs with pwrites := [⟨110, 50, 0, 0, .peer 1 0 256, 4, none, 5, 1, ⟨0, 0, 0, 0, 0, .fab, [], .fab⟩, [], true, [1], [1], false, false⟩] }, 110, 1, ⟨1, (partAt bs 0).myIncarn.toNat, false⟩, ⟨110, 50, 0, 0, .peer 1 0 256, 4, none, 5, 1, ⟨0, 0, 0, 0, 0, .fab, [], .fab⟩, [], true, [1], [1], false, false⟩, by decide +kernel⟩,
    ⟨{ bs with pwrites := [⟨110, 50, 0, 0, .peer 1 0 256, 4, none, 5, 1, ⟨0, 0, 0, 0, 0, .fab, [], .fab⟩, [], true, [1], [1], false, false⟩] }, 110, 1, ⟨2, (partAt bs 0).myIncarn.toNat, false⟩, ⟨110, 50, 0, 0, .peer 1 0 256, 4, none, 5, 1, ⟨0, 0, 0, 0, 0, .fab, [], .fab⟩, [], true, [1], [1], false, false⟩, by decide +kernel⟩,
    ⟨bs, ⟨0, 1, 1, true, .rel, .fab, 1, 0, 256, 8, none, 5⟩, 0, by decide +kernel⟩,
    ⟨bs, ⟨0, 1, 1, true, .rel, .fab, 1, 0, 1048576, 8, none, 5⟩, 0, by decide +kernel⟩,
    ⟨{ bs with pwrites := [⟨110, 50, 0, 0, .mcast 1 0 256, 4, none, 5, 1, ⟨0, 0, 0, 0, 0, .fab, [], .fab⟩, [], true, [1], [1], true, false⟩] }, 110, ⟨110, 50, 0, 0, .mcast 1 0 256, 4, none, 5, 1, ⟨0, 0, 0, 0, 0, .fab, [], .fab⟩, [], true, [1], [1], true, false⟩, by decide +kernel⟩,
    ⟨bs, ⟨0, 1, 1, true, .rlx, .fab, 0, 256, 8, .write 5⟩, ⟨1, 1, 1, true⟩, by decide +kernel⟩,
    ⟨bs, ⟨0, 1, 1, true, .rlx, .fab, 0, 1048576, 8, .write 5⟩, ⟨1, 1, 1, true⟩, by decide +kernel⟩,
    ⟨bs, ⟨0, 1, 2, true, .rlx, .fab, 0, 256, 8, .write 5⟩, ⟨1, 1, 1, true⟩, by decide +kernel⟩,
    ⟨wo (op1 (.xfence none) 6 (ln (.pool (scrKey 0 64)) .sent [])), 50, none, op1 (.xfence none) 6 (ln (.pool (scrKey 0 64)) .sent []), gp, by decide +kernel⟩,
    ⟨wo (op1 (.xqry 3) 6 (ln (.pool (scrKey 0 64)) .sent [])), 50, 3, op1 (.xqry 3) 6 (ln (.pool (scrKey 0 64)) .sent []), by decide +kernel⟩,
    ⟨{ bs with colls := [coll1] }, 95, [⟨1, 1, 0, true, List.replicate 16 1⟩], coll1, by decide +kernel⟩,
    ⟨{ bs with colls := [coll1] }, 95, [⟨1, 1, 0, false, List.replicate 16 1⟩], coll1, by decide +kernel⟩,
    ⟨{ bs with colls := [{ coll1 with out := some false }] }, 95, [⟨1, 1, 0, false, List.replicate 16 1⟩], { coll1 with out := some false }, by decide +kernel⟩,
    ⟨{ bs with colls := [coll1] }, 95, coll1, by decide +kernel⟩,
    ⟨{ bs with colls := [{ coll1 with out := some false, staged := false, own := some [] }] }, 95, [], { coll1 with out := some false, staged := false, own := some [] }, false, by decide +kernel⟩,
    ⟨{ bs with colls := [{ coll1 with out := some false, own := some [], lines := [⟨96, [(.pool (scrKey 0 2048), 5)]⟩] }] }, 95, [], { coll1 with out := some false, own := some [], lines := [⟨96, [(.pool (scrKey 0 2048), 5)]⟩] }, ⟨96, [(.pool (scrKey 0 2048), 5)]⟩, false, by decide +kernel, rfl, rfl, rfl, by decide +kernel, by decide +kernel, collNext_one (by decide +kernel)⟩,
    ⟨{ bs with colls := [{ coll1 with out := some false, own := some [] }] }, 95, [], { coll1 with out := some false, own := some [] }, false, by decide +kernel⟩,
    ⟨{ bs with colls := [coll1], tick := 2 ^ 30 + 1 }, 95, coll1, by decide +kernel⟩⟩

/-- Obligations.RingAndDieEventResults: the hypotheses of each clause are met. -/
theorem wit_ring_and_die_event_results :
    (∃ (s : State) (pkt : Nat) (p : Pkt), getPkt s pkt = some p ∧ p.flying = false ∧ p.delivered = false ∧ (dieAt s p.src).loaded = true ∧ (dieAt s p.src).announcing = false ∧ hasTurn s p = true ∧ (stopDir s p.srcStop p.up).used + p.flits + 2 ≤ 16 ∧ throughFlits s p.srcStop p.up = false ∧ (stopDir s (nextStop p.srcStop p.up) p.up).starved = false) ∧
    (∃ (s : State) (pkt : Nat) (p : Pkt), getPkt s pkt = some p ∧ p.flying = false ∧ p.delivered = false ∧ (dieAt s p.src).loaded = true ∧ (dieAt s p.src).announcing = false ∧ hasTurn s p = true ∧ ((16 < (stopDir s p.srcStop p.up).used + p.flits + 2 ∨ throughFlits s p.srcStop p.up = true ∨ (stopDir s (nextStop p.srcStop p.up) p.up).starved = true))) ∧
    (∃ (s : State) (pkt : Nat) (p : Pkt), getPkt s pkt = some p ∧ p.flying = true ∧ p.delivered = false ∧ (let r := p.fl.foldl (hopFlit p) (s, []); ((r.2.any (· != p.dstStop) = true ∨ (dieAt s p.dst).loaded = false)))) ∧
    (∃ (s : State) (pkt : Nat) (p : Pkt), getPkt s pkt = some p ∧ p.flying = true ∧ p.delivered = false ∧ (let r := p.fl.foldl (hopFlit p) (s, []); r.2.any (· != p.dstStop) = false ∧ (dieAt s p.dst).loaded = true)) ∧
    (∃ (die : Nat), 2 ≤ die ∧ die < Config.numDies) ∧
    (∃ (s : State) (die : Nat), (dieAt s die).loaded = false) ∧
    (∃ (s : State) (die : Nat), (dieAt s die).announcing = true ∧ ((die ≤ 1 → stillOut s die = false))) ∧
    (∃ (s : State) (target : Nat), target ≤ 1 ∧ (dieAt s target).announcing = true) :=
  ⟨⟨wp (pkt1 false false (.bulk 60)), 80, pkt1 false false (.bulk 60), by decide +kernel⟩,
    ⟨modStop (wp (pkt1 false false (.bulk 60))) 1 true (fun d => { d with used := 14 }), 80, pkt1 false false (.bulk 60), by decide +kernel⟩,
    ⟨wp { pkt1 true false (.bulk 60) with dstStop := 2, fl := [0, 0] }, 80, { pkt1 true false (.bulk 60) with dstStop := 2, fl := [0, 0] }, by decide +kernel⟩,
    ⟨wp (pkt1 true false (.bulk 60)), 80, pkt1 true false (.bulk 60), by decide +kernel⟩,
    ⟨2, by decide +kernel⟩,
    ⟨modDie bs 2 (fun d => { d with loaded := false }), 2, by decide +kernel⟩,
    ⟨modDie bs 2 (fun d => { d with announcing := true }), 2, by decide +kernel⟩,
    ⟨modDie bs 1 (fun d => { d with announcing := true }), 1, by decide +kernel⟩⟩

/-- Obligations.HostPortEventResults: the hypotheses of each clause are met. -/
theorem wit_host_port_event_results :
    (∃ (s : State) (req : HostReq), linkUp s req.link = true ∧ funcTakes s req = true ∧ reqFits s req req.data.length = true) ∧
    (∃ (s : State) (req : HostReq), linkUp s req.link = true ∧ (funcTakes s req && reqFits s req req.data.length) = false) ∧
    (∃ (s t : State) (req : HostReq) (status : Nat) (ep : Bool) (bs : List Byte), linkUp s req.link = true ∧ funcTakes s req = true ∧ reqFits s req req.len = true ∧ readTurn s req = true ∧ readLines s (senderNow s (portDie req.link)) req.part false [] (linePieces (reqUa s req) req.len) = some (t, status, ep, bs)) ∧
    (∃ (s : State) (req : HostReq), linkUp s req.link = true ∧ (funcTakes s req && reqFits s req req.len) = false) ∧
    (∃ (s t : State) (req : HostReq) (k : FabricKind), linkUp s req.link = true ∧ funcTakes s req = true ∧ ((req.data.length = 4 ∨ req.data.length = 8)) ∧ reqUa s req % req.data.length = 0 ∧ reqFits s req req.data.length = true ∧ readTurn s req = true ∧ inbReach s (senderNow s (portDie req.link)) req.part (reqUa s req) = .go t ∧ atomicKind req = some k ∧ badLine t (.uni req.part (reqUa s req)) req.data.length = false) ∧
    (∃ (s : State) (req : HostReq), linkUp s req.link = true ∧ ((funcTakes s req = false ∨ reqFits s req req.data.length = false ∨ atomicKind req = none))) ∧
    (∃ (s : State) (req line : Nat) (i : Inbound) (l : InbLine), s.inb.find? (fun i => i.id == req) = some i ∧ i.lines.find? (fun l => l.id == line && !l.acked) = some l ∧ mayRelease s i = true ∧ (partAt s i.req.part).enable = true) ∧
    (∃ (s : State) (op lane : Nat) (o : Op) (g : Group) (x : LaneOp), getOp s op = some o ∧ getG s o.g = some g ∧ o.lanes.find? (fun x => x.lane == lane) = some x ∧ x.st = .host ∧ frameHere s o.g = true) ∧
    (∃ (s : State) (op lane p ua : Nat) (o : Op) (g : Group) (x : LaneOp), getOp s op = some o ∧ getG s o.g = some g ∧ o.lanes.find? (fun x => x.lane == lane) = some x ∧ x.st = .host ∧ frameHere s o.g = true ∧ x.loc = .uni p ua) ∧
    (∃ (s : State) (part gran : Nat), HreqFree s part gran ∧ hreqRefuse s part gran false = none) ∧
    (∃ (s : State) (part gran : Nat), HreqFree s part gran ∧ hreqRefuse s part gran false = none ∧ (granAt (partAt s part) gran).state ≠ .none) ∧
    (∃ (s t : State) (part gran : Nat), HreqFree s part gran ∧ hreqRefuse s part gran false = none ∧ (granAt (partAt s part) gran).state = .none ∧ backPage (hreqSet s part gran 1 0) part gran (hostHalf (partAt s part)) = some t) ∧
    (∃ (s : State) (part gran : Nat), HreqFree s part gran ∧ hreqRefuse s part gran false = none) ∧
    (∃ (s : State) (part gran : Nat), HreqFree s part gran ∧ hreqRefuse s part gran true = none ∧ (granAt (partAt s part) gran).state ≠ .none) ∧
    (∃ (s : State) (part gran : Nat) (st : GranState), HreqFree s part gran ∧ hreqRefuse s part gran true = none ∧ granHost (granAt (partAt s part) gran) = true ∧ placeOn (partAt s part) (hostHalf (partAt s part)) (pageOf (sizeOfPage s part gran) gran).length ((mpEntry s part (4096 * gran)).bind ObjEnt.hint) = some st) ∧
    (∃ (s : State) (part gran : Nat), HreqFree s part gran ∧ hreqRefuse s part gran true = none) ∧
    (∃ (s : State) (part : Nat), (partAt s part).otinvBusy = false) ∧
    (∃ (s : State) (part : Nat), (partAt s part).otinvBusy = true) :=
  ⟨⟨bs, (hq 256 (leBytes 8 5)), by decide +kernel⟩,
    ⟨bs, { hq 256 (leBytes 8 5) with off := 2 ^ 21 }, by decide +kernel⟩,
    (by
    have h : (readLines bs (senderNow bs (portDie (hq 256 (leBytes 8 5)).link)) (hq 256 (leBytes 8 5)).part false [] (linePieces (reqUa bs (hq 256 (leBytes 8 5))) (hq 256 (leBytes 8 5)).len)).isSome = true := by decide +kernel
    exact ⟨bs, (Option.get _ h).1, (hq 256 (leBytes 8 5)), (Option.get _ h).2.1, (Option.get _ h).2.2.1, (Option.get _ h).2.2.2, by decide +kernel, by decide +kernel, by decide +kernel, by decide +kernel, (Option.some_get h).symm⟩),
    ⟨bs, { hq 256 (leBytes 8 5) with off := 2 ^ 21 }, by decide +kernel⟩,
    ⟨bs, bs, { (hq 256 (leBytes 8 5)) with atom := some 0 }, .atom 0 5, by decide +kernel, by decide +kernel, by decide, by decide +kernel, by decide +kernel, by decide +kernel, rfl, by decide +kernel⟩,
    ⟨bs, { hq 256 (leBytes 8 5) with atom := some 5 }, by decide +kernel⟩,
    ⟨{ bs with inb := [⟨120, 1, (hq 256 (leBytes 8 5)), [⟨0, 4352, leBytes 8 5, false⟩]⟩] }, 120, 0, ⟨120, 1, (hq 256 (leBytes 8 5)), [⟨0, 4352, leBytes 8 5, false⟩]⟩, ⟨0, 4352, leBytes 8 5, false⟩, by decide +kernel⟩,
    ⟨wo (op1 (.ld false false false) 0 (ln (.uni 0 65536) .host [])), 50, 0, op1 (.ld false false false) 0 (ln (.uni 0 65536) .host []), gp, ln (.uni 0 65536) .host [], by decide +kernel⟩,
    ⟨wo (op1 (.ld false false false) 0 (ln (.uni 0 65536) .host [])), 50, 0, 0, 65536, op1 (.ld false false false) 0 (ln (.uni 0 65536) .host []), gp, ln (.uni 0 65536) .host [], by decide +kernel⟩,
    ⟨bs, 0, 3, by unfold HreqFree; decide +kernel, by decide +kernel⟩,
    ⟨bs, 0, 3, by unfold HreqFree; decide +kernel, by decide +kernel, by decide +kernel⟩,
    (by
    have h : (backPage (hreqSet (wpage .none none) 0 16 1 0) 0 16 (hostHalf (partAt (wpage .none none) 0))).isSome = true := by decide +kernel
    exact ⟨wpage .none none, Option.get _ h, 0, 16, by unfold HreqFree; decide +kernel, by decide +kernel, by decide +kernel, (Option.some_get h).symm⟩),
    ⟨bs, 0, 3, by unfold HreqFree; decide +kernel, by decide +kernel⟩,
    ⟨bs, 0, 3, by unfold HreqFree; decide +kernel, by decide +kernel, by decide +kernel⟩,
    ⟨wpage (.host 65536) none, 0, 16, .hbm 1, by unfold HreqFree; decide +kernel, by decide +kernel, by decide +kernel, by decide +kernel⟩,
    ⟨bs, 0, 3, by unfold HreqFree; decide +kernel, by decide +kernel⟩,
    ⟨bs, 0, by decide +kernel⟩,
    ⟨wpt (fun p => { p with otinvBusy := true }), 0, by decide +kernel⟩⟩

/-- Obligations.PageEventResults: the hypotheses of each clause are met. -/
theorem wit_page_event_results :
    (∃ (s : State) (part gran ctx : Nat) (asker : PageAsker) (w x a e : Bool), askerAt s part gran asker = some (ctx, w, x, a, e) ∧ (partAt s part).preqs.any (fun r => r.joined.contains asker) = false ∧ asksFor (partAt s part) gran = true) ∧
    (∃ (s : State) (part gran ctx : Nat) (asker : PageAsker) (w x a e : Bool), askerAt s part gran asker = some (ctx, w, x, a, e) ∧ (partAt s part).preqs.any (fun r => r.joined.contains asker) = false ∧ asksFor (partAt s part) gran = false) ∧
    (∃ (s t : State) (ans : PageAnswer) (r : PageReq), AnswerFor s ans r 0 ∧ (granAt (partAt s (ansPart ans)) r.gran).state = .none ∧ backPage s (ansPart ans) r.gran (touchHalf s r) = some t) ∧
    (∃ (s t : State) (ans : PageAnswer) (r : PageReq), AnswerFor s ans r 1 ∧ (granAt (partAt s (ansPart ans)) r.gran).state = .none ∧ backPage s (ansPart ans) r.gran (touchHalf s r) = some t) ∧
    (∃ (s : State) (ans : PageAnswer) (r : PageReq), AnswerFor s ans r 0 ∧ (granAt (partAt s (ansPart ans)) r.gran).state ≠ .none) ∧
    (∃ (s : State) (ans : PageAnswer) (r : PageReq), AnswerFor s ans r 2 ∧ (granAt (partAt s (ansPart ans)) r.gran).state ≠ .none) ∧
    (∃ (s : State) (ans : PageAnswer) (r : PageReq), AnswerFor s ans r 2 ∧ (granAt (partAt s (ansPart ans)) r.gran).state = .none) ∧
    (∃ (s : State) (ans : PageAnswer) (r : PageReq), AnswerFor s ans r 3) ∧
    (∀ st ∈ [0, 1, 2, 3], ∃ (ans : PageAnswer), bits ans.lo.toNat 44 42 = st) ∧
    (∃ (s : State) (part gran : Nat) (st : GranState), (granAt (partAt s part) gran).moving = some st ∧ (moveDies s part gran st).all (mayReach s (senderNow s 0)) = true) :=
  ⟨⟨{ (modP (wpage .none none) 0 (fun p => { p with preqs := [⟨0, 16, 0, 0, false, false, false, false, [], false⟩] })) with ops := [op1 (.ld false false false) 0 (ln (.uni 0 65536) .sent [])] }, 0, 16, 0, .lane 50 0, false, false, false, false, by decide +kernel⟩,
    ⟨{ wpage .none none with ops := [op1 (.ld false false false) 0 (ln (.uni 0 65536) .sent [])] }, 0, 16, 0, .lane 50 0, false, false, false, false, by decide +kernel⟩,
    (by
    have h : (backPage (modP (wpage .none none) 0 (fun p => { p with preqs := [⟨0, 16, 0, 0, false, false, false, false, [], false⟩] })) (ansPart (⟨BitVec.ofNat 64 (0 * 2 ^ 42), 0⟩ : PageAnswer)) (⟨0, 16, 0, 0, false, false, false, false, [], false⟩ : PageReq).gran (touchHalf (modP (wpage .none none) 0 (fun p => { p with preqs := [⟨0, 16, 0, 0, false, false, false, false, [], false⟩] })) ⟨0, 16, 0, 0, false, false, false, false, [], false⟩)).isSome = true := by decide +kernel
    exact ⟨(modP (wpage .none none) 0 (fun p => { p with preqs := [⟨0, 16, 0, 0, false, false, false, false, [], false⟩] })), Option.get _ h, (⟨BitVec.ofNat 64 (0 * 2 ^ 42), 0⟩ : PageAnswer), ⟨0, 16, 0, 0, false, false, false, false, [], false⟩, by unfold AnswerFor; decide +kernel, by decide +kernel, (Option.some_get h).symm⟩),
    (by
    have h : (backPage (modP (wpage .none none) 0 (fun p => { p with preqs := [⟨0, 16, 0, 0, false, false, false, false, [], false⟩] })) (ansPart (⟨BitVec.ofNat 64 (1 * 2 ^ 42), 0⟩ : PageAnswer)) (⟨0, 16, 0, 0, false, false, false, false, [], false⟩ : PageReq).gran (touchHalf (modP (wpage .none none) 0 (fun p => { p with preqs := [⟨0, 16, 0, 0, false, false, false, false, [], false⟩] })) ⟨0, 16, 0, 0, false, false, false, false, [], false⟩)).isSome = true := by decide +kernel
    exact ⟨(modP (wpage .none none) 0 (fun p => { p with preqs := [⟨0, 16, 0, 0, false, false, false, false, [], false⟩] })), Option.get _ h, (⟨BitVec.ofNat 64 (1 * 2 ^ 42), 0⟩ : PageAnswer), ⟨0, 16, 0, 0, false, false, false, false, [], false⟩, by unfold AnswerFor; decide +kernel, by decide +kernel, (Option.some_get h).symm⟩),
    ⟨(modP (wpage (.hbm 0) none) 0 (fun p => { p with preqs := [⟨0, 16, 0, 0, false, false, false, false, [], false⟩] })), (⟨BitVec.ofNat 64 (0 * 2 ^ 42), 0⟩ : PageAnswer), ⟨0, 16, 0, 0, false, false, false, false, [], false⟩, by unfold AnswerFor; decide +kernel, by decide +kernel⟩,
    ⟨(modP (wpage (.hbm 0) none) 0 (fun p => { p with preqs := [⟨0, 16, 0, 0, false, false, false, false, [], false⟩] })), (⟨BitVec.ofNat 64 (2 * 2 ^ 42), 0⟩ : PageAnswer), ⟨0, 16, 0, 0, false, false, false, false, [], false⟩, by unfold AnswerFor; decide +kernel, by decide +kernel⟩,
    ⟨(modP (wpage .none none) 0 (fun p => { p with preqs := [⟨0, 16, 0, 0, false, false, false, false, [], false⟩] })), (⟨BitVec.ofNat 64 (2 * 2 ^ 42), 0⟩ : PageAnswer), ⟨0, 16, 0, 0, false, false, false, false, [], false⟩, by unfold AnswerFor; decide +kernel, by decide +kernel⟩,
    ⟨(modP (wpage .none none) 0 (fun p => { p with preqs := [⟨0, 16, 0, 0, false, false, false, false, [], false⟩] })), (⟨BitVec.ofNat 64 (3 * 2 ^ 42), 0⟩ : PageAnswer), ⟨0, 16, 0, 0, false, false, false, false, [], false⟩, by unfold AnswerFor; decide +kernel⟩,
    (by
      intro st hst
      simp only [List.mem_cons, List.not_mem_nil, or_false] at hst
      rcases hst with rfl | rfl | rfl | rfl
      · exact ⟨⟨0, 0⟩, by decide +kernel⟩
      · exact ⟨⟨2 ^ 42, 0⟩, by decide +kernel⟩
      · exact ⟨⟨2 * 2 ^ 42, 0⟩, by decide +kernel⟩
      · exact ⟨⟨3 * 2 ^ 42, 0⟩, by decide +kernel⟩),
    ⟨wpage (.hbm 0) (some (.tier2 0)), 0, 16, .tier2 0, by decide +kernel⟩⟩

/-- Obligations.PartitionEventResults: the hypotheses of each clause are met. -/
theorem wit_partition_event_results :
    (∃ (s : State) (part : Nat) (val : W64), ((partAt s part).enable && !val.getLsbD 9) = false) ∧
    (∃ (s : State) (part : Nat), (partAt s part).enable = true) ∧
    (∃ (s : State) (part : Nat), (partAt s part).teardown = true ∧ partQuiet s part = true) ∧
    (∃ (s : State) (part : Nat), ((partAt s part).epoch + 1) * 2 ^ 20 ≤ s.tick) ∧
    (∃ (s : State) (part : Nat), (partAt s part).enable = true) ∧
    (∃ (s : State), linkUp s 0 = true) ∧
    (∃ (func : Nat), 0 < func ∧ func ≤ Config.numParts) :=
  ⟨⟨State.reset, 0, 0x201, by decide +kernel⟩,
    ⟨bs, 0, by decide +kernel⟩,
    ⟨{ wpt (fun p => { p with teardown := true }) with ctxs := [], grids := [] }, 0, by decide +kernel⟩,
    ⟨{ bs with tick := 2 ^ 20 }, 0, by decide +kernel⟩,
    ⟨bs, 0, by decide +kernel⟩,
    ⟨bs, by decide +kernel⟩,
    ⟨1, by decide +kernel⟩⟩

/-- Obligations.CommandQueueEventResults: the hypotheses of each clause are met. -/
theorem wit_command_queue_event_results :
    (∃ (s : State) (part queue : Nat) (bytes : List Byte), funcUp s part = true ∧ (partAt s part).enable = true ∧ bytes.length = 64 ∧ (queueAt s part queue).enable = true) ∧
    (∃ (s : State) (part : Nat), funcUp s part = true ∧ (partAt s part).enable = true) ∧
    (∃ (s : State) (part : Nat), funcUp s part = true ∧ (partAt s part).enable = true) ∧
    (∃ (s : State) (part queue : Nat) (c : CmdPkt), TurnOf s part queue c ∧ ((c.kind = 0 ∨ 7 ≤ c.kind))) ∧
    (∃ (s : State) (part queue : Nat) (c : CmdPkt), TurnOf s part queue c ∧ c.kind = 6) ∧
    (∃ (s : State) (part queue n : Nat) (c : CmdPkt), TurnOf s part queue c ∧ c.kind = 3 ∧ packetCode s part [] c = 0 ∧ (let s1 := tookTurn (begun s part queue 1) part queue
      s1.runs.any (fun r => r.part == part && r.queue == queue && r.seq == c.seq && !r.done) = false ∧ pick s1 (freeRuns s1) = some n ∧ (queueAt s part queue).inBatch = false)) ∧
    (∃ (s : State) (part queue : Nat) (c : CmdPkt), TurnOf s part queue c ∧ c.kind = 3 ∧ packetCode s part [] c ≠ 0 ∧ (queueAt s part queue).inBatch = false) ∧
    (∃ (s : State) (part queue : Nat) (c : CmdPkt), TurnOf s part queue c ∧ c.kind = 4 ∧ packetCode s part [] c = 0) ∧
    (∃ (s : State) (part queue : Nat) (c : CmdPkt), TurnOf s part queue c ∧ c.kind = 5 ∧ packetCode s part [] c = 0) ∧
    (∃ (s : State) (part queue : Nat) (c : CmdPkt), cmdTurn? s part queue = some c ∧ batchFull (queueAt s part queue) = false ∧ c.kind = 1 ∧ (queueAt s part queue).inBatch = false) ∧
    (∃ (s : State) (part queue : Nat) (c : CmdPkt), cmdTurn? s part queue = some c ∧ (queueAt s part queue).inBatch = true ∧ (queueAt s part queue).committed = false ∧ (headBatch (queueAt s part queue)).2 = true) ∧
    (∃ (s : State) (part queue : Nat) (c : CmdPkt), cmdTurn? s part queue = some c ∧ (queueAt s part queue).inBatch = true ∧ (queueAt s part queue).committed = true ∧ c.kind = 2) ∧
    (∃ (s : State) (op n : Nat) (o : Op) (x : LaneOp) (rest : List LaneOp), getOp s op = some o ∧ o.kind = .qtake n ∧ o.lanes = x :: rest) ∧
    (∃ (s : State) (op q seq : Nat) (o : Op), getOp s op = some o ∧ o.kind = .qack q seq) :=
  ⟨⟨wq bs false false [], 0, 0, raw 1 0 0 0 0, by decide +kernel⟩,
    ⟨bs, 0, by decide +kernel⟩,
    ⟨bs, 0, by decide +kernel⟩,
    ⟨wq bs false false [raw 1 0 0 0 0], 0, 0, cmdPkt (raw 1 0 0 0 0), by unfold TurnOf; decide +kernel⟩,
    ⟨wq bs false false [raw 1 6 0 0 0], 0, 0, cmdPkt (raw 1 6 0 0 0), by unfold TurnOf; decide +kernel⟩,
    (by
    obtain ⟨n, hn⟩ := pick_some (s := tookTurn (begun (wq bg false false [raw 1 3 (0x1000000000000000+2048) (0x1000000000000000+2560) 0]) 0 0 1) 0 0) (l := freeRuns (tookTurn (begun (wq bg false false [raw 1 3 (0x1000000000000000+2048) (0x1000000000000000+2560) 0]) 0 0 1) 0 0))
      (freeRuns_ne (by decide +kernel))
    exact ⟨wq bg false false [raw 1 3 (0x1000000000000000+2048) (0x1000000000000000+2560) 0], 0, 0, n, cmdPkt (raw 1 3 (0x1000000000000000+2048) (0x1000000000000000+2560) 0), by unfold TurnOf; decide +kernel, by decide +kernel, by decide +kernel, by decide +kernel, hn, by decide +kernel⟩),
    ⟨wq bs false false [raw 1 3 0 0 0], 0, 0, cmdPkt (raw 1 3 0 0 0), by unfold TurnOf; decide +kernel⟩,
    ⟨wq bs false false [raw 1 4 5 (9 + 64 * 2 ^ 48) (1000 * 2 ^ 32)], 0, 0, cmdPkt (raw 1 4 5 (9 + 64 * 2 ^ 48) (1000 * 2 ^ 32)), by unfold TurnOf; decide +kernel⟩,
    ⟨wq bs false false [raw 1 5 0 0 0], 0, 0, cmdPkt (raw 1 5 0 0 0), by unfold TurnOf; decide +kernel⟩,
    ⟨wq bs false false [raw 1 1 0 0 0], 0, 0, cmdPkt (raw 1 1 0 0 0), by decide +kernel⟩,
    ⟨wq bs true false [raw 2 0 0 0 0, raw 3 2 0 0 0], 0, 0, cmdPkt (raw 2 0 0 0 0), by decide +kernel⟩,
    ⟨wq bs true true [raw 3 2 0 0 0], 0, 0, cmdPkt (raw 3 2 0 0 0), by decide +kernel⟩,
    ⟨wo (op1 (.qtake 64) 0 (ln (.pool (scrKey 0 64)) .sent [])), 50, 64, op1 (.qtake 64) 0 (ln (.pool (scrKey 0 64)) .sent []), ln (.pool (scrKey 0 64)) .sent [], [], by decide +kernel⟩,
    ⟨wo (op1 (.qack 0 1) 2 (ln (.pool (scrKey 0 64)) .sent [])), 50, 0, 1, op1 (.qack 0 1) 2 (ln (.pool (scrKey 0 64)) .sent []), by decide +kernel⟩⟩

/-- Obligations.GridAndRunEventResults: the hypotheses of each clause are met. -/
theorem wit_grid_and_run_event_results :
    (∃ (s : State) (run node num : Nat) (r : Run) (n : Node), getRun s run = some r ∧ r.nodes[node]? = some n ∧ pick s (freeGrids s r.part) = some num ∧ r.done = false ∧ n.pred = 0 ∧
      n.state = .waiting ∧ (partAt s r.part).enable = true ∧ (partAt s r.part).faulted = false) ∧
    (∃ (s : State) (grid : Nat) (g : Grid), getGrid s grid = some g ∧ gridOver s g = true) ∧
    (∃ (s : State) (run : Nat) (r : Run), getRun s run = some r ∧ r.done = false ∧ r.nodes.all (fun n => n.state == .completed || n.state == .faulted || n.state == .skipped) = true ∧ s.hwrites.any (fun w => (getG s w.g).isNone) = false) ∧
    (∃ (s : State) (grid : Nat) (g : Grid), getGrid s grid = some g ∧ g.preDone ≠ some g.progress ∧ ranOut s (gridQueue s g).wPre g.progress = true) ∧
    (∃ (s : State) (grid : Nat) (g : Grid), getGrid s grid = some g ∧ g.killed = false ∧ g.killDue = false ∧ ranOut s (gridQueue s g).wKill g.progress = true) ∧
    (∃ (s : State) (grid t : Nat) (g : Grid), getGrid s grid = some g ∧ g.killAt = some t ∧ ranOut s (gridQueue s g).wFence t = true) :=
  ⟨(by
    obtain ⟨n, hn⟩ := pick_some (s := { bs with runs := [run1] }) (l := freeGrids { bs with runs := [run1] } run1.part) (by decide +kernel)
    exact ⟨_, 200, 0, n, run1, _, by decide +kernel, rfl, hn, by decide +kernel⟩),
    ⟨{ wg { gp with ended := true, left := true } with ctxs := [], grids := [{ grid0 with endedTeams := 1 }] }, 0, { grid0 with endedTeams := 1 }, by decide +kernel⟩,
    ⟨{ bs with runs := [{ run1 with nodes := [{ pred := 0, ahead := 0, state := .completed, succ := [], lr := bootLaunch }] }] }, 200, { run1 with nodes := [{ pred := 0, ahead := 0, state := .completed, succ := [], lr := bootLaunch }] }, by decide +kernel⟩,
    ⟨modQ { bs with runs := [run1], grids := [{ grid0 with run := 200 }], tick := 1024 } 0 0 (fun q => { q with wPre := 1, wKill := 1, wFence := 1 }), 0, { grid0 with run := 200 }, by decide +kernel⟩,
    ⟨modQ { bs with runs := [run1], grids := [{ grid0 with run := 200 }], tick := 1024 } 0 0 (fun q => { q with wPre := 1, wKill := 1, wFence := 1 }), 0, { grid0 with run := 200 }, by decide +kernel⟩,
    ⟨modQ { bs with runs := [run1], grids := [{ grid0 with run := 200, killAt := some 0 }], tick := 1024 } 0 0 (fun q => { q with wFence := 1 }), 0, 0, { grid0 with run := 200, killAt := some 0 }, by decide +kernel⟩⟩

/-- Obligations.PowerAndVeerEventResults: the hypotheses of each clause are met. -/
theorem wit_power_and_veer_event_results :
    (∃ (s : State), 20000 * (s.interval + 1) ≤ s.tick) ∧
    (∃ (s : State) (val : W64), s.fcapActed.map (·.1) ≠ some (val.extractLsb' 32 16).toNat) ∧
    (∃ (s : State) (core : Nat), (coreAt s core).paused = false ∧ coreIssues s core = true) ∧
    (∃ (s : State) (core : Nat), (((coreAt s core).paused = true ∨ coreIssues s core = false))) ∧
    (∃ (s : State) (gid : Nat) (g : Group), getG s gid = some g ∧ g.suspect = true ∧ ((g.trapDue.isSome = true ∨ ∀ c, g.phase ≠ .inClause c))) ∧
    (∃ (s : State) (stack : Nat) (heats hot lee : List Nat), s.vperiod ≠ 0 ∧ nth s.veerAt stack 0 < lastInstant s stack ∧ nth s.veers stack none = none ∧ chooseHot s stack heats = some hot ∧ chooseLee s stack heats hot = some lee ∧ hot ≠ lee ∧ 2 * s.mindiff ≤ unitHeat heats hot - unitHeat heats lee + (unitHeat heats lee - unitHeat heats hot)) ∧
    (∃ (s : State) (stack : Nat) (v : Veer), nth s.veers stack none = some v ∧ v.stage = .deferred ∧ (unitOk s v.hot && unitOk s v.lee) = false) ∧
    (∃ (s : State) (stack : Nat) (v : Veer), nth s.veers stack none = some v ∧ v.stage = .deferred ∧ unitOk s v.hot = true ∧ unitOk s v.lee = true ∧ ((heldBack s (v.hot ++ v.lee) = false ∨ v.instant + 200000 ≤ s.tick))) ∧
    (∃ (s : State) (stack : Nat) (v : Veer), nth s.veers stack none = some v ∧ v.stage = .stopping) ∧
    (∃ (s : State) (stack : Nat) (v : Veer), nth s.veers stack none = some v ∧ v.stage = .paused ∧ linesLand s (v.hot ++ v.lee) = false) ∧
    (∃ (s : State) (stack : Nat) (v : Veer), nth s.veers stack none = some v ∧ v.stage = .moved) :=
  ⟨⟨{ bs with tick := 20000 }, by decide +kernel⟩,
    ⟨bs, 2 ^ 32 + 700, by decide +kernel⟩,
    ⟨bs, 0, by decide +kernel⟩,
    ⟨modCore bs 0 (fun c => { c with paused := true }), 0, by decide +kernel⟩,
    ⟨wg { gp with phase := .header, suspect := true }, 0, { gp with phase := .header, suspect := true }, by decide +kernel, by decide, Or.inr (by intro c h; cases h)⟩,
    ⟨{ bs with tick := 50000000 }, 0, [400, 100], [0], [2], by decide +kernel⟩,
    ⟨{ (modCore bs 0 (fun c => { c with fenced := true })) with veers := [some ⟨0, [0], [2], .deferred⟩] }, 0, ⟨0, [0], [2], .deferred⟩, by decide +kernel⟩,
    ⟨{ bs with veers := [some ⟨0, [0], [2], .deferred⟩] }, 0, ⟨0, [0], [2], .deferred⟩, by decide +kernel⟩,
    ⟨{ bs with veers := [some ⟨0, [0], [2], .stopping⟩] }, 0, ⟨0, [0], [2], .stopping⟩, by decide +kernel⟩,
    ⟨{ bs with veers := [some ⟨0, [0], [2], .paused⟩] }, 0, ⟨0, [0], [2], .paused⟩, by decide +kernel⟩,
    ⟨{ bs with veers := [some ⟨0, [0], [2], .moved⟩] }, 0, ⟨0, [0], [2], .moved⟩, by decide +kernel⟩⟩

/-- Obligations.ElementArithmetic: the hypotheses of each clause are met. -/
theorem wit_element_arithmetic :
    (∃ (ty : Ty) (e : Nat), e < (tyElems ty).2) ∧
    (∃ (ty : Ty) (e : Nat), e < (tyElems ty).2 ∧ tySigned ty = true) ∧
    (∃ (ty : Ty) (e : Nat), e < (tyElems ty).2 ∧ tySigned ty = false) :=
  ⟨⟨.z32, 0, by decide +kernel⟩,
    ⟨.s32, 0, by decide +kernel⟩,
    ⟨.z32, 0, by decide +kernel⟩⟩

/-- Obligations.CarryArithmetic: its hypotheses are met. -/
theorem wit_carry_arithmetic :
    (∃ (w : Nat), (w = 32 ∨ w = 64)) :=
  ⟨32, by decide +kernel⟩

/-- Obligations.DivisionResults: the hypotheses of each clause are met. -/
theorem wit_division_results :
    (∃ (s : State) (g : Group) (c : Clause) (f : FormR), Issues s g c ∧ variant f = true ∧ frameFail g (laneOpds f (spAB f.ty (divLat f.ty))) = none ∧
      (lanesOf (effFirst s g f.gd)).filter (fun l => rdOpd (touchSrc (due s g) f (spAB f.ty (divLat f.ty))) f.b f.ty l % 2 ^ (tyElems f.ty).1 == 0) ≠ []) ∧
    (∃ (ty : Ty), ty ∈ [Ty.s32, Ty.z32, Ty.s64, Ty.z64]) :=
  ⟨⟨st, gp, cl, fr (.v 8) (.v 2) (.s 22) (.v 0) .z32 1 0, st_issues, by decide +kernel⟩,
    ⟨.z32, by decide +kernel⟩⟩

/-- Obligations.ShiftResults: the hypotheses of each clause are met. -/
theorem wit_shift_results :
    (∃ (w : Nat), w ∈ [8, 16, 32, 64]) ∧
    (∃ (f : Nat → Nat → Nat → Nat) (ty : Ty) (e : Nat), f ∈ [shlBits, shrBits, sarBits, rotBits] ∧ e < (tyElems ty).2) :=
  ⟨⟨32, by decide +kernel⟩,
    ⟨shlBits, .z32, 0, by simp [tyElems]⟩⟩

/-- Obligations.SubmissionTable: the hypotheses of each clause are met. -/
theorem wit_submission_table :
    (∃ (s : State) (bytes : List Byte), funcUp s 0 = true ∧ (partAt s 0).enable = true ∧ (bytes.length ≠ 64 ∨ (queueAt s 0 0).enable = false)) ∧
    (∀ p ∈ [(1, 255), (1, 256), (0, 0), (2 ^ 31, 0), (2, 0), (2 ^ 31 - 1, 0)], ∃ (s : State) (bytes : List Byte), funcUp s 0 = true ∧ (partAt s 0).enable = true ∧ bytes.length = 64 ∧ (queueAt s 0 0).enable = true ∧
      ((BitVec.ofNat 32 (cmdPkt bytes).seq - BitVec.ofNat 32 (queueAt s 0 0).last).toNat, (queueAt s 0 0).intake.length) = p) ∧
    (∃ (s : State) (part queue : Nat) (val : W64), funcUp s part = true ∧ (partAt s part).enable = true ∧ val.getLsbD 2 = true ∧ (queueAt s part queue).enable = false) :=
  ⟨⟨bs, [], by decide +kernel⟩,
    (by
      intro p hp
      simp only [List.mem_cons, List.not_mem_nil, or_false] at hp
      rcases hp with rfl | rfl | rfl | rfl | rfl | rfl
      · exact ⟨wq bs false false (List.replicate 255 []), raw 1 0 0 0 0, by decide +kernel⟩
      · exact ⟨wq bs false false (List.replicate 256 []), raw 1 0 0 0 0, by decide +kernel⟩
      · exact ⟨wq bs false false [], raw 0 0 0 0 0, by decide +kernel⟩
      · exact ⟨wq bs false false [], raw (2 ^ 31) 0 0 0 0, by decide +kernel⟩
      · exact ⟨wq bs false false [], raw 2 0 0 0 0, by decide +kernel⟩
      · exact ⟨wq bs false false [], raw (2 ^ 31 - 1) 0 0 0 0, by decide +kernel⟩),
    ⟨bs, 0, 0, 4, by decide +kernel⟩⟩

/-- Obligations.TicketClaims: the hypotheses of each clause are met. -/
theorem wit_ticket_claims :
    (∀ p ∈ [([3], 1, 1), ([], 0, 1), ([], 1, 1)], ∃ (s : State) (o : Op) (gr : Grid), getOp s 50 = some o ∧ o.kind = .tclaim 0 ∧ liveGrid s (agentPart s o.g) 0 = some gr ∧
      (coreAt s (agentCore s o.g)).fenced = false ∧ (coreAt s (agentCore s o.g)).agent.claim = none ∧ (gr.returned, gr.ticket, gr.lr.teams) = p ∧ gr.shares.contains (agentCore s o.g / Config.coresPerStack) = true) ∧
    (∃ (s : State) (op num : Nat) (o : Op), getOp s op = some o ∧ o.kind = .tclaim num ∧ (liveGrid s (agentPart s o.g) num = none ∨ (coreAt s (agentCore s o.g)).agent.claim.isSome = true)) :=
  ⟨(by
      intro p hp
      simp only [List.mem_cons, List.not_mem_nil, or_false] at hp
      rcases hp with rfl | rfl | rfl
      · exact ⟨wtc [3] 1, op1 (.tclaim 0) 2 (ln (.pool (scrKey 0 64)) .sent []), { grid0 with returned := [3], ticket := 1 }, by decide +kernel⟩
      · exact ⟨wtc [] 0, op1 (.tclaim 0) 2 (ln (.pool (scrKey 0 64)) .sent []), { grid0 with returned := [], ticket := 0 }, by decide +kernel⟩
      · exact ⟨wtc [] 1, op1 (.tclaim 0) 2 (ln (.pool (scrKey 0 64)) .sent []), { grid0 with returned := [], ticket := 1 }, by decide +kernel⟩),
    ⟨wo (op1 (.tclaim 7) 2 (ln (.pool (scrKey 0 64)) .sent [])), 50, 7, op1 (.tclaim 7) 2 (ln (.pool (scrKey 0 64)) .sent []), by decide +kernel⟩⟩
/-! ## Traps -/

/-- A store, an atomic and their parts through the pointers of ptrScalars. -/
def stF (a : Opd) : FormM := fm (.v 0) a (.v 8) .team .rlx 2 0
def atF (a : Opd) : FormM := fm (.v 8) a (.v 10) .team .rlx 2 0
/-- The group with a pointer in s2 that is 2 bytes past a word. -/
def gpMis : Group := { gp with scal := [0, 0, 258, 0x10000000] }

/-- Obligations.StoreFaultOrder: the hypotheses are met, and each clause is reached. -/
theorem wit_store_fault_order :
    (∃ s g c f cause addr, Issues s g c ∧ frameFail g [(f.a, 2), (f.b, regsOf (sizeBytes f)), (f.d, 0)] = none ∧ effFirst s g f.gd ≠ 0 ∧
      chkLanes (memFrom s g 0x61 f) (memAt s g 0x61 f 2 (regsOf (sizeBytes f))) f 2 (fun _ _ => false) (lanesOf (effFirst s g f.gd)) = .trap cause addr) ∧
    (∃ s g c f ats, Issues s g c ∧ frameFail g [(f.a, 2), (f.b, regsOf (sizeBytes f)), (f.d, 0)] = none ∧ effFirst s g f.gd ≠ 0 ∧
      chkLanes (memFrom s g 0x61 f) (memAt s g 0x61 f 2 (regsOf (sizeBytes f))) f 2 (fun _ _ => false) (lanesOf (effFirst s g f.gd)) = .go ats ∧
      (ats.find? (fun a => isLat a.loc)).isSome = true) ∧
    (∃ s g c f ats, Issues s g c ∧ frameFail g [(f.a, 2), (f.b, regsOf (sizeBytes f)), (f.d, regsOf (sizeBytes f))] = none ∧ effFirst s g f.gd ≠ 0 ∧
      chkLanes (memFrom s g 0x64 f) (memAt s g 0x64 f 2 (regsOf (sizeBytes f))) f 11 (fun l p => atomRefuse l p || isMcast l) (lanesOf (effFirst s g f.gd)) = .go ats ∧
      ats.all (fun a => !isLat a.loc) = true ∧ (ats.find? (fun a => ptrOff a.ptr % sizeBytes f != 0)).isSome = true) :=
  ⟨⟨bs, gp, cl, stF (.s 22), .capability, 2 ^ 32, st_base, by decide +kernel, by decide +kernel, by decide +kernel⟩,
    ⟨bs, gp, cl, stF (.s 10), goOf (chkLanes (memFrom bs gp 0x61 (stF (.s 10))) (memAt bs gp 0x61 (stF (.s 10)) 2 1) (stF (.s 10)) 2 (fun _ _ => false) (lanesOf (effFirst bs gp g0))),
      st_base, by decide +kernel⟩,
    ⟨wg gpMis, gpMis, cl, atF (.s 2), goOf (chkLanes (memFrom (wg gpMis) gpMis 0x64 (atF (.s 2))) (memAt (wg gpMis) gpMis 0x64 (atF (.s 2)) 2 1) (atF (.s 2)) 11
      (fun l p => atomRefuse l p || isMcast l) (lanesOf (effFirst (wg gpMis) gpMis g0))), withGroup_issues rfl rfl rfl rfl, by decide +kernel⟩⟩

/-- The group with handler 0 for every cause. -/
def gpT : Group := { gp with hMask := BitVec.allOnes 32, hEntry := 0, hShift := 0, cur := some (fib 8) }
/-- Obligations.TrapToSystem: its hypotheses are met. -/
theorem wit_trap_to_system : ∃ s g gr, getG s g.id = some g ∧ gridOf s g = some gr ∧ toUser s (landAll (gmOf s g)).g 0x05 0 = false :=
  ⟨bs, gp, grid0, by decide +kernel⟩
/-- Obligations.TrapToHandler and TrapThenReturn: their hypotheses are met. -/
theorem wit_trap_to_handler : ∃ s g f, getG s g.id = some g ∧ toUser s (landAll (gmOf s g)).g 0x05 0 = true ∧ g.cur = some f ∧ f.pred ≠ 0 ∧
    f.pred &&& g.exited = 0 ∧ f.pred &&& contLanes g = 0 :=
  ⟨wg gpT, gpT, fib 8, by decide +kernel⟩

/-! ## Steps -/

/-- The boot machine with a word as its next instruction, in a clause of class cls, its group g otherwise. -/
def sw (w cls : Nat) (g : Group) : State := withGroup (bootWith State.reset w) { g with phase := .inClause ⟨0, cls, 1, 0, false⟩ }

/-- Obligations.StepRunsDecoded: its hypotheses are met. -/
theorem wit_step_runs_decoded : ∃ s g c i, Standing s g c ∧ decode (wordAt s g c) = .ok i ∧ classCheck g c (opField (wordAt s g c).toNat) = none :=
  ⟨sw 0x0380500027910001 0 gp, _, ⟨0, 0, 1, 0, false⟩, _, ⟨rfl, rfl, rfl, rfl⟩, rfl, rfl⟩
/-- Obligations.IllegalWords: its hypotheses are met, for a word without a form and for an ill-formed word that its place admits. -/
theorem wit_illegal_words : (∃ w, 0x52 ≤ opField w ∧ opField w ≤ 0x5F) ∧ (∃ w, fld w 58 6 ≠ 63) ∧
    (∃ s g c e, Standing s g c ∧ decode (wordAt s g c) = .error e ∧ formatOf (opField (wordAt s g c).toNat) = none) ∧
    (∃ s g c e, Standing s g c ∧ decode (wordAt s g c) = .error e ∧ formatOf (opField (wordAt s g c).toNat) ≠ none ∧ classCheck g c (opField (wordAt s g c).toNat) = none) :=
  ⟨⟨0x52 * 2 ^ 55, by decide⟩, ⟨0, by decide⟩,
    ⟨sw (0x52 * 2 ^ 55) 0 gp, _, ⟨0, 0, 1, 0, false⟩, _, ⟨rfl, rfl, rfl, rfl⟩, rfl, rfl⟩,
    ⟨sw 1 0 gp, _, ⟨0, 0, 1, 0, false⟩, _, ⟨rfl, rfl, rfl, rfl⟩, rfl, by decide, rfl⟩⟩
/-- Obligations.SystemClassPlace: the hypotheses of each clause are met. -/
theorem wit_system_class_place :
    (∃ e g w h, codeOk e 0 = true ∧ headerOf w = some h ∧ h.cls = 5 ∧ h.rsv = 0 ∧ inAgentSlot g = false) ∧
    (∃ e g w r, inAgentSlot g = true ∧ headerCheck e g 0 w = some r) ∧
    (∃ s g f gr, getG s g.id = some g ∧ g.cur = some f ∧ gridOf s g = some gr ∧ mayStart s g = true ∧ (g.held = none ∨ g.hMode = true) ∧
      (let e := (codeEnt s (coreOf s g) gr).getD (objTable s gr.part (codeObj gr))
       let s1 := objCachePut s (coreOf s g) e
       codeHere s1 (coreOf s g) gr e f.pc 8 = true ∧ headerCheck e g f.pc (headerFetch s1 gr e f.pc 0).2 = some (.privilegedInstr, 0))) ∧
    (∀ b, ∃ s g c, Standing s g c ∧ fld (wordAt s g c).toNat 58 6 ≠ 63 ∧ 0x95 ≤ opField (wordAt s g c).toNat ∧ opField (wordAt s g c).toNat ≤ 0x98 ∧
      classOfOp (opField (wordAt s g c).toNat) = c.cls ∧ (clauseEnding (opField (wordAt s g c).toNat) = true → c.idx + 1 = c.cnt) ∧ inAgentSlot g = b) :=
  ⟨⟨obj0 (.g 0), gp, 63 * 2 ^ 58 + 5 * 2 ^ 55, _, by decide, rfl, by decide, by decide, by decide⟩,
    ⟨obj0 (.g 0), gpA, 0, _, by decide, rfl⟩,
    (by
      let g : Group := { gp with phase := .header, cur := some (fib 0) }
      let s : State := withGroup (bootWith State.reset (0xE0 * 2 ^ 55)) g
      exact ⟨s, g, fib 0, (gridOf s g).getD grid0, by decide +kernel⟩),
    (by
      intro b
      cases b
      · exact ⟨sw (0x95 * 2 ^ 55) 2 gp, _, ⟨0, 2, 1, 0, false⟩, ⟨rfl, rfl, rfl, rfl⟩, by decide +kernel⟩
      · exact ⟨sw (0x95 * 2 ^ 55) 2 gpA, _, ⟨0, 2, 1, 0, false⟩, ⟨rfl, rfl, rfl, rfl⟩, by decide +kernel⟩)⟩

/-! ## Frames and forms -/

/-- The guard of a mask that is 0. -/
def g1 : Guard := ⟨false, 1, false⟩
/-- Obligations.NoEffectiveLane: the hypotheses of each clause are met. -/
theorem wit_no_effective_lane : (∃ s g c, ∃ f : FormM, Issues s g c ∧ effFirst s g f.gd = 0) ∧ (∃ s g c, ∃ f : FormQ, Issues s g c ∧ effFirst s g f.gd = 0) ∧
    (∃ s g c, ∃ f : FormJ, Issues s g c ∧ effAt s g f.gd = 0) ∧ (∃ s g c, ∃ f : FormR, Issues s g c ∧ effAt s g f.gd = 0) ∧
    (∃ i s g c, ∃ f : FormR, laneForm i = some f ∧ Issues s g c ∧ 0 < g.width ∧ g.trapDue = none ∧ effAt s g f.gd = 0) :=
  ⟨⟨st, gp, cl, { stF (.s 2) with gd := g1 }, st_issues, by decide +kernel⟩,
    ⟨st, gp, cl, { fq (.v 8) (.s 4) .zero .grp 0 0 with gd := g1 }, st_issues, by decide +kernel⟩,
    ⟨st, gp, cl, { fj 0 0 0 false with gd := g1 }, st_issues, by decide +kernel⟩,
    ⟨st, gp, cl, { iaddF with gd := g1 }, st_issues, by decide +kernel⟩,
    ⟨.iadd { iaddF with gd := g1 }, st, gp, cl, { iaddF with gd := g1 }, rfl, st_issues, by decide +kernel⟩⟩
/-- Obligations.OperandForms: the hypotheses of its clauses are met. -/
theorem wit_operand_forms : (∃ x : GM, ∃ n l : Nat, n ≠ 0 ∧ n < x.g.masks.length ∧ l < 128) ∧ tyFloat .z32 = false := by
  exact ⟨⟨gmOf st gp, 1, 127, by decide⟩, rfl⟩
/-- Obligations.SpecialRegisterFields: the hypotheses of its clauses are met. -/
theorem wit_special_register_fields : (∃ g : Group, g.trec.cause < 64 ∧ g.trec.sub < 256) ∧
    (∃ (s : State) (g : Group), (partAt s (partOf s g)).thr.trans < 65536 ∧ (partAt s (partOf s g)).thr.ratio < 16 ∧ (partAt s (partOf s g)).thr.clock < 16 ∧
      (partAt s (partOf s g)).thr.cause < 8) :=
  ⟨⟨gpH, by decide⟩, ⟨bs, gp, by decide +kernel⟩⟩

theorem gp_set_ok : SetOk gp :=
  ⟨by decide, by decide, (by intro p hp; cases hp), by decide, by decide⟩
theorem gp_fresh (s : State) : CacheFresh (gmOf s gp) := by
  intro r l e h
  have h0 : ocEntOf gp r = none := rfl
  simp only [gmOf] at h
  rw [h0] at h
  cases h
/-- Obligations.EntrySetOperations: its hypotheses are met. -/
theorem wit_entry_set_operations : ∃ x : GM, SetOk x.g ∧ CacheFresh x ∧ Memory.wf x.m = true ∧ 0 < x.g.width :=
  ⟨gmOf bs gp, gp_set_ok, gp_fresh bs, by decide +kernel⟩

/-- The next state of an answer. -/
def nextOf (o : Out) : Option State := match o with
  | .next t => some t
  | _ => none
theorem next_of {o : Out} (d : State) (h : (nextOf o).isSome = true) : o = .next ((nextOf o).getD d) := by
  cases o with
  | next t => rfl
  | _ => cases h
/-- What the three frame statements ask for, met by an instruction. -/
def FrameMet (i : Instr) : Prop :=
  ∃ s t g h c, Issues s g c ∧ SetOk g ∧ CacheFresh (gmOf s g) ∧ Memory.wf s.mem = true ∧ exec i s = .next t ∧ Untrapped t g h
theorem frameMet {i : Instr} (h : (match nextOf (exec i bs) with
    | none => false
    | some t => decide (getG t 0 = some ((getG t 0).getD gp)) && decide (((getG t 0).getD gp).trapCount = gp.trapCount) &&
        decide ((gridOf t ((getG t 0).getD gp)).map Grid.killDue = some false)) = true) : FrameMet i := by
  split at h
  · cases h
  · rename_i t ht
    simp only [Bool.and_eq_true, decide_eq_true_eq] at h
    exact ⟨bs, t, gp, _, cl, st_base, gp_set_ok, gp_fresh bs, by decide +kernel, by
      have := next_of bs (o := exec i bs) (by rw [ht]; rfl)
      rwa [ht] at this, h.1.1, h.1.2, h.2⟩
/-- Obligations.LaneFrame, AccessFrame and TransferFrame: their hypotheses are met. -/
theorem wit_frames : FrameMet (.iadd iaddF) ∧ FrameMet (.fmul (fr (.v 8) (.v 2) (.v 4) (.v 0) .f32 0 0)) ∧ FrameMet (.st (stF (.s 2))) ∧
    FrameMet (.atom (atF (.s 2))) ∧ FrameMet (.ld (fm (.v 8) (.s 4) (.v 0) .grp .rlx 2 0)) ∧ FrameMet (.bra (fj 0 0 0 false)) ∧ FrameMet (.exit (fr (.v 0) (.v 0) (.v 0) (.v 0) .z32 0 0)) :=
  ⟨frameMet (by decide +kernel), frameMet (by decide +kernel), frameMet (by decide +kernel), frameMet (by decide +kernel), frameMet (by decide +kernel),
    frameMet (by decide +kernel), frameMet (by decide +kernel)⟩

/-- A store in flight to a place. -/
def opSt (l : Loc) (od : Order) (sc : Scope) : Op := { op1 .st 1 (ln l .sent [7]) with order := od, scope := sc }
/-- A written line of the team's L1. -/
def line1 : L1Line := { die := 2, inc := 1, key := .g 0 2, part := 0, ua := 4352, data := List.replicate 128 3, written := 2, pinned := false, filling := false, stamp := 0 }
/-- The base machine with a store in flight and that line in the team's L1. -/
def wl (s : State) (o : Op) : State := { s with ops := [o], ctxs := s.ctxs.map (fun c => { c with l1 := [line1] }) }
/-- What the clauses of StoreFrame about a performed store share. -/
def StoreMet (s : State) (o : Op) (x : LaneOp) : Prop :=
  getOp s o.id = some o ∧ getG s o.g = some gp ∧ o.kind = .st ∧ o.order ∈ [.rlx, .rel] ∧ o.size ∈ [1, 2, 4, 8, 16, 32] ∧ x.got = [] ∧ x.lane < 128 ∧
    o.lanes.find? (fun y => y.lane == x.lane) = some x ∧ orderFree s o x = true ∧ Memory.wf s.mem = true
/-- What its clauses about the unified range share. -/
def UniMet (s : State) (o : Op) (ua : Nat) (r : Reach) : Prop :=
  StoreMet s o (ln (.uni 0 ua) .sent [7]) ∧ laneReach s o (ln (.uni 0 ua) .sent [7]) = r ∧ (r = .ready ∨ r = .host) ∧
    (r = .host → linkUp s (partAt s (partOf s gp)).link = true) ∧ (r = .ready → l1Served s gp o (ln (.uni 0 ua) .sent [7]) = true ∨ staleAt s (opSrc s o) (.uni 0 ua) o.size = none) ∧
    replyStale s (opSrc s o) = false ∧ (∀ c ∈ s.ctxs, ∀ l ∈ c.l1, l.ua % 128 = 0 ∧ l.data.length = 128) ∧
    ((List.range 256).map (fun i => uniByteKey (partAt s 0) 0 (lineOf ua + i))).Nodup ∧ ((List.range o.size).map (fun i => uniByteKey (partAt s 0) 0 (ua + i))).Nodup
/-- Obligations.StoreFrame: the hypotheses of its first clause are met. -/
theorem wit_store_frame_issue : ∃ s g c f ats, Issues s g c ∧ frameFail g [(f.a, 2), (f.b, regsOf (sizeBytes f)), (f.d, 0)] = none ∧ effFirst s g f.gd ≠ 0 ∧
    s.ops.all (fun o => decide (o.id < s.nextId)) = true ∧ chkLanes (memFrom s g 0x61 f) (memAt s g 0x61 f 2 (regsOf (sizeBytes f))) f 2 (fun _ _ => false) (lanesOf (effFirst s g f.gd)) = .go ats ∧
    ats.all (fun a => !isLat a.loc) = true ∧ cntOf (memAt s g 0x61 f 2 (regsOf (sizeBytes f))).g 1 ≠ 63 :=
  ⟨bs, gp, cl, stF (.s 2), goOf (chkLanes (memFrom bs gp 0x61 (stF (.s 2))) (memAt bs gp 0x61 (stF (.s 2)) 2 1) (stF (.s 2)) 2 (fun _ _ => false) (lanesOf (effFirst bs gp g0))), st_base, by decide +kernel⟩
/-- The hypotheses of its clause about a pool are met, by a relaxed store and by a release. -/
theorem wit_store_frame_pool : (∃ s, StoreMet s (opSt (.pool (scrKey 0 64)) .rlx .grp) (ln (.pool (scrKey 0 64)) .sent [7])) ∧
    ∃ s, StoreMet s (opSt (.pool (scrKey 0 64)) .rel .dev) (ln (.pool (scrKey 0 64)) .sent [7]) := by
  unfold StoreMet
  exact ⟨⟨wo (opSt (.pool (scrKey 0 64)) .rlx .grp), by decide +kernel⟩, ⟨wl bs (opSt (.pool (scrKey 0 64)) .rel .dev), by decide +kernel⟩⟩
/-- Those of its clauses about the unified range, by a store to HBM with a written line in the L1 and by one to host memory. -/
theorem wit_store_frame_wide : (∃ s, UniMet s (opSt (.uni 0 4352) .rlx .dev) 4352 .ready) ∧ (∃ s, UniMet s (opSt (.uni 0 65536) .rlx .dev) 65536 .host) := by
  unfold UniMet StoreMet
  exact ⟨⟨wl bs (opSt (.uni 0 4352) .rlx .dev), by decide +kernel⟩, ⟨wl (wpage (.host 65536) none) (opSt (.uni 0 65536) .rlx .dev), by decide +kernel⟩⟩
theorem wit_store_frame_release : (∃ s, UniMet s (opSt (.uni 0 4352) .rel .sys) 4352 .ready) ∧ (∃ s, UniMet s (opSt (.uni 0 65536) .rel .sys) 65536 .host) := by
  unfold UniMet StoreMet
  exact ⟨⟨wl bs (opSt (.uni 0 4352) .rel .sys), by decide +kernel⟩, ⟨wl (wpage (.host 65536) none) (opSt (.uni 0 65536) .rel .sys), by decide +kernel⟩⟩
theorem wit_store_frame_group : (∃ s, UniMet s (opSt (.uni 0 4352) .rlx .grp) 4352 .ready) ∧ (∃ s, UniMet s (opSt (.uni 0 65536) .rel .grp) 65536 .host) := by
  unfold UniMet StoreMet
  exact ⟨⟨wl bs (opSt (.uni 0 4352) .rlx .grp), by decide +kernel⟩, ⟨wl (wpage (.host 65536) none) (opSt (.uni 0 65536) .rel .grp), by decide +kernel⟩⟩
/-- Those of its clause about the port, by a store to a peer and by one to a multicast object. -/
theorem wit_store_frame_port : (∃ s o x, getOp s o.id = some o ∧ getG s o.g = some gp ∧ o.kind = .st ∧ x.loc = .peer 1 0 256 ∧ isFabric x.loc = true ∧
      o.lanes.find? (fun y => y.lane == x.lane) = some x ∧ orderFree s o x = true) ∧
    (∃ s o x, getOp s o.id = some o ∧ getG s o.g = some gp ∧ o.kind = .st ∧ x.loc = .mcast 1 0 256 ∧ isFabric x.loc = true ∧
      o.lanes.find? (fun y => y.lane == x.lane) = some x ∧ orderFree s o x = true) :=
  ⟨⟨wo (opSt (.peer 1 0 256) .rel .fab), opSt (.peer 1 0 256) .rel .fab, ln (.peer 1 0 256) .sent [7], by decide +kernel⟩,
    ⟨wo (opSt (.mcast 1 0 256) .rlx .fab), opSt (.mcast 1 0 256) .rlx .fab, ln (.mcast 1 0 256) .sent [7], by decide +kernel⟩⟩

/-! ## Values -/

/-- Obligations.ObjectUpdate: its hypotheses are met. -/
theorem wit_object_update : (∃ o : Nat, o < 2 ^ 256) ∧ ∃ s : State, Memory.wf s.mem = true ∧ s.mem ≠ [] := ⟨⟨0, by decide⟩, bo, by decide +kernel⟩
/-- Obligations.LatticeJoins: the hypotheses of each clause are met; the last is a float cell that holds the one NaN a cell may hold. -/
theorem wit_lattice_joins : (∃ ty c x y, ty < 8 ∧ CellOk ty c ∧ CellOk ty x ∧ CellOk ty y) ∧
    (∃ (r : Region) (k i x : Nat), r.ty < 8 ∧ CellOk r.ty (cellRd r k i) ∧ CellOk r.ty x ∧ r.reps.any (fun p => p.stack == k) = true) ∧
    (∃ (r : Region) (k i : Nat), r.ty = 6 ∧ k < 8 ∧ CellOk 6 (cellRd r k i) ∧ r.reps.any (fun p => p.stack == k) = true) ∧
    CellOk 3 0x7FC00000 ∧ ∃ t : Nat, t < 2 ^ 64 ∧ latReached 1 (latValue 1 5) t = true := by
  unfold CellOk
  exact ⟨⟨3, 0x7FC00000, 0, 5, by decide +kernel⟩, ⟨region0, 0, 0, 5, by decide +kernel⟩, ⟨{ region0 with ty := 6 }, 0, 0, by decide +kernel⟩, by decide +kernel, 5, by decide +kernel⟩
/-- Obligations.FloatRounding: its hypothesis is met, by a value that rounds to a finite number and by one that overflows. -/
theorem wit_float_rounding : (∃ m : Nat, m ≠ 0 ∧ fdec .f16 (froundMag .f16 .rne false false m 0).1 = .fin false 1024 1) ∧
    (∃ m : Nat, m ≠ 0 ∧ fdec .f16 (froundMag .f16 .ru false false m 0).1 = .inf false) :=
  ⟨⟨2049, by decide +kernel⟩, ⟨2 ^ 17, by decide +kernel⟩⟩
/-- Obligations.DecodeEncodeAgree: the hypotheses of each clause are met. -/
theorem wit_decode_encode_agree : (∃ i w, WellFormed i ∧ encodeNat i = some w) ∧ (∃ w i, w < 2 ^ 64 ∧ decodeNat w = .ok i) :=
  ⟨⟨.iadd iaddF, _, by decide, rfl⟩, ⟨0x0380500027910001, _, by decide, rfl⟩⟩
/-- Obligations.StepKeepsMemCanonical: its hypotheses are met. -/
theorem wit_step_keeps_mem_canonical : ∃ s t, MemCanonical s ∧ step s = .next t :=
  ⟨sw 0 0 gp, _, by unfold MemCanonical; decide +kernel, rfl⟩
/-! ## Decoding: one word for each instruction, laid out by hand from the operand codes, type codes and formats of R62 to R73 and the opcodes of R75 -/

/-- SW set, the guard mask k5 negated. -/
def gq : Guard := ⟨true, 5, true⟩
theorem test_decode_lane_alu_1 :
    decodeNat 0x8000000000000000 = .ok (.nop ⟨⟨true, 0, false⟩, .v 0, .v 0, .v 0, .v 0, .b32, 0, 0, false, 0⟩) ∧
    decodeNat 0x80DC567000008900 = .ok (.mov ⟨gq, .v 138, .s 14, .v 0, .v 0, .s32, 0, 4, true, 0⟩) ∧
    decodeNat 0x815C508812345678 = .ok (.movi ⟨gq, .v 138, .s32, 0, true, 0, 0x12345678⟩) ∧
    decodeNat 0x81DC540812345678 = .ok (.movh ⟨gq, .v 138, .b64, 0, true, 0, 0x12345678⟩) ∧
    decodeNat 0x825C5672B7A88B00 = .ok (.sel ⟨gq, .v 138, .s 14, .v 86, .k 5, .s32, 0, 5, true, 0⟩) ∧
    decodeNat 0x82DC5672B0009900 = .ok (.iadd ⟨gq, .v 138, .s 14, .v 86, .v 0, .s32, 1, 4, true, 0⟩) ∧
    decodeNat 0x835C5672B0009900 = .ok (.isub ⟨gq, .v 138, .s 14, .v 86, .v 0, .s32, 1, 4, true, 0⟩) ∧
    decodeNat 0x83DC5672B7A90B01 = .ok (.iaddc ⟨gq, .v 138, .s 14, .v 86, .k 5, .z32, 0, 5, true, 1⟩) ∧
    decodeNat 0x845C5672B7A90B01 = .ok (.isubb ⟨gq, .v 138, .s 14, .v 86, .k 5, .z32, 0, 5, true, 1⟩) ∧
    decodeNat 0x84DC567000009900 = .ok (.ineg ⟨gq, .v 138, .s 14, .v 0, .v 0, .s32, 1, 4, true, 0⟩) ∧
    decodeNat 0x855C567000009900 = .ok (.iabs ⟨gq, .v 138, .s 14, .v 0, .v 0, .s32, 1, 4, true, 0⟩) ∧
    decodeNat 0x85DC5672B0008900 = .ok (.imin ⟨gq, .v 138, .s 14, .v 86, .v 0, .s32, 0, 4, true, 0⟩) := by
  refine ⟨?_, ?_, ?_, ?_, ?_, ?_, ?_, ?_, ?_, ?_, ?_, ?_⟩ <;> rfl

theorem test_decode_lane_alu_2 :
    decodeNat 0x865C5672B0008900 = .ok (.imax ⟨gq, .v 138, .s 14, .v 86, .v 0, .s32, 0, 4, true, 0⟩) ∧
    decodeNat 0x86DC5672B0008900 = .ok (.imul ⟨gq, .v 138, .s 14, .v 86, .v 0, .s32, 0, 4, true, 0⟩) ∧
    decodeNat 0x875C5672B0008900 = .ok (.imulh ⟨gq, .v 138, .s 14, .v 86, .v 0, .s32, 0, 4, true, 0⟩) ∧
    decodeNat 0x87DC5672B6F08B00 = .ok (.imad ⟨gq, .v 138, .s 14, .v 86, .s 30, .s32, 0, 5, true, 0⟩) ∧
    decodeNat 0x885C5672B6F08B00 = .ok (.imadw ⟨gq, .v 138, .s 14, .v 86, .s 30, .s32, 0, 5, true, 0⟩) ∧
    decodeNat 0x88DC5672B0009900 = .ok (.idiv ⟨gq, .v 138, .s 14, .v 86, .v 0, .s32, 1, 4, true, 0⟩) ∧
    decodeNat 0x895C5672B0009900 = .ok (.irem ⟨gq, .v 138, .s 14, .v 86, .v 0, .s32, 1, 4, true, 0⟩) ∧
    decodeNat 0x89DF9E72B0008903 = .ok (.icmp ⟨gq, .k 3, .s 14, .v 86, .v 0, .s32, 0, 4, true, 3⟩) ∧
    decodeNat 0x8A5C5672B0000900 = .ok (.and ⟨gq, .v 138, .s 14, .v 86, .v 0, .b32, 0, 4, true, 0⟩) ∧
    decodeNat 0x8ADC5672B0000900 = .ok (.or ⟨gq, .v 138, .s 14, .v 86, .v 0, .b32, 0, 4, true, 0⟩) ∧
    decodeNat 0x8B5C5672B0000900 = .ok (.xor ⟨gq, .v 138, .s 14, .v 86, .v 0, .b32, 0, 4, true, 0⟩) ∧
    decodeNat 0x8BDC567000000900 = .ok (.not ⟨gq, .v 138, .s 14, .v 0, .v 0, .b32, 0, 4, true, 0⟩) := by
  refine ⟨?_, ?_, ?_, ?_, ?_, ?_, ?_, ?_, ?_, ?_, ?_, ?_⟩ <;> rfl

theorem test_decode_lane_alu_3 :
    decodeNat 0x8C5C5672B0000900 = .ok (.andn ⟨gq, .v 138, .s 14, .v 86, .v 0, .b32, 0, 4, true, 0⟩) ∧
    decodeNat 0x8CDC5672B0008900 = .ok (.shl ⟨gq, .v 138, .s 14, .v 86, .v 0, .s32, 0, 4, true, 0⟩) ∧
    decodeNat 0x8D5C5672B0008900 = .ok (.shr ⟨gq, .v 138, .s 14, .v 86, .v 0, .s32, 0, 4, true, 0⟩) ∧
    decodeNat 0x8DDC5672B0008900 = .ok (.sar ⟨gq, .v 138, .s 14, .v 86, .v 0, .s32, 0, 4, true, 0⟩) ∧
    decodeNat 0x8E5C5672B0008900 = .ok (.rot ⟨gq, .v 138, .s 14, .v 86, .v 0, .s32, 0, 4, true, 0⟩) ∧
    decodeNat 0x8EDC5672B6F00B01 = .ok (.funnel ⟨gq, .v 138, .s 14, .v 86, .s 30, .b32, 0, 5, true, 1⟩) ∧
    decodeNat 0x8F5C5672B6F08B00 = .ok (.bfe ⟨gq, .v 138, .s 14, .v 86, .s 30, .s32, 0, 5, true, 0⟩) ∧
    decodeNat 0x8FDC5672B6F00B00 = .ok (.bfi ⟨gq, .v 138, .s 14, .v 86, .s 30, .b32, 0, 5, true, 0⟩) ∧
    decodeNat 0x905C567000000900 = .ok (.popc ⟨gq, .v 138, .s 14, .v 0, .v 0, .b32, 0, 4, true, 0⟩) ∧
    decodeNat 0x90DC567000000900 = .ok (.clz ⟨gq, .v 138, .s 14, .v 0, .v 0, .b32, 0, 4, true, 0⟩) ∧
    decodeNat 0x915C567000000900 = .ok (.ctz ⟨gq, .v 138, .s 14, .v 0, .v 0, .b32, 0, 4, true, 0⟩) ∧
    decodeNat 0x91DC567000000900 = .ok (.brev ⟨gq, .v 138, .s 14, .v 0, .v 0, .b32, 0, 4, true, 0⟩) := by
  refine ⟨?_, ?_, ?_, ?_, ?_, ?_, ?_, ?_, ?_, ?_, ?_, ?_⟩ <;> rfl

theorem test_decode_lane_alu_4 :
    decodeNat 0x925C5672B6F00B00 = .ok (.bperm ⟨gq, .v 138, .s 14, .v 86, .s 30, .b32, 0, 5, true, 0⟩) ∧
    decodeNat 0x92DC5672B0008903 = .ok (.lea ⟨gq, .v 138, .s 14, .v 86, .v 0, .s32, 0, 4, true, 3⟩) ∧
    decodeNat 0x935C5672B0040903 = .ok (.ptrmk ⟨gq, .v 138, .s 14, .v 86, .v 0, .b64, 0, 4, true, 3⟩) ∧
    decodeNat 0x93DC5672B0008900 = .ok (.ptradd ⟨gq, .v 138, .s 14, .v 86, .v 0, .s32, 0, 4, true, 0⟩) ∧
    decodeNat 0x945C567000038903 = .ok (.ptrget ⟨gq, .v 138, .s 14, .v 0, .v 0, .z64, 0, 4, true, 3⟩) ∧
    decodeNat 0x94DC5672B0008903 = .ok (.lshuf ⟨gq, .v 138, .s 14, .v 86, .v 0, .s32, 0, 4, true, 3⟩) ∧
    decodeNat 0x955C567000008901 = .ok (.lbcast ⟨gq, .v 138, .s 14, .v 0, .v 0, .s32, 0, 4, true, 1⟩) ∧
    decodeNat 0x95DC57B000000903 = .ok (.lvote ⟨gq, .v 138, .k 6, .v 0, .v 0, .b32, 0, 4, true, 3⟩) ∧
    decodeNat 0x965C567000000903 = .ok (.lscan ⟨gq, .v 138, .s 14, .v 0, .v 0, .b32, 0, 4, true, 3⟩) ∧
    decodeNat 0x96DC567000000903 = .ok (.lreduce ⟨gq, .v 138, .s 14, .v 0, .v 0, .b32, 0, 4, true, 3⟩) ∧
    decodeNat 0x975F9FB790000903 = .ok (.kop ⟨gq, .k 3, .k 6, .k 2, .v 0, .b32, 0, 4, true, 3⟩) ∧
    decodeNat 0x97DF9E7000000903 = .ok (.kmov ⟨gq, .k 3, .s 14, .v 0, .v 0, .b32, 0, 4, true, 3⟩) := by
  refine ⟨?_, ?_, ?_, ?_, ?_, ?_, ?_, ?_, ?_, ?_, ?_, ?_⟩ <;> rfl

theorem test_decode_float_unit_1 :
    decodeNat 0x985C5672B0026900 = .ok (.fadd ⟨gq, .v 138, .s 14, .v 86, .v 0, .f16, 6, 4, true, 0⟩) ∧
    decodeNat 0x98DC5672B0026900 = .ok (.fsub ⟨gq, .v 138, .s 14, .v 86, .v 0, .f16, 6, 4, true, 0⟩) ∧
    decodeNat 0x995C5672B0026900 = .ok (.fmul ⟨gq, .v 138, .s 14, .v 86, .v 0, .f16, 6, 4, true, 0⟩) ∧
    decodeNat 0x99DC5672B6F26B03 = .ok (.ffma ⟨gq, .v 138, .s 14, .v 86, .s 30, .f16, 6, 5, true, 3⟩) ∧
    decodeNat 0x9A5C5672B0024900 = .ok (.fmin ⟨gq, .v 138, .s 14, .v 86, .v 0, .f16, 4, 4, true, 0⟩) ∧
    decodeNat 0x9ADC5672B0024900 = .ok (.fmax ⟨gq, .v 138, .s 14, .v 86, .v 0, .f16, 4, 4, true, 0⟩) ∧
    decodeNat 0x9B5C5672B0024900 = .ok (.fminnum ⟨gq, .v 138, .s 14, .v 86, .v 0, .f16, 4, 4, true, 0⟩) ∧
    decodeNat 0x9BDC5672B0024900 = .ok (.fmaxnum ⟨gq, .v 138, .s 14, .v 86, .v 0, .f16, 4, 4, true, 0⟩) ∧
    decodeNat 0x9C5F9E72B0024903 = .ok (.fcmp ⟨gq, .k 3, .s 14, .v 86, .v 0, .f16, 4, 4, true, 3⟩) ∧
    decodeNat 0x9CDC567000024900 = .ok (.fclass ⟨gq, .v 138, .s 14, .v 0, .v 0, .f16, 4, 4, true, 0⟩) ∧
    decodeNat 0x9D5C567000026901 = .ok (.frnd ⟨gq, .v 138, .s 14, .v 0, .v 0, .f16, 6, 4, true, 1⟩) ∧
    decodeNat 0x9DDC567000024900 = .ok (.ffrac ⟨gq, .v 138, .s 14, .v 0, .v 0, .f16, 4, 4, true, 0⟩) := by
  refine ⟨?_, ?_, ?_, ?_, ?_, ?_, ?_, ?_, ?_, ?_, ?_, ?_⟩ <;> rfl

theorem test_decode_float_unit_2 :
    decodeNat 0x9E5C5672B0026900 = .ok (.fscale ⟨gq, .v 138, .s 14, .v 86, .v 0, .f16, 6, 4, true, 0⟩) ∧
    decodeNat 0x9EDC567000024900 = .ok (.fgetexp ⟨gq, .v 138, .s 14, .v 0, .v 0, .f16, 4, 4, true, 0⟩) ∧
    decodeNat 0x9F5C567000024900 = .ok (.frcp ⟨gq, .v 138, .s 14, .v 0, .v 0, .f16, 4, 4, true, 0⟩) ∧
    decodeNat 0x9FDC567000024900 = .ok (.frsq ⟨gq, .v 138, .s 14, .v 0, .v 0, .f16, 4, 4, true, 0⟩) ∧
    decodeNat 0xA05C567000026900 = .ok (.fsqrt ⟨gq, .v 138, .s 14, .v 0, .v 0, .f16, 6, 4, true, 0⟩) ∧
    decodeNat 0xA0DC5672B0026900 = .ok (.fdiv ⟨gq, .v 138, .s 14, .v 86, .v 0, .f16, 6, 4, true, 0⟩) ∧
    decodeNat 0xA15C567000024900 = .ok (.fexp2 ⟨gq, .v 138, .s 14, .v 0, .v 0, .f16, 4, 4, true, 0⟩) ∧
    decodeNat 0xA1DC567000024900 = .ok (.flog2 ⟨gq, .v 138, .s 14, .v 0, .v 0, .f16, 4, 4, true, 0⟩) ∧
    decodeNat 0xA25C567000024900 = .ok (.fsin ⟨gq, .v 138, .s 14, .v 0, .v 0, .f16, 4, 4, true, 0⟩) ∧
    decodeNat 0xA2DC567000024900 = .ok (.fcos ⟨gq, .v 138, .s 14, .v 0, .v 0, .f16, 4, 4, true, 0⟩) ∧
    decodeNat 0xA35C567000024900 = .ok (.ftanh ⟨gq, .v 138, .s 14, .v 0, .v 0, .f16, 4, 4, true, 0⟩) ∧
    decodeNat 0xA3DC567000024900 = .ok (.fsigm ⟨gq, .v 138, .s 14, .v 0, .v 0, .f16, 4, 4, true, 0⟩) := by
  refine ⟨?_, ?_, ?_, ?_, ?_, ?_, ?_, ?_, ?_, ?_, ?_, ?_⟩ <;> rfl

theorem test_decode_float_unit_3 :
    decodeNat 0xA45C567000026901 = .ok (.cvtf ⟨gq, .v 138, .s 14, .v 0, .v 0, .f16, 6, 4, true, 1⟩) ∧
    decodeNat 0xA4DC567000009901 = .ok (.cvti ⟨gq, .v 138, .s 14, .v 0, .v 0, .s32, 1, 4, true, 1⟩) ∧
    decodeNat 0xA55C56700000E901 = .ok (.cvtfi ⟨gq, .v 138, .s 14, .v 0, .v 0, .s32, 6, 4, true, 1⟩) ∧
    decodeNat 0xA5DC5672B6F24B03 = .ok (.fpack ⟨gq, .v 138, .s 14, .v 86, .s 30, .f16, 4, 5, true, 3⟩) ∧
    decodeNat 0xA65C567000026903 = .ok (.funpack ⟨gq, .v 138, .s 14, .v 0, .v 0, .f16, 6, 4, true, 3⟩) ∧
    decodeNat 0xA6DC567000024924 = .ok (.qnt ⟨gq, .v 138, .s 14, .v 0, .v 0, .f16, 4, 4, true, 36⟩) ∧
    decodeNat 0xA75C5677C0026903 = .ok (.dqnt ⟨gq, .v 138, .s 14, .zero, .v 0, .f16, 6, 4, true, 3⟩) ∧
    decodeNat 0xA7DC5672B6F4EB00 = .ok (.fdot2 ⟨gq, .v 138, .s 14, .v 86, .s 30, .f16x2, 6, 5, true, 0⟩) ∧
    decodeNat 0xA85C5672B6F06B03 = .ok (.fdot4 ⟨gq, .v 138, .s 14, .v 86, .s 30, .b32, 6, 5, true, 3⟩) ∧
    decodeNat 0xA8DC5672B6F06B09 = .ok (.fdot8 ⟨gq, .v 138, .s 14, .v 86, .s 30, .b32, 6, 5, true, 9⟩) := by
  refine ⟨?_, ?_, ?_, ?_, ?_, ?_, ?_, ?_, ?_, ?_⟩ <;> rfl

theorem test_decode_pool_engine_1 :
    decodeNat 0xB05C46700349DFFD = .ok (.ld ⟨gq, .v 136, .s 14, .v 0, .dev, .acq, 1, 3, 2, true, 4093⟩) ∧
    decodeNat 0xB0D80672C3A84FFD = .ok (.st ⟨gq, .v 0, .s 14, .v 88, .dev, .rel, 5, 0, 2, false, 4093⟩) ∧
    decodeNat 0xB15C46700309DFFD = .ok (.ldnp ⟨gq, .v 136, .s 14, .v 0, .dev, .rlx, 1, 3, 2, true, 4093⟩) ∧
    decodeNat 0xB1DC46700349DFFD = .ok (.ldb ⟨gq, .v 136, .s 14, .v 0, .dev, .acq, 1, 3, 2, true, 4093⟩) ∧
    decodeNat 0xB25C4672C3D9DFFD = .ok (.atom ⟨gq, .v 136, .s 14, .v 88, .dev, .ar, 3, 3, 2, true, 4093⟩) ∧
    decodeNat 0xB2DC4672C3D85FFD = .ok (.acas ⟨gq, .v 136, .s 14, .v 88, .dev, .ar, 3, 0, 2, true, 4093⟩) ∧
    decodeNat 0xB3580672C399CFFD = .ok (.red ⟨gq, .v 0, .s 14, .v 88, .dev, .rel, 3, 3, 2, false, 4093⟩) ∧
    decodeNat 0xB3D8000003C00000 = .ok (.fence ⟨gq, .v 0, .v 0, .v 0, .dev, .ar, 0, 0, 0, false, 0⟩) ∧
    decodeNat 0xB45C567000010901 = .ok (.pgrow ⟨gq, .v 138, .s 14, .v 0, .v 0, .z32, 0, 4, true, 1⟩) ∧
    decodeNat 0xB4DC567007A90B02 = .ok (.pshrink ⟨gq, .v 138, .s 14, .v 0, .k 5, .z32, 0, 5, true, 2⟩) ∧
    decodeNat 0xB55C567000010901 = .ok (.fgrow ⟨gq, .v 138, .s 14, .v 0, .v 0, .z32, 0, 4, true, 1⟩) ∧
    decodeNat 0xB5DC567007A90B02 = .ok (.fshrink ⟨gq, .v 138, .s 14, .v 0, .k 5, .z32, 0, 5, true, 2⟩) := by
  refine ⟨?_, ?_, ?_, ?_, ?_, ?_, ?_, ?_, ?_, ?_, ?_, ?_⟩ <;> rfl

theorem test_decode_pool_engine_2 :
    decodeNat 0xB658000000000803 = .ok (.ocfill ⟨gq, .v 0, .v 0, .v 0, .v 0, .b32, 0, 4, false, 3⟩) ∧
    decodeNat 0xB6D8000000000803 = .ok (.ocdrop ⟨gq, .v 0, .v 0, .v 0, .v 0, .b32, 0, 4, false, 3⟩) ∧
    decodeNat 0xB758000000000000 = .ok (.ocsync ⟨gq, .v 0, .v 0, .v 0, .v 0, .b32, 0, 0, false, 0⟩) ∧
    decodeNat 0xB7DF9E7000285FFD = .ok (.lpin ⟨gq, .k 3, .s 14, .v 0, .grp, .rlx, 5, 0, 2, true, 4093⟩) ∧
    decodeNat 0xB858067000284FFD = .ok (.lunpin ⟨gq, .v 0, .s 14, .v 0, .grp, .rlx, 5, 0, 2, false, 4093⟩) ∧
    decodeNat 0xB8D8067000284FFD = .ok (.linv ⟨gq, .v 0, .s 14, .v 0, .grp, .rlx, 5, 0, 2, false, 4093⟩) ∧
    decodeNat 0xB958067000284FFD = .ok (.lwb ⟨gq, .v 0, .s 14, .v 0, .grp, .rlx, 5, 0, 2, false, 4093⟩) ∧
    decodeNat 0xB9DC467000285FFD = .ok (.pres ⟨gq, .v 136, .s 14, .v 0, .grp, .rlx, 5, 0, 2, true, 4093⟩) ∧
    decodeNat 0xBA5C567000038901 = .ok (.objq ⟨gq, .v 138, .s 14, .v 0, .v 0, .z64, 0, 4, true, 1⟩) ∧
    decodeNat 0xBADF9E72B0040903 = .ok (.ptrchk ⟨gq, .k 3, .s 14, .v 86, .v 0, .b64, 0, 4, true, 3⟩) ∧
    decodeNat 0xBB580672C001CFFD = .ok (.advise ⟨gq, .v 0, .s 14, .v 88, .grp, .rlx, 0, 3, 2, false, 4093⟩) := by
  refine ⟨?_, ?_, ?_, ?_, ?_, ?_, ?_, ?_, ?_, ?_, ?_⟩ <;> rfl

theorem test_decode_sequencer_1 :
    decodeNat 0xC05FFFFFFFEC0000 = .ok (.bra ⟨gq, -3, 2, 0, false, 0, 0⟩) ∧
    decodeNat 0xC0DFFFFFFFED6000 = .ok (.brc ⟨gq, -3, 2, 5, true, 0, 0⟩) ∧
    decodeNat 0xC158067000010800 = .ok (.brx ⟨gq, .v 0, .s 14, .v 0, .v 0, .z32, 0, 4, false, 0⟩) ∧
    decodeNat 0xC1DFFFFFFFEC0000 = .ok (.call ⟨gq, -3, 2, 0, false, 0, 0⟩) ∧
    decodeNat 0xC258067000010803 = .ok (.callx ⟨gq, .v 0, .s 14, .v 0, .v 0, .z32, 0, 4, false, 3⟩) ∧
    decodeNat 0xC2D8000000000000 = .ok (.ret ⟨gq, .v 0, .v 0, .v 0, .v 0, .b32, 0, 0, false, 0⟩) ∧
    decodeNat 0xC35FFFFFFFEC18C0 = .ok (.loop ⟨gq, -3, 2, 0, false, 198, 0⟩) ∧
    decodeNat 0xC3DFFFFFFFE96000 = .ok (.fspawn ⟨gq, -3, 0, 5, true, 0, 0⟩) ∧
    decodeNat 0xC458000000000000 = .ok (.fend ⟨gq, .v 0, .v 0, .v 0, .v 0, .b32, 0, 0, false, 0⟩) ∧
    decodeNat 0xC4D8000000000000 = .ok (.fyield ⟨gq, .v 0, .v 0, .v 0, .v 0, .b32, 0, 0, false, 0⟩) ∧
    decodeNat 0xC558000000000000 = .ok (.exit ⟨gq, .v 0, .v 0, .v 0, .v 0, .b32, 0, 0, false, 0⟩) ∧
    decodeNat 0xC5D8067000010800 = .ok (.sleep ⟨gq, .v 0, .s 14, .v 0, .v 0, .z32, 0, 4, false, 0⟩) := by
  refine ⟨?_, ?_, ?_, ?_, ?_, ?_, ?_, ?_, ?_, ?_, ?_, ?_⟩ <;> rfl

theorem test_decode_sequencer_2 :
    decodeNat 0xC65C500000010103 = .ok (.gets ⟨gq, .v 138, .v 0, .v 0, .v 0, .z32, 0, 0, true, 3⟩) ∧
    decodeNat 0xC6D8067000010813 = .ok (.sets ⟨gq, .v 0, .s 14, .v 0, .v 0, .z32, 0, 4, false, 19⟩) := by
  refine ⟨?_, ?_⟩ <;> rfl

theorem test_decode_trap_unit :
    decodeNat 0xC858000000000003 = .ok (.trap ⟨gq, .v 0, .v 0, .v 0, .v 0, .b32, 0, 0, false, 3⟩) ∧
    decodeNat 0xC8D8000000000001 = .ok (.tret ⟨gq, .v 0, .v 0, .v 0, .v 0, .b32, 0, 0, false, 1⟩) ∧
    decodeNat 0xC9580672B0010803 = .ok (.tmask ⟨gq, .v 0, .s 14, .v 86, .v 0, .z32, 0, 4, false, 3⟩) ∧
    decodeNat 0xC9DC500000040103 = .ok (.tinfo ⟨gq, .v 138, .v 0, .v 0, .v 0, .b64, 0, 0, true, 3⟩) ∧
    decodeNat 0xCA58067000008803 = .ok (.tsub ⟨gq, .v 0, .s 14, .v 0, .v 0, .s32, 0, 4, false, 3⟩) ∧
    decodeNat 0xCADC567000010900 = .ok (.ctxsave ⟨gq, .v 138, .s 14, .v 0, .v 0, .z32, 0, 4, true, 0⟩) ∧
    decodeNat 0xCB5C567000010900 = .ok (.ctxload ⟨gq, .v 138, .s 14, .v 0, .v 0, .z32, 0, 4, true, 0⟩) ∧
    decodeNat 0xCBD8000000000001 = .ok (.halt ⟨gq, .v 0, .v 0, .v 0, .v 0, .b32, 0, 0, false, 1⟩) ∧
    decodeNat 0xCC5C567000010901 = .ok (.preq ⟨gq, .v 138, .s 14, .v 0, .v 0, .z32, 0, 4, true, 1⟩) := by
  refine ⟨?_, ?_, ?_, ?_, ?_, ?_, ?_, ?_, ?_⟩ <;> rfl

theorem test_decode_barrier_unit :
    decodeNat 0xD0580672C0284FFD = .ok (.binit ⟨gq, .v 0, .s 14, .v 88, .grp, .rlx, 5, 0, 2, false, 4093⟩) ∧
    decodeNat 0xD0DC467003A8DFFD = .ok (.barv ⟨gq, .v 136, .s 14, .v 0, .dev, .rel, 5, 1, 2, true, 4093⟩) ∧
    decodeNat 0xD15C4672C3A9DFFD = .ok (.bexp ⟨gq, .v 136, .s 14, .v 88, .dev, .rel, 5, 3, 2, true, 4093⟩) ∧
    decodeNat 0xD1DC4672C3285FFD = .ok (.bwait ⟨gq, .v 136, .s 14, .v 88, .dev, .rlx, 5, 0, 2, true, 4093⟩) ∧
    decodeNat 0xD25FFFFFFFE838C0 = .ok (.bcont ⟨gq, -3, 0, 0, true, 198, 0⟩) ∧
    decodeNat 0xD2DC4672C3185FFD = .ok (.await ⟨gq, .v 136, .s 14, .v 88, .dev, .rlx, 3, 0, 2, true, 4093⟩) ∧
    decodeNat 0xD358067000284FFD = .ok (.watch ⟨gq, .v 0, .s 14, .v 0, .grp, .rlx, 5, 0, 2, false, 4093⟩) ∧
    decodeNat 0xD3DC567000010900 = .ok (.pause ⟨gq, .v 138, .s 14, .v 0, .v 0, .z32, 0, 4, true, 0⟩) ∧
    decodeNat 0xD458000000000000 = .ok (.tbar ⟨gq, .v 0, .v 0, .v 0, .v 0, .b32, 0, 0, false, 0⟩) ∧
    decodeNat 0xD4D8000000000000 = .ok (.sbar ⟨gq, .v 0, .v 0, .v 0, .v 0, .b32, 0, 0, false, 0⟩) ∧
    decodeNat 0xD558000000000000 = .ok (.gbar ⟨gq, .v 0, .v 0, .v 0, .v 0, .b32, 0, 0, false, 0⟩) := by
  refine ⟨?_, ?_, ?_, ?_, ?_, ?_, ?_, ?_, ?_, ?_, ?_⟩ <;> rfl

theorem test_decode_streamer :
    decodeNat 0xD85C4672C0180D00 = .ok (.cpy ⟨gq, .v 136, .s 14, .v 88, 0, .dev, 1, 2, true, 0⟩) ∧
    decodeNat 0xD8DC4672C0180500 = .ok (.gath ⟨gq, .v 136, .s 14, .v 88, 0, .dev, 0, 2, true, 0⟩) ∧
    decodeNat 0xD95C4672C0180500 = .ok (.scat ⟨gq, .v 136, .s 14, .v 88, 0, .dev, 0, 2, true, 0⟩) ∧
    decodeNat 0xD9DC4672C0180D00 = .ok (.cfill ⟨gq, .v 136, .s 14, .v 88, 0, .dev, 1, 2, true, 0⟩) := by
  refine ⟨?_, ?_, ?_, ?_⟩ <;> rfl

theorem test_decode_matrix_engine :
    decodeNat 0xDC5C467000001D00 = .ok (.orsv ⟨gq, .v 136, .s 14, .v 0, 0, .grp, 3, 2, true, 0⟩) ∧
    decodeNat 0xDCDC467000000500 = .ok (.orel ⟨gq, .v 136, .s 14, .v 0, 0, .grp, 0, 2, true, 0⟩) ∧
    decodeNat 0xDD5C400000001900 = .ok (.oqry ⟨gq, .v 136, .v 0, .v 0, 0, .grp, 3, 0, true, 0⟩) ∧
    decodeNat 0xDDDC4672C0000500 = .ok (.mma ⟨gq, .v 136, .s 14, .v 88, 0, .grp, 0, 2, true, 0⟩) ∧
    decodeNat 0xDE58067000000403 = .ok (.azero ⟨gq, .v 0, .s 14, .v 0, 0, .grp, 0, 2, false, 3⟩) ∧
    decodeNat 0xDEDC467000000503 = .ok (.amov ⟨gq, .v 136, .s 14, .v 0, 0, .grp, 0, 2, true, 3⟩) ∧
    decodeNat 0xDF580672C0000403 = .ok (.ains ⟨gq, .v 0, .s 14, .v 88, 0, .grp, 0, 2, false, 3⟩) ∧
    decodeNat 0xDFDC4672C0000500 = .ok (.adrain ⟨gq, .v 136, .s 14, .v 88, 0, .grp, 0, 2, true, 0⟩) := by
  refine ⟨?_, ?_, ?_, ?_, ?_, ?_, ?_, ?_⟩ <;> rfl

theorem test_decode_lattice_engine :
    decodeNat 0xE45C4672C0185FFD = .ok (.jst ⟨gq, .v 136, .s 14, .v 88, .grp, .rlx, 3, 0, 2, true, 4093⟩) ∧
    decodeNat 0xE4DC4672C0185FFD = .ok (.jld ⟨gq, .v 136, .s 14, .v 88, .grp, .rlx, 3, 0, 2, true, 4093⟩) ∧
    decodeNat 0xE55C467000185FFD = .ok (.jldn ⟨gq, .v 136, .s 14, .v 0, .grp, .rlx, 3, 0, 2, true, 4093⟩) ∧
    decodeNat 0xE5DC4672C0185FFD = .ok (.jadd ⟨gq, .v 136, .s 14, .v 88, .grp, .rlx, 3, 0, 2, true, 4093⟩) ∧
    decodeNat 0xE65C467000000500 = .ok (.jtrade ⟨gq, .v 136, .s 14, .v 0, 0, .grp, 0, 2, true, 0⟩) ∧
    decodeNat 0xE6DC467000001D00 = .ok (.jqry ⟨gq, .v 136, .s 14, .v 0, 0, .grp, 3, 2, true, 0⟩) := by
  refine ⟨?_, ?_, ?_, ?_, ?_, ?_⟩ <;> rfl

theorem test_decode_fabric_engine :
    decodeNat 0xE85C4672C0200500 = .ok (.coll ⟨gq, .v 136, .s 14, .v 88, 0, .fab, 0, 2, true, 0⟩) ∧
    decodeNat 0xE8DC467004805000 = .ok (.xfence ⟨gq, .v 136, .s 14, .v 0, .fab, .rel, 0, 0, 2, true, 0⟩) ∧
    decodeNat 0xE95C467000001D00 = .ok (.xqry ⟨gq, .v 136, .s 14, .v 0, 0, .grp, 3, 2, true, 0⟩) := by
  refine ⟨?_, ?_, ?_⟩ <;> rfl

theorem test_decode_power :
    decodeNat 0xEC5C500000010103 = .ok (.pwrq ⟨gq, .v 138, .v 0, .v 0, .v 0, .z32, 0, 0, true, 3⟩) ∧
    decodeNat 0xECD8000000000001 = .ok (.pwrarm ⟨gq, .v 0, .v 0, .v 0, .v 0, .b32, 0, 0, false, 1⟩) ∧
    decodeNat 0xED5C567000010900 = .ok (.veerhold ⟨gq, .v 138, .s 14, .v 0, .v 0, .z32, 0, 4, true, 0⟩) := by
  refine ⟨?_, ?_, ?_⟩ <;> rfl

theorem test_decode_agent :
    decodeNat 0xF05C567000010900 = .ok (.tclaim ⟨gq, .v 138, .s 14, .v 0, .v 0, .z32, 0, 4, true, 0⟩) ∧
    decodeNat 0xF0DC5672B0010901 = .ok (.tplace ⟨gq, .v 138, .s 14, .v 86, .v 0, .z32, 0, 4, true, 1⟩) ∧
    decodeNat 0xF15C567000010900 = .ok (.gdec ⟨gq, .v 138, .s 14, .v 0, .v 0, .z32, 0, 4, true, 0⟩) ∧
    decodeNat 0xF1DC567000010900 = .ok (.qtake ⟨gq, .v 138, .s 14, .v 0, .v 0, .z32, 0, 4, true, 0⟩) ∧
    decodeNat 0xF25C5672B0010900 = .ok (.qack ⟨gq, .v 138, .s 14, .v 86, .v 0, .z32, 0, 4, true, 0⟩) := by
  refine ⟨?_, ?_, ?_, ?_, ?_⟩ <;> rfl
/-! ## Ill-formed terms: one for each check, refused -/

/-- Whether a term is refused. -/
def no (i : Instr) : Bool := !legal i
theorem test_legal_base : (legal (.iadd iaddF) && legal (.st (stF (.s 2))) && legal (.bra (fj 5 0 0 false)) && legal (.cpy (fq .zero (.s 4) .zero .team 0 0)) && legal (.movi (fi (.v 8) .z32 5))) = true := by decide
/-- Format R: an operand, a mark or a field that the form does not use, or one outside what it accepts. -/
theorem test_ill_formed_r : (no (.iadd { iaddF with c := .v 1 }) && no (.iadd { iaddF with lu := 1 }) && no (.iadd { iaddF with ty := .f32 }) && no (.iadd { iaddF with mod := 2 }) &&
    no (.iadd { iaddF with ext := 1 }) && no (.iadd { iaddF with a := .k 1 }) && no (.iadd { iaddF with d := .one }) && no (.iadd { iaddF with b := .half }) &&
    no (.iadd { iaddF with ty := .z64, a := .v 3 }) && no (.iadd { iaddF with ty := .z64, d := .s 5 }) && no (.iadd { iaddF with ty := .b32, mod := 1 }) &&
    no (.nop { iaddF with a := .v 0, b := .v 0 }) && no (.nop (fr (.v 0) (.v 0) (.v 0) (.v 0) .z32 0 0)) && no (.nop { fr (.v 0) (.v 0) (.v 0) (.v 0) .b32 0 0 with sn := true })) = true := by decide
/-- The modes and extensions of the lane ALU. -/
theorem test_ill_formed_lane_alu : (no (.icmp (fr (.k 1) (.v 0) (.v 4) (.v 0) .z32 0 6)) && no (.icmp (fr (.v 8) (.v 0) (.v 4) (.v 0) .z32 0 0)) && no (.sel (fr (.v 8) (.v 0) (.v 4) (.v 6) .z32 0 0)) &&
    no (.lshuf (fr (.v 8) (.v 0) (.v 4) (.v 0) .z32 0 8)) && no (.lscan (fr (.v 8) (.v 0) (.v 0) (.v 0) .z32 0 3)) && no (.lreduce (fr (.v 8) (.v 0) (.v 0) (.v 0) .z32 0 8)) &&
    no (.lvote (fr (.k 1) (.k 2) (.v 0) (.v 0) .b32 0 4)) && no (.kmov (fr (.k 1) (.k 2) (.v 0) (.v 0) .b32 0 5)) && no (.kop (fr (.k 1) (.k 2) (.k 3) (.v 0) .b32 0 16)) &&
    no (.movi { fi (.v 8) .f16 0x10000 with sn := false }) && no (.movi { fi (.v 8) .z32 5 with rsv := 1 }) && no (.movh (fi (.v 9) .b64 5)) && no (.ptrmk (fr (.v 8) (.v 2) (.v 4) (.v 0) .b64 0 11)) &&
    no (.idiv (fr (.v 8) (.v 0) (.v 4) (.v 0) .z32 2 0)) && no (.lea (fr (.v 8) (.v 2) (.v 4) (.v 0) .z32 0 8))) = true := by decide
/-- The formats and positions of the float unit. -/
theorem test_ill_formed_float_unit : (no (.fadd (fr (.v 8) (.v 2) (.v 4) (.v 0) .z32 0 0)) && no (.fmin (fr (.v 8) (.v 2) (.v 4) (.v 0) .f32 1 0)) && no (.fcmp (fr (.k 1) (.v 2) (.v 4) (.v 0) .f32 0 0x18)) &&
    no (.cvtf (fr (.v 8) (.v 2) (.v 0) (.v 0) .f32 0 3)) && no (.cvtf (fr (.v 8) (.v 2) (.v 0) (.v 0) .f32 1 0x20)) && no (.fpack (fr (.v 8) (.v 2) (.v 4) (.v 6) .f32 0 5)) &&
    no (.fpack (fr (.v 8) (.v 2) (.v 4) (.v 6) .f32 0 0x43)) && no (.funpack (fr (.v 8) (.v 2) (.v 0) (.v 0) .f32 0 0x41)) && no (.funpack (fr (.v 8) (.v 2) (.v 0) (.v 0) .s32 0 3)) &&
    no (.qnt (fr (.v 9) (.v 2) (.v 0) (.v 0) .f32 0 0x24)) && no (.dqnt (fr (.v 8) (.v 2) (.v 4) (.v 0) .f32 0 4)) && no (.fdot4 (fr (.v 8) (.v 2) (.v 4) (.v 6) .b32 0 5))) = true := by decide
/-- Format M: ORDER, SCOPE, SIZE, SUB, OFF and register alignment. -/
theorem test_ill_formed_m : (no (.st { stF (.s 2) with order := .acq }) && no (.st { stF (.s 2) with size := 6 }) && no (.st { stF (.s 2) with sub := 1 }) && no (.st { stF (.s 2) with d := .v 1 }) &&
    no (.st (stF (.s 3))) && no (.st (stF (.v 3))) && no (.st { stF (.s 2) with size := 4, b := .v 10 }) && no (.ld { fm (.v 8) (.s 2) (.v 0) .grp .rlx 2 1 with off := 0 }) &&
    no (.atom { atF (.s 2) with size := 1 }) && no (.atom { atF (.s 2) with sub := 12 }) && no (.red { fm (.v 0) (.s 2) (.v 8) .grp .rlx 2 8 with off := 0 }) && no (.fence (fm (.v 0) (.v 0) (.v 0) .grp .rlx 0 0)) &&
    no (.fence { fm (.v 0) (.v 0) (.v 0) .grp .acq 0 0 with off := 1 }) && no (.lpin (fm (.k 1) (.s 2) (.v 0) .dev .rlx 2 0)) && no (.xfence (fm (.v 8) .zero (.v 0) .grp .rel 0 0))) = true := by decide
/-- Formats J and Q, and registers that GETS, SETS and TINFO name. -/
theorem test_ill_formed_jq : (no (.bra (fj 5 3 0 false)) && no (.bra (fj 5 0 0 true)) && no (.bra (fj 5 0 1 false)) && no (.bra { fj 5 0 0 false with rsv := 1 }) && no (.loop (fj 5 0 3 false)) &&
    no (.bcont (fj 5 0 0xC3 true)) && no (.bcont (fj 5 0 0xF8 true)) && no (.cpy { fq .zero (.s 4) .zero .team 0 0 with fmt := 1 }) && no (.cpy (fq .zero (.s 5) .zero .team 0 0)) && no (.cpy (fq .zero (.s 4) .zero .team 0 1)) &&
    no (.coll (fq .zero (.s 4) .zero .team 0 0)) && no (.gets (fr (.v 8) (.v 0) (.v 0) (.v 0) .z32 0 0x1A)) && no (.gets (fr (.v 9) (.v 0) (.v 0) (.v 0) .z64 0 0x14)) && no (.gets (fr (.v 8) (.v 0) (.v 0) (.v 0) .z32 0 0x0C)) &&
    no (.sets (fr (.v 0) (.v 8) (.v 0) (.v 0) .z32 0 0x11)) && no (.tinfo (fr (.v 8) (.v 0) (.v 0) (.v 0) .z32 0 8))) = true := by decide
/-- Words refused by name: a header, an opcode without a row, type code 15, scope 6, operand code 0xFF. -/
theorem test_decode_refuses : (∃ e, decodeNat (63 * 2 ^ 58) = .error e) ∧ (∃ e, decodeNat (0x52 * 2 ^ 55) = .error e) ∧ (∃ e, decodeNat (0x05 * 2 ^ 55 + 15 * 2 ^ 15) = .error e) ∧
    (∃ e, decodeNat (0x60 * 2 ^ 55 + 0xC2 * 2 ^ 35 + 6 * 2 ^ 24) = .error e) ∧ (∃ e, decodeNat (0x05 * 2 ^ 55 + 0xFF * 2 ^ 35 + 2 * 2 ^ 15) = .error e) :=
  ⟨⟨_, rfl⟩, ⟨_, rfl⟩, ⟨_, rfl⟩, ⟨_, rfl⟩, ⟨_, rfl⟩⟩
/-! ## Values of the spec's worked examples -/

/-- The inputs of the worked block: 10.0, -7.0, 3.0, 2.4, 1.0, -0.6, 0.2 and zeros (03_numbers, one input block, two encodings). -/
def blkIn : List FVal := ([0x41200000, 0xC0E00000, 0x40400000, 0x4019999A, 0x3F800000, 0xBF19999A, 0x3E4CCCCD] ++ List.replicate 9 0).map (fdec .f32)
/-- Its E2M1 encoding: scale 0x80, codes, the flags inexact and underflow. -/
theorem test_block_e2m1 : (encBlock 0x27 blkIn).1 = 0x80 ∧ (encBlock 0x27 blkIn).2.1.map (·.1) = [6, 0xE, 3, 2, 1, 9, 0] ++ List.replicate 9 0 ∧
    (encBlock 0x27 blkIn).2.1.foldl (fun a x => a ||| x.2) (encBlock 0x27 blkIn).2.2 = (fUF ||| fIX) := by decide +kernel
/-- Its Q4 encoding: exponent 0x82 and the mantissas. -/
theorem test_block_q4 : (encBlock 0x32 blkIn).1 = 0x82 ∧ (encBlock 0x32 blkIn).2.1.map (·.1) = [5, 0xC, 2, 1] ++ List.replicate 12 0 ∧
    (encBlock 0x32 blkIn).2.1.foldl (fun a x => a ||| x.2) (encBlock 0x32 blkIn).2.2 = (fUF ||| fIX) := by decide +kernel
/-- The worked FP6 run of 16 elements: two planes, P = 128 (R108). -/
theorem test_fp6_planes : ((fmEnc (.nf 3 2) (fdec .f32 0x40400000)).1, (fmEnc (.nf 3 2) (fdec .f32 0xBF000000)).1) = (0x12, 0x28) ∧
    runOfElems (.nf 3 2) ([0x12, 0x28] ++ List.replicate 14 0) = [(0, 0x82), (1, 0), (2, 0), (3, 0), (4, 0), (5, 0), (6, 0), (7, 0), (128, 9), (129, 0), (130, 0), (131, 0)] := by decide +kernel
/-- The worked E4M3 block: 300, -1 and 0.01 (06_float_unit). -/
theorem test_block_e4m3 : (encBlock 0x24 (([0x43960000, 0xBF800000, 0x3C23D70A] ++ List.replicate 13 0).map (fdec .f32))).1 = 0x7F ∧
    ((encBlock 0x24 (([0x43960000, 0xBF800000, 0x3C23D70A] ++ List.replicate 13 0).map (fdec .f32))).2.1.map (·.1)).take 4 = [0x79, 0xB8, 5, 0] := by decide +kernel
/-- The worked carry chain: 0xFFFFFFF0 + 0x20, then 1 + 2 + 1 (05_lane_alu). -/
theorem test_carry_chain : addCarry 32 0xFFFFFFF0 0x20 false = (0x10, true) ∧ addCarry 32 1 2 true = (4, false) := by decide
/-- The worked barrier object: EXPA 3; a BEXP of 8192 bytes with an arrival, two arrivals, then two credits of 4096, the second with the error mark (10_barrier_unit). -/
theorem test_barrier_example : (([⟨true, 8192, 0, false, 0, false⟩, ⟨true, 0, 0, false, 0, false⟩, ⟨true, 0, 0, false, 0, false⟩, ⟨false, 0, 4096, false, 0, false⟩,
    ⟨false, 0, 4096, true, 0, false⟩] : List UpdItem).foldl (fun o u => (objApply o u).1) (3 * 2 ^ 32 + 3 * 2 ^ 48 + 2 ^ 178)) = 1 + 3 * 2 ^ 32 + 3 * 2 ^ 48 + 5 * 2 ^ 176 := by decide +kernel
/-- The worked all-reduce: 2^24, 1, 1 and -2^24 sum to +0 in rank order (14_fabric_engine). -/
theorem test_all_reduce_order : collRed 3 0 [0x4B800000, 0x3F800000, 0x3F800000, 0xCB800000] = 0 := by decide +kernel
/-- The first IADDC of the worked chain runs from the machine set up to run it: its writes land at position 4. -/
theorem test_exec_iaddc : (match exec (.iaddc ⟨g0, .v 10, .v 0, .v 4, .k 2, .z32, 0, 0, false, 1⟩) st with
    | .next t => (getG t 0).map (fun h => h.pend.map Pend.at')
    | _ => none) = some [4, 4] := by decide +kernel

end Sys2Proof.Tests
end

section
/-! SUPPORT. Every step keeps memory canonical. For each function of the machine that answers a state, a group with its memory, or an
outcome, one lemma says that it leaves memory as it is (`f_mem`, `f_m`) or that it keeps memory in canonical form (`f_wf`), in the order
of the model's files; then exec, the part's own steps, and step itself. -/

namespace Sys2Proof.Machine

/-- What a step answers, where it answers a state, has its memory in canonical form. -/
def OutWf : Out → Prop
  | .next t => t.mem.wf = true
  | .fault _ | .refused _ => True

@[simp] theorem outWf_next (t : State) : OutWf (.next t) ↔ t.mem.wf = true := Iff.rfl

/-! ### Choices and folds -/

@[simp] theorem ite_mem (p : Prop) [Decidable p] (s t : State) : (if p then s else t).mem = if p then s.mem else t.mem :=
  apply_ite State.mem p s t

@[simp] theorem ite_m (p : Prop) [Decidable p] (x y : GM) : (if p then x else y).m = if p then x.m else y.m :=
  apply_ite GM.m p x y

@[simp] theorem ite_wf (p : Prop) [Decidable p] {m n : Memory} (hm : m.wf = true) (hn : n.wf = true) :
    (if p then m else n).wf = true := by
  split
  · exact hm
  · exact hn

@[simp] theorem ite_outWf (p : Prop) [Decidable p] {o r : Out} (ho : OutWf o) (hr : OutWf r) : OutWf (if p then o else r) := by
  split
  · exact ho
  · exact hr

@[simp] theorem foldl_state_mem {α : Type} {f : State → α → State} (hf : ∀ s a, (f s a).mem = s.mem) (l : List α) (s : State) :
    (l.foldl f s).mem = s.mem :=
  List.foldlRecOn l f (motive := fun t => t.mem = s.mem) rfl (fun t ht a _ => (hf t a).trans ht)

@[simp] theorem foldl_state_wf {α : Type} {f : State → α → State} (hf : ∀ s a, s.mem.wf = true → (f s a).mem.wf = true)
    (l : List α) {s : State} (h : s.mem.wf = true) : (l.foldl f s).mem.wf = true :=
  List.foldlRecOn l f h (fun s hs a _ => hf s a hs)

@[simp] theorem foldl_gm_m {α : Type} {f : GM → α → GM} (hf : ∀ x a, (f x a).m = x.m) (l : List α) (x : GM) :
    (l.foldl f x).m = x.m :=
  List.foldlRecOn l f (motive := fun y => y.m = x.m) rfl (fun y hy a _ => (hf y a).trans hy)

@[simp] theorem foldl_pair_mem {α β : Type} {f : State × β → α → State × β} (hf : ∀ r a, (f r a).1.mem = r.1.mem) (l : List α)
    (r : State × β) : (l.foldl f r).1.mem = r.1.mem :=
  List.foldlRecOn l f (motive := fun q => q.1.mem = r.1.mem) rfl (fun q hq a _ => (hf q a).trans hq)

@[simp] theorem foldl_pair_wf {α β : Type} {f : State × β → α → State × β}
    (hf : ∀ r a, r.1.mem.wf = true → (f r a).1.mem.wf = true) (l : List α) {r : State × β} (h : r.1.mem.wf = true) :
    (l.foldl f r).1.mem.wf = true :=
  List.foldlRecOn l f (motive := fun q => q.1.mem.wf = true) h (fun q hq a _ => hf q a hq)

/-! ### Sys2Proof/Machine/Operands.lean -/

@[simp] theorem dropReg_m (x : GM) (r : Nat) : (dropReg x r).m = x.m := by
  fun_cases dropReg <;> rfl

@[simp] theorem sched_m (x : GM) (at' : Nat) (w : RegWrite) : (sched x at' w).m = x.m := by simp [sched]

@[simp] theorem schedDst_m (x : GM) (at' : Nat) (d : Opd) (n : Nat) (sn : Bool) (vs : List (Nat × Nat)) : (schedDst x at' d n sn vs).m = x.m := by
  fun_cases schedDst <;> simp

@[simp] theorem putDst_wf {x : GM} (h : x.m.wf = true) (d : Dst) (vs : List (Nat × List W32)) : (putDst x d vs).m.wf = true := by
  fun_cases putDst
  · exact foldl_gm_wf _ (fun x v h => foldl_gm_wf _ (fun x j h => putReg_wf x _ _ _ _ h) _ x h) _ x h
  all_goals exact h

/-! ### Sys2Proof/Machine/Ops.lean -/

@[simp] theorem modSlice_mem (s : State) (c i : Nat) (f : Slice → Slice) : (modSlice s c i f).mem = s.mem := by simp [modSlice]
@[simp] theorem gmOf_m (s : State) (g : Group) : (gmOf s g).m = s.mem := rfl

@[simp] theorem modGM_wf {s : State} (h : s.mem.wf = true) (i : Nat) (f : GM → GM) (hf : ∀ x : GM, x.m.wf = true → (f x).m.wf = true) :
    (modGM s i f).mem.wf = true := by
  fun_cases modGM
  · exact h
  · exact hf _ h

@[simp] theorem noteWrite_mem (s : State) (l : Loc) (n : Nat) : (noteWrite s l n).mem = s.mem := by simp [noteWrite]

@[simp] theorem uniSet_wf {s : State} (h : s.mem.wf = true) (part ua : Nat) (bs : List Byte) : (uniSet s part ua bs).mem.wf = true := by
  simp [uniSet, h, uniPut_wf]

@[simp] theorem poolSet_wf {s : State} (h : s.mem.wf = true) (k : Nat) (bs : List Byte) : (poolSet s k bs).mem.wf = true := by
  simp [poolSet, h, memWrN_wf]

@[simp] theorem objCachePut_mem (s : State) (core : Nat) (e : ObjEnt) : (objCachePut s core e).mem = s.mem := by simp [objCachePut]

@[simp] theorem objUse_mem (s : State) (core : Nat) (k : ObjKey) : (objUse s core k).mem = s.mem := by
  fun_cases objUse <;> simp

@[simp] theorem regionUse_mem (s : State) (core n : Nat) : (regionUse s core n).mem = s.mem := by simp [regionUse]

@[simp] theorem consult_mem (s : State) (core part p : Nat) : (consult s core part p).mem = s.mem := by
  fun_cases consult <;> simp

@[simp] theorem consultAll_mem (s : State) (g : Group) (ps : List Nat) : (consultAll s g ps).mem = s.mem := by simp [consultAll]

@[simp] theorem locSet_wf {s : State} (h : s.mem.wf = true) (l : Loc) (bs : List Byte) : (locSet s l bs).mem.wf = true := by
  fun_cases locSet <;> simp [h]

@[simp] theorem locWr_wf {s : State} (h : s.mem.wf = true) (l : Loc) (bs : List Byte) : (locWr s l bs).mem.wf = true := by
  fun_cases locWr <;> simp [h, uniWr_wf, poolWr_wf]

/-! ### Sys2Proof/Machine/Flags.lean -/

@[simp] theorem schedFlags_m (x : GM) (at' : Nat) (fs : List (Nat × Flags)) : (schedFlags x at' fs).m = x.m := by simp [schedFlags]

/-! ### Sys2Proof/Machine/Issue.lean -/

@[simp] theorem waitBlocks_mem (s : State) (g : Group) : (waitBlocks s g).mem = s.mem := by
  fun_cases waitBlocks <;> simp

@[simp] theorem takeSet_mem (s : State) (g : Group) : (takeSet s g).1.mem = s.mem := by
  unfold takeSet
  split
  · rfl
  · dsimp only
    split <;> rfl

theorem withIssue_wf {s : State} (h : s.mem.wf = true) {k : State → Group → Clause → Out}
    (hk : ∀ s g c, s.mem.wf = true → OutWf (k s g c)) : OutWf (withIssue s k) := by
  fun_cases withIssue
  · trivial
  · exact hk _ _ _ (by simp [h])
  · simp [h]
  all_goals trivial

@[simp] theorem finish1_mem (s : State) (x : GM) (c : Clause) (sw : Bool) : (finish1 s x c sw).mem = x.m := rfl
@[simp] theorem stallOut_wf {s : State} (h : s.mem.wf = true) (g : Group) (p : Park) : OutWf (stallOut s g p) := by simp [stallOut, h]

@[simp] theorem trapOut_wf {s : State} (h : s.mem.wf = true) (g : Group) (c : Clause) (word : W64) (cause : Cause) (sub : Nat)
    (lanes : Mask) (addr : W64) :
    OutWf (trapOut s g c word cause sub lanes addr) := by
  simp [trapOut, h, takeTrap_wf]

@[simp] theorem illegalOut_wf {s : State} (h : s.mem.wf = true) (g : Group) (c : Clause) (gd : Guard) (word : W64) :
    OutWf (illegalOut s g c gd word) := by
  simp [illegalOut, h]

@[simp] theorem frameOut_wf {s : State} (h : s.mem.wf = true) (g : Group) (c : Clause) (gd : Guard) (word : W64) (r : Nat) :
    OutWf (frameOut s g c gd word r) := by
  simp [frameOut, h]

@[simp] theorem dropLu_m (x : GM) (f : FormR) (sp : LaneSpec) : (dropLu x f sp).m = x.m := by simp [dropLu]

@[simp] theorem touchSrc_wf {x : GM} (h : x.m.wf = true) (f : FormR) (sp : LaneSpec) : (touchSrc x f sp).m.wf = true :=
  foldl_gm_wf _ (fun x r h => touchReg_wf x true r h) _ x h

@[simp] theorem touchDst_wf {x : GM} (h : x.m.wf = true) (f : FormR) (sp : LaneSpec) (eff : Mask) : (touchDst x f sp eff).m.wf = true :=
  foldl_gm_wf _ (fun x r h => touchReg_wf x _ r h) _ x h

@[simp] theorem laneSched_m (x : GM) (f : FormR) (sp : LaneSpec) (at' : Nat) (first : Bool) (outs : List (Nat × LaneOut)) :
    (laneSched x f sp at' first outs).m = x.m := by
  unfold laneSched
  (repeat' split) <;> simp

@[simp] theorem bump_m (x : GM) (n : Nat) : (bump x n).m = x.m := by simp [bump]

theorem lanePass_wf (f : FormR) (sp : LaneSpec) (body : Group → LaneIn → LaneOut) (st : PassSt) (p : Nat) (h : st.x.m.wf = true) :
    (lanePass f sp body st p).x.m.wf = true := by
  have hx : (landAt st.x st.x.g.pos).m.wf = true := landAt_wf _ _ h
  unfold lanePass
  dsimp only
  split
  · split
    · exact hx
    · exact h
  · rw [bump_m, laneSched_m]
    split
    · exact hx
    · refine touchDst_wf ?_ f sp _
      split <;> simp [hx]

theorem lanePasses_wf (x : GM) (f : FormR) (sp : LaneSpec) (body : Group → LaneIn → LaneOut) (h : x.m.wf = true) :
    (lanePasses x f sp body).x.m.wf = true := by
  have hw : ((List.range (passes x.g.width)).foldl (lanePass f sp body) ⟨landAt x x.g.pos, false, []⟩).x.m.wf = true :=
    List.foldlRecOn (motive := fun st => st.x.m.wf = true) _ _ (landAt_wf _ _ h) (fun st hst p _ => lanePass_wf f sp body st p hst)
  unfold lanePasses
  dsimp only
  split
  · rw [dropLu_m]; exact hw
  · exact hw

theorem wholePasses_wf (x : GM) (f : FormR) (sp : LaneSpec) (eff : Mask) (body : LaneIn → LaneOut) (h : x.m.wf = true) :
    (wholePasses x f sp eff body).x.m.wf = true := by
  unfold wholePasses
  split
  · exact h
  · dsimp only
    simp [h]

theorem crossPass_wf (f : FormR) (sp : LaneSpec) (st : CrossSt) (p : Nat) (h : st.x.m.wf = true) : (crossPass f sp st p).x.m.wf = true := by
  have hx : (landAt st.x st.x.g.pos).m.wf = true := landAt_wf _ _ h
  unfold crossPass
  dsimp only
  split
  · split
    · exact hx
    · exact h
  · rw [bump_m]
    split <;> simp [hx]

theorem crossWalk_wf (x : GM) (f : FormR) (sp : LaneSpec) (h : x.m.wf = true) : (crossWalk x f sp).x.m.wf = true :=
  List.foldlRecOn (motive := fun st => st.x.m.wf = true) _ _ (landAt_wf _ _ h) (fun st hst p _ => crossPass_wf f sp st p hst)

theorem crossPasses_wf (x : GM) (f : FormR) (sp : LaneSpec) (body : Nat → (Nat → LaneIn) → List Nat → List (Nat × LaneOut)) (h : x.m.wf = true) :
    (crossPasses x f sp body).x.m.wf = true := by
  have hw := crossWalk_wf x f sp h
  unfold crossPasses
  dsimp only
  split <;> simp [hw]

theorem laneEnd_wf (s : State) (c : Clause) (gd : Guard) (word : W64) {st : PassSt} (h : st.x.m.wf = true) : OutWf (laneEnd s c gd word st) := h

theorem runLaneG_wf {s : State} (h : s.mem.wf = true) (op : Nat) (f : FormR) (dyn : Group → Bool) (sp : Group → LaneSpec)
    (body : Group → LaneIn → LaneOut) :
    OutWf (runLaneG s op f dyn sp body) := by
  refine withIssue_wf h fun s g c hs => ?_
  dsimp only
  split
  · simp [hs]
  · split
    · simp [hs]
    · exact laneEnd_wf s c f.gd _ (lanePasses_wf _ f _ body hs)

theorem runLane_wf {s : State} (h : s.mem.wf = true) (op : Nat) (f : FormR) (dyn : Group → Bool) (sp : Group → LaneSpec) (body : LaneIn → LaneOut) :
    OutWf (runLane s op f dyn sp body) := runLaneG_wf h op f dyn sp _

theorem runWhole_wf {s : State} (h : s.mem.wf = true) (op : Nat) (f : FormR) (sp : LaneSpec) (bad : List LaneIn → Option (Cause × List Nat × W64))
    (body : LaneIn → LaneOut) : OutWf (runWhole s op f sp bad body) := by
  refine withIssue_wf h fun s g c hs => ?_
  have hx : (landAt (gmOf s g) g.pos).m.wf = true := landAt_wf _ _ hs
  dsimp only
  split
  · simp [hs]
  · split
    · simp [hx]
    · exact laneEnd_wf s c f.gd _ (wholePasses_wf _ f sp _ body hx)

theorem runCross_wf {s : State} (h : s.mem.wf = true) (op : Nat) (f : FormR) (dyn : Group → Bool) (sp : Group → LaneSpec)
    (body : Nat → (Nat → LaneIn) → List Nat → List (Nat × LaneOut)) : OutWf (runCross s op f dyn sp body) := by
  refine withIssue_wf h fun s g c hs => ?_
  dsimp only
  split
  · simp [hs]
  · split
    · simp [hs]
    · exact laneEnd_wf s c f.gd _ (crossPasses_wf _ f _ body hs)

theorem onceBy_wf {s : State} (h : s.mem.wf = true) (lanes : GM → Guard → Mask) (op : Nat) (f : FormR) (sp : LaneSpec)
    {k : State → GM → Clause → W64 → Mask → Out}
    (hk : ∀ s x c w eff, s.mem.wf = true → x.m.wf = true → OutWf (k s x c w eff)) : OutWf (onceBy lanes s op f sp k) := by
  refine withIssue_wf h fun s g c hs => ?_
  have hx : (landAt (gmOf s g) g.pos).m.wf = true := landAt_wf _ _ hs
  dsimp only
  split
  · simp [hs]
  · split
    · simp [hx]
    · exact hk _ _ _ _ _ hs hx

theorem onceR_wf {s : State} (h : s.mem.wf = true) (op : Nat) (f : FormR) (sp : LaneSpec) {k : State → GM → Clause → W64 → Mask → Out}
    (hk : ∀ s x c w eff, s.mem.wf = true → x.m.wf = true → OutWf (k s x c w eff)) : OutWf (onceR s op f sp k) := onceBy_wf h _ op f sp hk

theorem onceFirst_wf {s : State} (h : s.mem.wf = true) (op : Nat) (f : FormR) (sp : LaneSpec) {k : State → GM → Clause → W64 → Mask → Out}
    (hk : ∀ s x c w eff, s.mem.wf = true → x.m.wf = true → OutWf (k s x c w eff)) : OutWf (onceFirst s op f sp k) := onceBy_wf h _ op f sp hk

@[simp] theorem onceBump_m (x : GM) (f : FormR) (sp : LaneSpec) (eff : Mask) : (onceBump x f sp eff).m = x.m := by simp [onceBump]

@[simp] theorem onceDone_m (x : GM) (c : Clause) (f : FormR) (sp : LaneSpec) (eff : Mask) : (onceDone x c f sp eff).m = x.m := by
  simp [onceDone]

@[simp] theorem schedAll_m (x : GM) (pos lat : Nat) (f : FormR) (n : Nat) (eff : Mask) (v : Nat) :
    (schedAll x pos lat f n eff v).m = x.m := by
  simp [schedAll]

@[simp] theorem schedMask_m (x : GM) (pos lat : Nat) (k : Opd) (eff : Mask) (b : Nat → Bool) : (schedMask x pos lat k eff b).m = x.m := by
  simp [schedMask]

/-! ### Sys2Proof/Machine/Run.lean -/

@[simp] theorem strike_mem (s : State) : (strike s).mem = s.mem := by simp [strike]

@[simp] theorem timePasses_mem (s : State) : (timePasses s).mem = s.mem := by
  unfold timePasses
  exact (foldl_state_mem (fun _ _ => by simp) _ _).trans (strike_mem _)

@[simp] theorem decodeTrap_wf {s : State} (h : s.mem.wf = true) (g : Group) (c : Clause) (w : W64) (cause : Cause) :
    (decodeTrap s g c w cause).mem.wf = true := by
  simp [decodeTrap, h, takeTrap_wf]

/-! ### Sys2Proof/Machine/IntAlu.lean -/

@[simp] theorem execNop_wf {s : State} (h : s.mem.wf = true) (f : FormR) : OutWf (execNop f s) :=
  withIssue_wf h fun s g _ hs => by simp [landAt_wf (gmOf s g) _ hs]

@[simp] theorem execIdiv_wf {s : State} (h : s.mem.wf = true) (f : FormR) : OutWf (execIdiv f s) := by
  unfold execIdiv
  split
  · exact runWhole_wf h _ f _ _ _
  · exact runLane_wf h _ f _ _ _

@[simp] theorem execIrem_wf {s : State} (h : s.mem.wf = true) (f : FormR) : OutWf (execIrem f s) := by
  unfold execIrem
  split
  · exact runWhole_wf h _ f _ _ _
  · exact runLane_wf h _ f _ _ _

theorem runLaneW_wf {s : State} (h : s.mem.wf = true) (word : W64) (opds : List (Opd × Nat)) (f : FormR) (sp : LaneSpec) (body : LaneIn → LaneOut) :
    OutWf (runLaneW s word opds f sp body) := by
  refine withIssue_wf h fun s g c hs => ?_
  split
  · simp [hs]
  · exact laneEnd_wf s c f.gd _ (lanePasses_wf _ f _ _ hs)

/-! ### Sys2Proof/Machine/CrossLane.lean -/

@[simp] theorem execKmov_wf {s : State} (h : s.mem.wf = true) (f : FormR) : OutWf (execKmov f s) := by
  fun_cases execKmov
  · exact runLane_wf h _ f _ _ _
  · exact runCross_wf h _ f _ _ _
  · exact runCross_wf h _ f _ _ _
  · exact runLane_wf h _ f _ _ _
  · exact runLane_wf h _ f _ _ _

/-! ### Sys2Proof/Machine/Race.lean -/

@[simp] theorem modKnow_mem (s : State) (p : Nat) (f : Know → Know) : (modKnow s p f).mem = s.mem := by simp [modKnow]
@[simp] theorem learn_mem (s : State) (p : Nat) (v : View) : (learn s p v).mem = s.mem := by simp [learn]
@[simp] theorem learnLanes_mem (s : State) (g : Nat) (ls : List Nat) (v : View) : (learnLanes s g ls v).mem = s.mem := by simp [learnLanes]
@[simp] theorem markRaces_mem (s : State) (a : Acc) (k n : Nat) : (markRaces s a k n).mem = s.mem := by simp [markRaces]
@[simp] theorem noteRead_mem (s : State) (a : Acc) (k n : Nat) : (noteRead s a k n).mem = s.mem := by simp [noteRead]

@[simp] theorem raceRead_mem (s : State) (a : Acc) (landed : Bool) (l : Loc) (bs : List Byte) :
    (raceRead s a landed l bs).1.mem = s.mem := by
  fun_cases raceRead <;> simp

@[simp] theorem raceUnits_mem (s : State) (a : Acc) (landed : Bool) (n : Nat) (l : Loc) (bs : List Byte) :
    (raceUnits s a landed n l bs).1.mem = s.mem := by
  fun_cases raceUnits <;> simp

@[simp] theorem raceWrite_mem (s : State) (a : Acc) (own : List StrongRec) (l : Loc) (old new : List Byte) :
    (raceWrite s a own l old new).mem = s.mem := by
  unfold raceWrite
  split <;> rfl

@[simp] theorem raceUnder_mem (s : State) (a : Acc) (k : Nat) (new : Byte) : (raceUnder s a k new).mem = s.mem := by simp [raceUnder]

@[simp] theorem recordStrong_mem (s : State) (l : Loc) (n : Nat) (me : StrongRec) : (recordStrong s l n me).mem = s.mem := by
  simp [recordStrong]

@[simp] theorem noteOut_mem (s : State) (g lane op : Nat) (r : StrongRec) : (noteOut s g lane op r).mem = s.mem := by simp [noteOut]

/-! ### Sys2Proof/Machine/Ring.lean -/

@[simp] theorem sendPkt_mem (s : State) (src dst srcStop dstStop part : Nat) (req : Option (BitVec 16)) (bytes : Nat) (msg : RingMsg) :
    (sendPkt s src dst srcStop dstStop part req bytes msg).mem = s.mem := by
  simp [sendPkt]

@[simp] theorem delPkt_mem (s : State) (i : Nat) : (delPkt s i).mem = s.mem := by simp [delPkt]
@[simp] theorem modStop_mem (s : State) (j : Nat) (up : Bool) (f : StopDir → StopDir) : (modStop s j up f).mem = s.mem := by simp [modStop]

@[simp] theorem execRingPacketAdmit_wf {s : State} (h : s.mem.wf = true) (pkt : Nat) : OutWf (execRingPacketAdmit pkt s) := by
  fun_cases execRingPacketAdmit <;> simp [h]

@[simp] theorem execRingAdmissionStarved_wf {s : State} (h : s.mem.wf = true) (stop : Nat) (up : Bool) :
    OutWf (execRingAdmissionStarved stop up s) := by
  simp [execRingAdmissionStarved, h]

@[simp] theorem hopFlit_mem (p : Pkt) (st : State × List Nat) (k : Nat) : (hopFlit p st k).1.mem = st.1.mem := by
  fun_cases hopFlit <;> rfl

@[simp] theorem execRingPacketDelivery_wf {s : State} (h : s.mem.wf = true) (pkt : Nat) : OutWf (execRingPacketDelivery pkt s) := by
  fun_cases execRingPacketDelivery <;> simp +zetaDelta [h]

@[simp] theorem freeFlits_mem (s : State) (p : Pkt) (left : List Pkt) : (freeFlits s p left).mem = s.mem := by
  have hf : (p.fl.foldl (fun s k => modStop s k p.up (fun d => { d with used := d.used - 1 })) s).mem = s.mem :=
    foldl_state_mem (fun _ _ => by simp) _ _
  simp [freeFlits, hf]

@[simp] theorem dropPkts_mem (s : State) (bad : Pkt → Bool) : (dropPkts s bad).mem = s.mem := by simp [dropPkts]
@[simp] theorem countStale_mem (s : State) (die : Nat) : (countStale s die).mem = s.mem := by simp [countStale]

/-! ### Sys2Proof/Machine/L1.lean -/

@[simp] theorem wbPut_wf {s : State} (h : s.mem.wf = true) (w : WriteBack) : (wbPut s w).mem.wf = true := by simp +contextual [wbPut, h]

@[simp] theorem wbSend_wf {s : State} (h : s.mem.wf = true) (w : WriteBack) : (wbSend s w).mem.wf = true := by
  fun_cases wbSend <;> simp [h]

@[simp] theorem wbFlush_wf {s : State} (h : s.mem.wf = true) : (wbFlush s).mem.wf = true := by simp +contextual [wbFlush, h]
@[simp] theorem l1WriteBack_wf {s : State} (h : s.mem.wf = true) (l : L1Line) : (l1WriteBack s l).mem.wf = true := by simp [l1WriteBack, h]

@[simp] theorem l1Act_wf {s : State} (h : s.mem.wf = true) (ctxSel : Ctx → Bool) (lineSel : L1Line → Bool) (wb : Bool)
    (upd : L1Line → Option L1Line) :
    (l1Act s ctxSel lineSel wb upd).mem.wf = true := by
  have hf : ((s.ctxs.filter ctxSel).foldl (fun s c => (c.l1.filter lineSel).foldl l1WriteBack s) s).mem.wf = true :=
    foldl_state_wf (fun _ c hs => foldl_state_wf (fun _ l hs => l1WriteBack_wf hs l) _ hs) _ h
  simp [l1Act, h, hf]

@[simp] theorem l1Release_wf {s : State} (h : s.mem.wf = true) (core : Nat) : (l1Release s core).mem.wf = true := by simp [l1Release, h]
@[simp] theorem l1Acquire_wf {s : State} (h : s.mem.wf = true) (core : Nat) : (l1Acquire s core).mem.wf = true := by simp [l1Acquire, h]

@[simp] theorem l1Strong_wf {s : State} (h : s.mem.wf = true) (core part ua n : Nat) : (l1Strong s core part ua n).mem.wf = true := by
  simp [l1Strong, h]

@[simp] theorem l1Fill_wf {s : State} (h : s.mem.wf = true) (ctx part ua : Nat) (k : LineKey) (pinned filling : Bool) :
    (l1Fill s ctx part ua k pinned filling).mem.wf = true := by
  fun_cases l1Fill <;> simp +zetaDelta [h]

@[simp] theorem l1Use_mem (s : State) (ctx part ua : Nat) : (l1Use s ctx part ua).mem = s.mem := by
  unfold l1Use
  split <;> rfl

@[simp] theorem l1Load_wf {s : State} (h : s.mem.wf = true) (ctx part ua n : Nat) (k : Option LineKey) :
    (l1Load s ctx part ua n k).1.mem.wf = true := by
  refine foldl_state_wf (fun s x hs => ?_) _ h
  split
  · exact hs
  · split <;> simp [hs]

@[simp] theorem l1Store1_wf {s : State} (h : s.mem.wf = true) (ctx part ua : Nat) (b : Byte) :
    (l1Store1 s ctx part ua b).mem.wf = true := by
  fun_cases l1Store1 <;> simp [h]

theorem l1StoreN_wf (ctx part : Nat) : ∀ (bs : List Byte) {s : State} (ua : Nat), s.mem.wf = true → (l1StoreN s ctx part ua bs).mem.wf = true
  | [], _, _, h => h
  | b :: bs, _, ua, h => l1StoreN_wf ctx part bs (ua + 1) (l1Store1_wf h ctx part ua b)

@[simp] theorem l1Store_wf {s : State} (h : s.mem.wf = true) (ctx part ua : Nat) (bs : List Byte) : (l1Store s ctx part ua bs).mem.wf = true :=
  l1StoreN_wf ctx part bs ua (by simp [h])

/-! ### Sys2Proof/Machine/PoolMem.lean -/

@[simp] theorem consultM_mem (s : State) (op : Nat) (x : GM) (f : FormM) (eff : Mask) : (consultM s op x f eff).mem = s.mem := by
  refine foldl_state_mem (fun s l => ?_) _ s
  split <;> simp

theorem memIssue_wf {s : State} (h : s.mem.wf = true) (op : Nat) (f : FormM) (nA nB nD : Nat) {k : State → GM → Clause → W64 → Mask → Out}
    (hk : ∀ s x c w eff, s.mem.wf = true → x.m.wf = true → OutWf (k s x c w eff)) : OutWf (memIssue s op f nA nB nD k) := by
  refine withIssue_wf h fun s g c hs => ?_
  have hx : (landAt (gmOf s g) g.pos).m.wf = true := landAt_wf _ _ hs
  dsimp only
  split
  · simp [hs]
  · split
    · simp [hx]
    · exact hk _ _ _ _ _ (by simp [hs]) (foldl_gm_wf _ (fun x r h => touchReg_wf x true r h) _ _ hx)

@[simp] theorem memDone_m (x : GM) (c : Clause) (f : FormM) (nB : Nat) (eff : Mask) : (memDone x c f nB eff).m = x.m := by simp [memDone]
@[simp] theorem addOp_mem (s : State) (o : Op) : (addOp s o).mem = s.mem := by simp [addOp]
@[simp] theorem parkWait_mem (s : State) (gid : Nat) (p : Park) (sw : Bool) : (parkWait s gid p sw).mem = s.mem := by simp [parkWait]
@[simp] theorem parkAbsent_mem (s : State) (o : Op) (sw : Bool) : (parkAbsent s o sw).mem = s.mem := by simp [parkAbsent]
@[simp] theorem launch_mem (s : State) (x : GM) (o : Op) (sw : Bool) : (launch s x o sw).mem = x.m := by simp [launch]

@[simp] theorem loadLaunch_mem (np bc : Bool) (s : State) (x : GM) (c : Clause) (f : FormM) (eff : Mask) (word : W64) (ats : List LaneAt) :
    (loadLaunch np bc s x c f eff word ats).mem = x.m := by simp [loadLaunch]

@[simp] theorem loadIssue_wf {s : State} (h : s.mem.wf = true) (op : Nat) (f : FormM) (np bc : Bool) : OutWf (loadIssue op f np bc s) := by
  refine memIssue_wf h _ f _ _ _ fun s x c w eff hs hx => ?_
  split <;> simp [hs, hx]

@[simp] theorem execLd_wf {s : State} (h : s.mem.wf = true) (f : FormM) : OutWf (execLd f s) := by simp [execLd, h]
@[simp] theorem execLdnp_wf {s : State} (h : s.mem.wf = true) (f : FormM) : OutWf (execLdnp f s) := by simp [execLdnp, h]
@[simp] theorem execLdb_wf {s : State} (h : s.mem.wf = true) (f : FormM) : OutWf (execLdb f s) := by simp [execLdb, h]

@[simp] theorem writeLaunch_mem (kind : OpKind) (ctr nB : Nat) (s : State) (x : GM) (c : Clause) (f : FormM) (eff : Mask) (word : W64)
    (ats : List LaneAt) :
    (writeLaunch kind ctr nB s x c f eff word ats).mem = x.m := by simp [writeLaunch]

@[simp] theorem writeIssue_wf {s : State} (h : s.mem.wf = true) (op : Nat) (f : FormM) (nB nD ctr : Nat) (rights : BitVec 4) (kind : OpKind)
    (atomic : Bool) (refuse : Loc → Nat → Bool) :
    OutWf (writeIssue op f nB nD ctr rights kind atomic refuse s) := by
  refine memIssue_wf h _ f _ _ _ fun s x c w eff hs hx => ?_
  (repeat' split) <;> simp [hs, hx]

@[simp] theorem execSt_wf {s : State} (h : s.mem.wf = true) (f : FormM) : OutWf (execSt f s) := by simp [execSt, h]
@[simp] theorem execAtom_wf {s : State} (h : s.mem.wf = true) (f : FormM) : OutWf (execAtom f s) := by simp [execAtom, h]
@[simp] theorem execAcas_wf {s : State} (h : s.mem.wf = true) (f : FormM) : OutWf (execAcas f s) := by simp [execAcas, h]
@[simp] theorem execRed_wf {s : State} (h : s.mem.wf = true) (f : FormM) : OutWf (execRed f s) := by simp [execRed, h]

@[simp] theorem pathRead_wf {s : State} (h : s.mem.wf = true) (core ctx : Nat) (o : Op) (x : LaneOp) :
    (pathRead s core ctx o x).1.mem.wf = true := by
  fun_cases pathRead <;> simp +zetaDelta [h]

@[simp] theorem pathWrite_wf {s : State} (h : s.mem.wf = true) (ctx : Nat) (o : Op) (x : LaneOp) (nb : List Byte) :
    (pathWrite s ctx o x nb).mem.wf = true := by
  fun_cases pathWrite <;> simp [h]

@[simp] theorem scopeFlag_mem (s : State) (g : Group) (o : Op) (x : LaneOp) (me : StrongRec) : (scopeFlag s g o x me).mem = s.mem := by
  simp [scopeFlag]

@[simp] theorem syncRead_mem (s : State) (g : Group) (o : Op) (a : Acc) (es : List (Option PastByte)) :
    (syncRead s g o a es).mem = s.mem := by
  simp [syncRead]

@[simp] theorem syncWrite_mem (s : State) (g : Group) (o : Op) (x : LaneOp) (a : Acc) (old new : List Byte) :
    (syncWrite s g o x a old new).mem = s.mem := by
  simp [syncWrite]

@[simp] theorem laneRead_mem (s : State) (a : Acc) (o : Op) (x : LaneOp) (bs : List Byte) : (laneRead s a o x bs).1.mem = s.mem := by
  fun_cases laneRead <;> simp

@[simp] theorem access_wf {s : State} (h : s.mem.wf = true) (g : Group) (o : Op) (x : LaneOp) : (access s g o x).1.mem.wf = true := by
  fun_cases access <;> simp +zetaDelta [h]

@[simp] theorem releaseAct_wf {s : State} (h : s.mem.wf = true) (g : Group) : (releaseAct s g).mem.wf = true := by
  simp +contextual [releaseAct, h, ocWriteBackAll_wf]

@[simp] theorem acquireAct_wf {s : State} (h : s.mem.wf = true) (g : Group) : (acquireAct s g).mem.wf = true := by simp [acquireAct, h]

@[simp] theorem returnValue_wf {s : State} (h : s.mem.wf = true) (o : Op) (lane : Nat) (ws : List W32) :
    (returnValue s o lane ws).mem.wf = true := by
  fun_cases returnValue <;> simp +contextual [h]

@[simp] theorem setLane_mem (s : State) (id lane : Nat) (f : LaneOp → LaneOp) : (setLane s id lane f).mem = s.mem := by simp [setLane]
@[simp] theorem opLeave_mem (s : State) (o : Op) : (opLeave s o).mem = s.mem := by simp [opLeave]

@[simp] theorem opEnd_mem (s : State) (id : Nat) : (opEnd s id).mem = s.mem := by
  fun_cases opEnd <;> simp

@[simp] theorem failLane_mem (s : State) (o : Op) (lane cause sub : Nat) : (failLane s o lane cause sub).mem = s.mem := by
  fun_cases failLane <;> simp +zetaDelta

@[simp] theorem dropLane_mem (s : State) (o : Op) (lane die : Nat) : (dropLane s o lane die).mem = s.mem := by simp [dropLane]

@[simp] theorem performEnd_wf {s : State} (h : s.mem.wf = true) (g : Group) (o : Op) (x : LaneOp) (bs : List Byte) :
    (performEnd s g o x bs).mem.wf = true := by
  unfold performEnd
  (repeat' split) <;> simp [h]

@[simp] theorem performStart_wf {s : State} (h : s.mem.wf = true) (g : Group) (o : Op) : (performStart s g o).mem.wf = true := by
  simp [performStart, h]

@[simp] theorem unitStep_wf (g : Group) (o : Op) (x : LaneOp) {st : State × List (Nat × Byte)} (h : st.1.mem.wf = true) (u : Nat × Nat) :
    (unitStep g o x st u).1.mem.wf = true := by simp [unitStep, h]

@[simp] theorem performUnits_wf {s : State} (h : s.mem.wf = true) (g : Group) (o : Op) (x : LaneOp) (us : List (Nat × Nat)) :
    (performUnits s g o x us).mem.wf = true := by
  have hr : (us.foldl (unitStep g o x) (performStart s g o, x.got)).1.mem.wf = true :=
    foldl_pair_wf (fun r u hr => unitStep_wf g o x hr u) us (performStart_wf h g o)
  simp [performUnits, hr]

@[simp] theorem performLane_wf {s : State} (h : s.mem.wf = true) (id lane : Nat) (bytes : W32) :
    (performLane s id lane bytes).mem.wf = true := by
  fun_cases performLane <;> simp [h]

@[simp] theorem performLanes_wf {s : State} (h : s.mem.wf = true) (ok : OpKind → Bool) (id : Nat) (lanes : Mask) (bytes : W32) :
    (performLanes ok id lanes bytes s).mem.wf = true := by
  fun_cases performLanes <;> simp +contextual [h]

@[simp] theorem execStorePerformed_wf {s : State} (h : s.mem.wf = true) (op : Nat) (acc : LaneBytes) :
    OutWf (execStorePerformed op acc s) := by
  simp [execStorePerformed, h]

@[simp] theorem execParkedLoadWake_wf {s : State} (h : s.mem.wf = true) (op : Nat) : OutWf (execParkedLoadWake op s) := by
  fun_cases execParkedLoadWake <;> simp [h]

@[simp] theorem markAcquire_mem (s : State) (g : Nat) (sc : Scope) : (markAcquire s g sc).mem = s.mem := by simp [markAcquire]
@[simp] theorem markHold_mem (s : State) (g : Nat) : (markHold s g).mem = s.mem := by simp [markHold]
@[simp] theorem fenceRel_mem (s : State) (g : Group) (sc : Scope) (lane : Nat) : (fenceRel s g sc lane).mem = s.mem := by simp [fenceRel]

@[simp] theorem fenceKnow_mem (s : State) (g : Group) (o : Order) (sc : Scope) (eff : Mask) : (fenceKnow s g o sc eff).mem = s.mem := by
  simp [fenceKnow]

@[simp] theorem fenceGo_wf (s : State) {x : GM} (hx : x.m.wf = true) (c : Clause) (f : FormM) (eff : Mask) : (fenceGo s x c f eff).mem.wf = true := by
  unfold fenceGo
  extract_lets s0 s1 s2
  have hf : ((lanesOf eff).foldl (fun s l => fenceRel s x.g f.scope l) s0).mem = s0.mem := foldl_state_mem (fun _ _ => by simp) _ _
  have h1 : s1.mem.wf = true := by simp [s1, s0, hf, hx]
  have h2 : s2.mem.wf = true := by simp [s2, h1, releaseAct_wf h1]
  have h3 : (markAcquire s2 x.g.id f.scope).mem.wf = true := by simp [h2]
  simp [h2, acquireAct_wf h3]

@[simp] theorem execFence_wf {s : State} (h : s.mem.wf = true) (f : FormM) : OutWf (execFence f s) := by
  refine memIssue_wf h _ f _ _ _ fun s x c w eff hs hx => ?_
  simp [hs, hx]

@[simp] theorem execFenceDrainDone_wf {s : State} (h : s.mem.wf = true) (gid : Nat) : OutWf (execFenceDrainDone gid s) := by
  fun_cases execFenceDrainDone <;> simp [h]

/-! ### Sys2Proof/Machine/PoolCtl.lean -/

@[simp] theorem launchPlain_mem (s : State) (x : GM) (kind : OpKind) (ctr : Nat) (lanes : List LaneOp) (dst : Dst) (eff : Mask) (word : W64) :
    (launchPlain s x kind ctr lanes dst eff word).mem = x.m := rfl

@[simp] theorem touchBg_wf {x : GM} (h : x.m.wf = true) (r : Nat) : (touchBg x r).m.wf = true := by simp [touchBg, h, touchReg_wf]

@[simp] theorem touchAll_wf {x : GM} (h : x.m.wf = true) (rs : List Nat) : (touchAll x rs).1.m.wf = true := by
  unfold touchAll
  exact List.foldlRecOn (motive := fun st : GM × List Nat => st.1.m.wf = true) rs _ h (fun _ hst r _ => touchBg_wf hst r)

@[simp] theorem execOcfill_wf {s : State} (h : s.mem.wf = true) (f : FormR) : OutWf (execOcfill f s) := by
  refine onceR_wf h _ f _ fun s x c w eff hs hx => ?_
  simp [hs, hx]

@[simp] theorem execOperandCacheFillDone_wf {s : State} (h : s.mem.wf = true) (gid : Nat) : OutWf (execOperandCacheFillDone gid s) := by
  fun_cases execOperandCacheFillDone <;> simp +zetaDelta [h]

@[simp] theorem ocDrop1_wf {x : GM} (h : x.m.wf = true) (dead : Bool) (r : Nat) : (ocDrop1 dead x r).m.wf = true := by
  fun_cases ocDrop1
  · exact h
  · simp [h, entWriteBack_wf]

@[simp] theorem execOcdrop_wf {s : State} (h : s.mem.wf = true) (f : FormR) : OutWf (execOcdrop f s) := by
  refine onceR_wf h _ f _ fun s x c w eff hs hx => ?_
  have hd : ((ocRegs x.g f).foldl (ocDrop1 (f.ext.getLsbD 3)) x).m.wf = true := foldl_gm_wf _ (fun y r hy => ocDrop1_wf hy _ r) _ _ hx
  split
  · simp [hs]
  · rw [outWf_next, launchPlain_mem, onceDone_m]
    exact hd

@[simp] theorem execOcsync_wf {s : State} (h : s.mem.wf = true) (f : FormR) : OutWf (execOcsync f s) := by
  refine onceR_wf h _ f _ fun s x c w eff hs hx => ?_
  simp [hs, ocWriteBackAll_wf x hx]

@[simp] theorem endKind_mem (s : State) (id : Nat) (k : OpKind) : (endKind s id k).mem = s.mem := by
  fun_cases endKind <;> simp

@[simp] theorem execOcdropComplete_wf {s : State} (h : s.mem.wf = true) (op : Nat) : OutWf (execOcdropComplete op s) := by
  simp [execOcdropComplete, h]

@[simp] theorem execOcsyncComplete_wf {s : State} (h : s.mem.wf = true) (op : Nat) : OutWf (execOcsyncComplete op s) := by
  simp [execOcsyncComplete, h]

theorem l1Issue_wf {s : State} (h : s.mem.wf = true) (op : Nat) (f : FormM) (rights : BitVec 4)
    {k : State → GM → Clause → Mask → Nat → List (Nat × Option (Nat × LineKey)) → Out}
    (hk : ∀ s x c eff part at', s.mem.wf = true → x.m.wf = true → OutWf (k s x c eff part at')) : OutWf (l1Issue op f rights s k) := by
  refine memIssue_wf h _ f _ _ _ fun s x c w eff hs hx => ?_
  dsimp only
  split
  · simp [hs]
  · split
    · simp [hs]
    · exact hk _ _ _ _ _ _ hs hx

@[simp] theorem pinLine_wf {s : State} (h : s.mem.wf = true) (ctx part ua : Nat) (k : LineKey) : (pinLine s ctx part ua k).1.mem.wf = true := by
  fun_cases pinLine <;> simp +zetaDelta [h]

@[simp] theorem pinLane_wf (ctx part n : Nat) {st : State × List (Nat × Bool)} (h : st.1.mem.wf = true) (a : Nat × Option (Nat × LineKey)) :
    (pinLane ctx part n st a).1.mem.wf = true := by
  unfold pinLane
  split
  · exact h
  · refine foldl_pair_wf (fun r x hr => ?_) _ h
    exact pinLine_wf hr _ _ _ _

@[simp] theorem execLpin_wf {s : State} (h : s.mem.wf = true) (f : FormM) : OutWf (execLpin f s) := by
  refine l1Issue_wf h _ f _ fun s x c eff part at' hs hx => ?_
  have hr : (at'.foldl (pinLane x.g.ctx part (sizeBytes f)) (putGM s x, [])).1.mem.wf = true :=
    foldl_pair_wf (fun r a hr => pinLane_wf _ _ _ hr a) at' hx
  simp +contextual [hr]

@[simp] theorem l1Lines_wf {s : State} (h : s.mem.wf = true) (ctx part n : Nat) (at' : List (Nat × Option (Nat × LineKey))) (wb : Bool)
    (upd : L1Line → Option L1Line) : (l1Lines s ctx part n at' wb upd).mem.wf = true := by
  refine foldl_state_wf (fun s a hs => ?_) _ h
  split <;> simp [hs]

@[simp] theorem l1Change_wf {s : State} (h : s.mem.wf = true) (op : Nat) (f : FormM) (wb : Bool) (upd : L1Line → Option L1Line) :
    OutWf (l1Change op f wb upd s) := by
  refine l1Issue_wf h _ f _ fun s x c eff part at' hs hx => ?_
  simp [hx]

@[simp] theorem execLunpin_wf {s : State} (h : s.mem.wf = true) (f : FormM) : OutWf (execLunpin f s) := by simp [execLunpin, h]
@[simp] theorem execLinv_wf {s : State} (h : s.mem.wf = true) (f : FormM) : OutWf (execLinv f s) := by simp [execLinv, h]
@[simp] theorem execLwb_wf {s : State} (h : s.mem.wf = true) (f : FormM) : OutWf (execLwb f s) := by simp [execLwb, h]

@[simp] theorem execLpinFillDone_wf {s : State} (h : s.mem.wf = true) (ctx : Nat) (line : LineKey) :
    OutWf (execLpinFillDone ctx line s) := by
  simp [execLpinFillDone, h]

@[simp] theorem execPres_wf {s : State} (h : s.mem.wf = true) (f : FormM) : OutWf (execPres f s) := by
  refine memIssue_wf h _ f _ _ _ fun s x c w eff hs hx => ?_
  dsimp only
  split <;> simp [hs, hx]

@[simp] theorem execObjq_wf {s : State} (h : s.mem.wf = true) (f : FormR) : OutWf (execObjq f s) := by
  refine onceR_wf h _ f _ fun s x c w eff hs hx => ?_
  dsimp only
  split <;> simp [hs, hx]

@[simp] theorem execPtrchk_wf {s : State} (h : s.mem.wf = true) (f : FormR) : OutWf (execPtrchk f s) := by
  unfold execPtrchk
  refine withIssue_wf h fun s g c hs => ?_
  dsimp only
  split
  · simp [hs]
  · exact runLane_wf (by simp [hs]) _ f _ _ _

@[simp] theorem execAdvise_wf {s : State} (h : s.mem.wf = true) (f : FormM) : OutWf (execAdvise f s) := by
  refine memIssue_wf h _ f _ _ _ fun s x c w eff hs hx => ?_
  dsimp only
  split <;> simp [hs, hx]

@[simp] theorem execObjectCacheFill_wf {s : State} (h : s.mem.wf = true) (core : Nat) (obj : ObjKey) :
    OutWf (execObjectCacheFill core obj s) := by
  fun_cases execObjectCacheFill <;> simp +zetaDelta [h]

@[simp] theorem allocIssue_wf {s : State} (h : s.mem.wf = true) (op : Nat) (f : FormR) : OutWf (allocIssue op f s) := by
  refine onceR_wf h _ f _ fun s x c w eff hs hx => ?_
  simp [hx]

@[simp] theorem execPgrow_wf {s : State} (h : s.mem.wf = true) (f : FormR) : OutWf (execPgrow f s) := by simp [execPgrow, h]
@[simp] theorem execPshrink_wf {s : State} (h : s.mem.wf = true) (f : FormR) : OutWf (execPshrink f s) := by simp [execPshrink, h]
@[simp] theorem execFgrow_wf {s : State} (h : s.mem.wf = true) (f : FormR) : OutWf (execFgrow f s) := by simp [execFgrow, h]
@[simp] theorem execFshrink_wf {s : State} (h : s.mem.wf = true) (f : FormR) : OutWf (execFshrink f s) := by simp [execFshrink, h]

@[simp] theorem allocApply_wf {s : State} (h : s.mem.wf = true) (r : AllocReq) (g : Group) (c : Ctx) (old new k : Nat) :
    (allocApply s r g c old new k).mem.wf = true := by
  fun_cases allocApply <;> simp +zetaDelta [h, memWrN_wf, memZero_wf]

@[simp] theorem allocTouch_wf {s : State} (h : s.mem.wf = true) (r : AllocReq) (gid : Nat) : (allocTouch s r gid).mem.wf = true := by
  simp +contextual [allocTouch, h]

@[simp] theorem allocFinish_wf {s : State} (h : s.mem.wf = true) (r : AllocReq) (gid : Nat) (ok : Bool) (v : Nat) :
    (allocFinish s r gid ok v).mem.wf = true := by
  refine modGM_wf h gid _ fun x hx => ?_
  split <;> simp [hx]

@[simp] theorem allocTrap_wf {s : State} (h : s.mem.wf = true) (r : AllocReq) (g : Group) (new : Int) :
    (allocTrap s r g new).mem.wf = true := by
  fun_cases allocTrap <;> simp [h, takeTrap_wf]

@[simp] theorem allocFail_wf {s : State} (h : s.mem.wf = true) (r : AllocReq) (g : Group) (new : Int) :
    (allocFail s r g new).mem.wf = true := by
  fun_cases allocFail <;> simp [h]

@[simp] theorem allocAnswer_wf {s : State} (h : s.mem.wf = true) (r : AllocReq) : (allocAnswer s r).mem.wf = true := by
  have ht (gid : Nat) : (allocTouch s r gid).mem.wf = true := allocTouch_wf h r gid
  have ha (g : Group) (c : Ctx) (old new k : Nat) : (allocApply (allocTouch s r g.id) r g c old new k).mem.wf = true :=
    allocApply_wf (ht g.id) r g c old new k
  unfold allocAnswer
  (repeat' split) <;> simp [h, ha]

@[simp] theorem execAllocatorAnswer_wf {s : State} (h : s.mem.wf = true) (core : Nat) : OutWf (execAllocatorAnswer core s) := by
  fun_cases execAllocatorAnswer <;> simp [h]

@[simp] theorem execStallGrowRetry_wf {s : State} (h : s.mem.wf = true) (core : Nat) : OutWf (execStallGrowRetry core s) := by
  simp [execStallGrowRetry, h]

@[simp] theorem allocDrop_mem (s : State) (gid core : Nat) : (allocDrop s gid core).mem = s.mem := by simp [allocDrop]

@[simp] theorem execStallGrowTimeout_wf {s : State} (h : s.mem.wf = true) (gid : Nat) : OutWf (execStallGrowTimeout gid s) := by
  fun_cases execStallGrowTimeout <;> simp [h]

@[simp] theorem execShrinkAfterCopies_wf {s : State} (h : s.mem.wf = true) (gid : Nat) : OutWf (execShrinkAfterCopies gid s) := by
  fun_cases execShrinkAfterCopies <;> simp [h]

/-! ### Sys2Proof/Machine/Throttle.lean -/

@[simp] theorem throttleAll_mem (s : State) : (throttleAll s).mem = s.mem := by simp [throttleAll]

@[simp] theorem fillSlices_mem (s t : State) (slots : List SlotAt) : (fillSlices s t slots).mem = t.mem := by
  unfold fillSlices
  exact (throttleAll_mem _).trans (foldl_state_mem (fun _ _ => by simp) _ _)

@[simp] theorem boostOver_mem (s t : State) (core : Nat) : (boostOver s t core).mem = t.mem := by simp [boostOver]

/-! ### Sys2Proof/Machine/Seq.lean -/

@[simp] theorem endClause_m (x : GM) (eff : Mask) (sw backward yielded : Bool) : (endClause x eff sw backward yielded).m = x.m := by
  simp [endClause]

theorem jBy_wf {s : State} (h : s.mem.wf = true) (lanes : GM → Guard → Mask) (op : Nat) (f : FormJ) {k : State → GM → Clause → W64 → Mask → Nat → Out}
    (hk : ∀ s x c w eff t, s.mem.wf = true → x.m.wf = true → OutWf (k s x c w eff t)) : OutWf (jBy lanes op f s k) := by
  refine withIssue_wf h fun s g c hs => ?_
  have hx : (landAt (gmOf s g) g.pos).m.wf = true := landAt_wf _ _ hs
  dsimp only
  split
  · simp [hx]
  · split
    · exact hk _ _ _ _ _ _ hs hx
    · simp [hs]

theorem jIssue_wf {s : State} (h : s.mem.wf = true) (op : Nat) (f : FormJ) {k : State → GM → Clause → W64 → Mask → Nat → Out}
    (hk : ∀ s x c w eff t, s.mem.wf = true → x.m.wf = true → OutWf (k s x c w eff t)) : OutWf (jIssue op f s k) := jBy_wf h _ op f hk

theorem jFirst_wf {s : State} (h : s.mem.wf = true) (op : Nat) (f : FormJ) {k : State → GM → Clause → W64 → Mask → Nat → Out}
    (hk : ∀ s x c w eff t, s.mem.wf = true → x.m.wf = true → OutWf (k s x c w eff t)) : OutWf (jFirst op f s k) := jBy_wf h _ op f hk

@[simp] theorem branchEnd_wf (s : State) {x : GM} (hx : x.m.wf = true) (c : Clause) (eff : Mask) (sw uni : Bool) (t : Nat → RetEnt) :
    OutWf (branchEnd s x c eff sw uni t) := hx

@[simp] theorem execBra_wf {s : State} (h : s.mem.wf = true) (f : FormJ) : OutWf (execBra f s) := by
  refine jIssue_wf h _ f fun s x c w eff t hs hx => ?_
  simp [hx]

@[simp] theorem execBrc_wf {s : State} (h : s.mem.wf = true) (f : FormJ) : OutWf (execBrc f s) := by
  refine jIssue_wf h _ f fun s x c w eff t hs hx => ?_
  simp [hx]

@[simp] theorem execLoop_wf {s : State} (h : s.mem.wf = true) (f : FormJ) : OutWf (execLoop f s) := by
  refine jIssue_wf h _ f fun s x c w eff t hs hx => ?_
  simp [hx]

@[simp] theorem spillRets_wf {x : GM} (h : x.m.wf = true) (eff : Mask) : (spillRets x eff).m.wf = true := by
  refine foldl_wf _ (fun m l hm => ?_) _ _ h
  dsimp only
  split
  · exact memWrN_wf _ _ hm
  · exact hm

@[simp] theorem callEnd_wf (s : State) {x : GM} (hx : x.m.wf = true) (c : Clause) (word : W64) (eff : Mask) (shift : Nat) (sw uni : Bool)
    (t : Nat → Nat) :
    OutWf (callEnd s x c word eff shift sw uni t) := by
  unfold callEnd
  dsimp only
  split
  · simp [hx]
  · split <;> simp [hx]

@[simp] theorem execCall_wf {s : State} (h : s.mem.wf = true) (f : FormJ) : OutWf (execCall f s) := by
  refine jFirst_wf h _ f fun s x c w eff t hs hx => ?_
  simp [hx]

theorem xIssue_wf {s : State} (h : s.mem.wf = true) (op : Nat) (f : FormR) {k : State → GM → Clause → W64 → Mask → (Nat → Nat) → Out}
    (hk : ∀ s x c w eff t, s.mem.wf = true → x.m.wf = true → OutWf (k s x c w eff t)) : OutWf (xIssue op f s k) := by
  refine onceFirst_wf h _ f _ fun s x c w eff hs hx => ?_
  dsimp only
  split
  · simp [hx]
  · exact hk _ _ _ _ _ _ hs (by simp [hx])

@[simp] theorem execBrx_wf {s : State} (h : s.mem.wf = true) (f : FormR) : OutWf (execBrx f s) := by
  refine xIssue_wf h _ f fun s x c w eff t hs hx => ?_
  simp [hx]

@[simp] theorem execCallx_wf {s : State} (h : s.mem.wf = true) (f : FormR) : OutWf (execCallx f s) := by
  refine xIssue_wf h _ f fun s x c w eff t hs hx => ?_
  simp [hx]

@[simp] theorem execRet_wf {s : State} (h : s.mem.wf = true) (f : FormR) : OutWf (execRet f s) := by
  refine onceFirst_wf h _ f _ fun s x c w eff hs hx => ?_
  simp [hx]

@[simp] theorem execFspawn_wf {s : State} (h : s.mem.wf = true) (f : FormJ) : OutWf (execFspawn f s) := by
  refine jIssue_wf h _ f fun s x c w eff t hs hx => ?_
  simp [hx]

@[simp] theorem execFend_wf {s : State} (h : s.mem.wf = true) (f : FormR) : OutWf (execFend f s) := by
  refine onceR_wf h _ f _ fun s x c w eff hs hx => ?_
  simp [hx]

@[simp] theorem execExit_wf {s : State} (h : s.mem.wf = true) (f : FormR) : OutWf (execExit f s) := by
  refine onceR_wf h _ f _ fun s x c w eff hs hx => ?_
  simp [hx]

@[simp] theorem execFyield_wf {s : State} (h : s.mem.wf = true) (f : FormR) : OutWf (execFyield f s) := by
  refine onceR_wf h _ f _ fun s x c w eff hs hx => ?_
  simp [hx]

@[simp] theorem execSleep_wf {s : State} (h : s.mem.wf = true) (f : FormR) : OutWf (execSleep f s) := by
  refine onceR_wf h _ f _ fun s x c w eff hs hx => ?_
  simp [hx]

@[simp] theorem execSleepWake_wf {s : State} (h : s.mem.wf = true) (gid : Nat) : OutWf (execSleepWake gid s) := by simp [execSleepWake, h]

@[simp] theorem execGets_wf {s : State} (h : s.mem.wf = true) (f : FormR) : OutWf (execGets f s) := by
  fun_cases execGets
  · trivial
  · simp [h]
  · refine runLaneG_wf ?_ _ f _ _ _
    simp +zetaDelta [h]

@[simp] theorem execSets_wf {s : State} (h : s.mem.wf = true) (f : FormR) : OutWf (execSets f s) := by
  refine onceR_wf h _ f _ fun s x c w eff hs hx => ?_
  simp [hx]

@[simp] theorem storeFibres_wf {x : GM} (h : x.m.wf = true) : (storeFibres x).m.wf = true :=
  foldl_wf _ (fun _ _ hm => memWrN_wf _ _ hm) _ _ h

@[simp] theorem execClauseBoundary_wf {s : State} (h : s.mem.wf = true) (gid : Nat) : OutWf (execClauseBoundary gid s) := by
  fun_cases execClauseBoundary <;> simp +zetaDelta [h, landAll_wf]

@[simp] theorem headerTrap_wf {s : State} (h : s.mem.wf = true) (g : Group) (f : Fibre) (w : Nat) (r : Cause × W64) :
    (headerTrap s g f w r).mem.wf = true := by
  simp [headerTrap, h, takeTrap_wf]

@[simp] theorem execClauseStart_wf {s : State} (h : s.mem.wf = true) (gid : Nat) (refetch : BitVec 4) :
    OutWf (execClauseStart gid refetch s) := by
  fun_cases execClauseStart <;> simp +zetaDelta [h, landAll_wf]

@[simp] theorem execFixedLatencyLanding_wf {s : State} (h : s.mem.wf = true) (gid : Nat) : OutWf (execFixedLatencyLanding gid s) := by
  fun_cases execFixedLatencyLanding <;> simp [h, landAt_wf]

@[simp] theorem execSwitchPoint_wf {s : State} (h : s.mem.wf = true) (gid : Nat) : OutWf (execSwitchPoint gid s) := by
  fun_cases execSwitchPoint
  · exact h
  · next g _ _ _ x =>
    have hx : x.m.wf = true := landAll_wf (gmOf s g) h
    simp [hx, ocRelease_wf]
  · exact h

@[simp] theorem execEntrySetAcquire_wf {s : State} (h : s.mem.wf = true) (gid : Nat) : OutWf (execEntrySetAcquire gid s) := by
  fun_cases execEntrySetAcquire <;> simp +contextual [h, ocRelease_wf]

@[simp] theorem execSliceIssue_wf {s : State} (h : s.mem.wf = true) (core slice : Nat) : OutWf (execSliceIssue core slice s) := by
  fun_cases execSliceIssue <;> simp [h]

@[simp] theorem execGroupUrgent_wf {s : State} (h : s.mem.wf = true) (gid : Nat) : OutWf (execGroupUrgent gid s) := by
  simp [execGroupUrgent, h]

/-! ### Sys2Proof/Machine/Trap.lean -/

@[simp] theorem execTrapDelivery_wf {s : State} (h : s.mem.wf = true) (gid : Nat) : OutWf (execTrapDelivery gid s) := by
  fun_cases execTrapDelivery <;> simp [h, takeTrap_wf]

@[simp] theorem dropPend_mem (s : State) (gid : Nat) (p : PendTrap) : (dropPend s gid p).mem = s.mem := by simp [dropPend]

@[simp] theorem execSwitchPointTrap_wf {s : State} (h : s.mem.wf = true) (gid : Nat) : OutWf (execSwitchPointTrap gid s) := by
  fun_cases execSwitchPointTrap <;> simp [h, takeTrap_wf]

@[simp] theorem execTrap_wf {s : State} (h : s.mem.wf = true) (f : FormR) : OutWf (execTrap f s) := by
  refine onceR_wf h _ f _ fun s x c w eff hs hx => ?_
  dsimp only
  (repeat' split) <;> simp [hx, takeTrap_wf]

@[simp] theorem skipDouble_mem (s : State) (g : Group) : (skipDouble s g).mem = s.mem := by
  fun_cases skipDouble <;> simp +zetaDelta

@[simp] theorem execTret_wf {s : State} (h : s.mem.wf = true) (f : FormR) : OutWf (execTret f s) := by
  refine onceR_wf h _ f _ fun s x c w eff hs hx => ?_
  split
  · dsimp only
    split <;> simp [hx, landAll_wf]
  · simp [execTret.illegalOutAt, hx]

@[simp] theorem execTmask_wf {s : State} (h : s.mem.wf = true) (f : FormR) : OutWf (execTmask f s) := by
  refine onceR_wf h _ f _ fun s x c w eff hs hx => ?_
  dsimp only
  split <;> simp [hx]

@[simp] theorem tsubPass_m (x : GM) (f : FormR) (d : Opd) (n at' : Nat) (first : Bool) (vs : List (Nat × Nat)) :
    (tsubPass x f d n at' first vs).m = x.m := by
  fun_cases tsubPass <;> simp

@[simp] theorem execTsub_wf {s : State} (h : s.mem.wf = true) (f : FormR) : OutWf (execTsub f s) := by
  refine onceR_wf h _ f _ fun s x c w eff hs hx => ?_
  dsimp only
  (repeat' split) <;> simp [hx]

@[simp] theorem execHaltRequest_wf {s : State} (h : s.mem.wf = true) (ctx : Nat) : OutWf (execHaltRequest ctx s) := by
  simp [execHaltRequest, h]

@[simp] theorem haltGroup_wf {s : State} (h : s.mem.wf = true) (g : Group) : (haltGroup s g).mem.wf = true := by
  unfold haltGroup
  extract_lets s1 s2
  have h1 : s1.mem.wf = true := modGM_wf h g.id _ (fun x hx => ocRelease_wf _ (landAll_wf x hx))
  split <;> simp [s2, h1]

@[simp] theorem giveEntries_mem (s : State) (gs : List Nat) : (giveEntries s gs).mem = s.mem := by
  unfold giveEntries
  exact foldl_state_mem (fun _ _ => by simp) _ _

@[simp] theorem resumeHalted_mem (s : State) (ctx : Nat) : (resumeHalted s ctx).mem = s.mem := by simp [resumeHalted]
@[simp] theorem agentEvent_mem (s : State) (core : Nat → Bool) : (agentEvent s core).mem = s.mem := by simp [agentEvent]

@[simp] theorem haltDone_mem (s : State) (ctx : Nat) : (haltDone s ctx).mem = s.mem := by
  unfold haltDone
  split
  · rfl
  · simp

@[simp] theorem execGroupHalted_wf {s : State} (h : s.mem.wf = true) (gid : Nat) : OutWf (execGroupHalted gid s) := by
  fun_cases execGroupHalted <;> simp [h]

theorem agentOp_wf {s : State} (h : s.mem.wf = true) (op : Nat) (f : FormR) {mark : State → Group → Nat → State}
    {k : State → Group → Nat → Option (State × Nat)}
    (hm : ∀ s g a, (mark s g a).mem = s.mem) (hk : ∀ s g a, s.mem.wf = true → ∀ r, k s g a = some r → r.1.mem.wf = true) : OutWf
      (agentOp op f s mark k) := by
  refine onceR_wf h _ f _ fun s x c w eff hs hx => ?_
  dsimp only
  split
  · simp [hm, hs]
  · next s1 v hr =>
    have h1 : s1.mem.wf = true := hk (putGM s (touchSrc x f agentSpec)) _ _ (by simp [hx]) _ hr
    exact modGM_wf h1 _ _ (fun y hy => by simp [hy])

@[simp] theorem imagingMark_mem (on : Bool) (s : State) (g : Group) (num : Nat) : (imagingMark on s g num).mem = s.mem := by
  fun_cases imagingMark <;> simp

/-- What an imaging instruction answers comes from a state in canonical form. -/
def ImageWf (r : Option (State × Nat)) : Prop := ∀ q, r = some q → q.1.mem.wf = true

@[simp] theorem imageWf_none : ImageWf none := fun _ e => nomatch e
@[simp] theorem imageWf_some (q : State × Nat) : ImageWf (some q) ↔ q.1.mem.wf = true :=
  ⟨fun h => h q rfl, fun h _ e => Option.some.inj e ▸ h⟩

theorem imagingEnd_wf (g : Group) (num : Nat) {r : Option (State × Nat)} (h : ImageWf r) : ImageWf (imagingEnd g num r) := by
  cases r with
  | none => exact imageWf_none
  | some q => simpa [imagingEnd] using h

@[simp] theorem saveCtx_wf {s : State} (h : s.mem.wf = true) (c : Ctx) (ua : Nat) : (saveCtx s c ua).mem.wf = true := by
  unfold saveCtx
  (repeat' split) <;> simp +contextual [h, uniWr_wf]

@[simp] theorem execCtxsave_wf {s : State} (h : s.mem.wf = true) (f : FormR) : OutWf (execCtxsave f s) := by
  refine agentOp_wf h _ f (imagingMark_mem true) fun s g num hs => imagingEnd_wf g num ?_
  (repeat' split) <;> simp [hs]

@[simp] theorem spillCtx_mem (s : State) (c : Ctx) (k : Nat) : (spillCtx s c k).mem = s.mem := by simp [spillCtx]

theorem makeRoom_mem : ∀ (n : Nat) (s : State) (core need keep : Nat) {t : State}, makeRoom n s core need keep = some t → t.mem = s.mem
  | 0, s, core, need, keep, t, h => by
    unfold makeRoom at h
    split at h
    · exact Option.some.inj h ▸ rfl
    · exact nomatch h
  | n + 1, s, core, need, keep, t, h => by
    unfold makeRoom at h
    dsimp only at h
    split at h
    · exact Option.some.inj h ▸ rfl
    · split at h
      · exact nomatch h
      · split at h
        · exact nomatch h
        · exact (makeRoom_mem n _ core need keep h).trans (spillCtx_mem _ _ _)

theorem makeRoomFor_mem {s t : State} {core need keep : Nat} (h : makeRoomFor s core need keep = some t) :
    t.mem = s.mem :=
  makeRoom_mem _ s core need keep h

@[simp] theorem loadCtx_mem (s : State) (c : Ctx) (ua : Nat) (slots : List SlotAt) : (loadCtx s c ua slots).mem = s.mem := by simp [loadCtx]

@[simp] theorem execCtxload_wf {s : State} (h : s.mem.wf = true) (f : FormR) : OutWf (execCtxload f s) := by
  refine agentOp_wf h _ f (imagingMark_mem true) fun s g num hs => imagingEnd_wf g num ?_
  dsimp only
  iterate 8 (split; · simp [hs])
  next hr => simp [makeRoomFor_mem hr, hs]

@[simp] theorem fenceCore_mem (s : State) (core : Nat) : (fenceCore s core).mem = s.mem := by simp [fenceCore]

@[simp] theorem execHalt_wf {s : State} (h : s.mem.wf = true) (f : FormR) : OutWf (execHalt f s) := by
  refine onceR_wf h _ f _ fun s x c w eff hs hx => ?_
  simp [hx]

@[simp] theorem execHaltIdleWake_wf {s : State} (h : s.mem.wf = true) (core : Nat) : OutWf (execHaltIdleWake core s) := by
  simp [execHaltIdleWake, h]

@[simp] theorem execPreq_wf {s : State} (h : s.mem.wf = true) (f : FormR) : OutWf (execPreq f s) := by
  refine onceR_wf h _ f _ fun s x c w eff hs hx => ?_
  simp [hx]

/-! ### Sys2Proof/Machine/Barrier.lean -/

@[simp] theorem fireChain_mem : ∀ (n : Nat) (s : State) (team head : Nat), (fireChain n s team head).mem = s.mem
  | 0, _, _, _ => rfl
  | n + 1, s, team, head => by
    unfold fireChain
    (repeat' split) <;> simp [fireChain_mem n]

@[simp] theorem noteStrong_mem (s : State) (k n : Nat) (r : StrongRec) : (noteStrong s k n r).mem = s.mem := by simp [noteStrong]

@[simp] theorem objUpdate_wf {s : State} (h : s.mem.wf = true) (ctx k : Nat) (u : UpdItem) (src : StrongRec) :
    (objUpdate s ctx k u src).1.mem.wf = true := by
  simp [objUpdate, h, poolWr_wf]

@[simp] theorem acquireNote_mem (s : State) (g : Group) (sc : Scope) (k : Nat) : (acquireNote s g sc k).mem = s.mem := by simp [acquireNote]

@[simp] theorem learnObj_mem (s : State) (g : Group) (sc : Scope) (k : Nat) (eff : Mask) : (learnObj s g sc k eff).mem = s.mem := by
  simp [learnObj]

@[simp] theorem objTrap_wf (s : State) {x : GM} (hx : x.m.wf = true) (c : Clause) (word : W64) (eff : Mask) (cause : Cause) (sub a : Nat) :
    OutWf (objTrap s x c word eff cause sub a) := by simp [objTrap, hx]

@[simp] theorem forgetObj_mem (s : State) (k : Nat) : (forgetObj s k).mem = s.mem := by simp [forgetObj]

@[simp] theorem execBinit_wf {s : State} (h : s.mem.wf = true) (f : FormM) : OutWf (execBinit f s) := by
  refine memIssue_wf h _ f _ _ _ fun s x c w eff hs hx => ?_
  dsimp only
  (repeat' split) <;> simp [hs, hx, poolWr_wf]

@[simp] theorem updLaunch_mem (s : State) (x : GM) (c : Clause) (f : FormM) (nB : Nat) (eff : Mask) (word : W64) (ats : List LaneAt)
    (item : GM → Nat → UpdItem) :
    (updLaunch s x c f nB eff word ats item).mem = x.m := by simp [updLaunch]

@[simp] theorem updIssue_wf {s : State} (h : s.mem.wf = true) (op : Nat) (f : FormM) (nB : Nat) (ls : Mask → List Nat)
    (item : GM → Nat → UpdItem) :
    OutWf (updIssue op f nB ls item s) := by
  refine memIssue_wf h _ f _ _ _ fun s x c w eff hs hx => ?_
  dsimp only
  (repeat' split) <;> simp [hs, hx]

@[simp] theorem execBarv_wf {s : State} (h : s.mem.wf = true) (f : FormM) : OutWf (execBarv f s) := by simp [execBarv, h]
@[simp] theorem execBexp_wf {s : State} (h : s.mem.wf = true) (f : FormM) : OutWf (execBexp f s) := by simp [execBexp, h]

@[simp] theorem execBarrierUpdate_wf {s : State} (h : s.mem.wf = true) (upd : Nat) : OutWf (execBarrierUpdate upd s) := by
  unfold execBarrierUpdate
  split
  · exact h
  · split
    · exact h
    · extract_lets s0
      have h0 : s0.mem.wf = true := h
      split
      · simp [h0]
      · extract_lets s1 src s2 r s3
        have h1 : s1.mem.wf = true := by
          unfold s1
          split <;> simp [h0]
        have h2 : s2.mem.wf = true := by simp [s2, h1]
        have h3 : s3.mem.wf = true := returnValue_wf (objUpdate_wf h2 _ _ _ _) _ _ _
        simp [h3]

@[simp] theorem putAll_wf {x : GM} (h : x.m.wf = true) (d : Dst) (eff : Mask) (ws : List W32) : (putAll x d eff ws).m.wf = true := by
  simp [putAll, h]

@[simp] theorem wakeWith_wf {s : State} (h : s.mem.wf = true) (gid : Nat) (d : Dst) (eff : Mask) (ws : List W32) :
    (wakeWith s gid d eff ws).mem.wf = true := by
  simp +contextual [wakeWith, h]

@[simp] theorem phaseWake_wf {s : State} (h : s.mem.wf = true) (g : Group) (k : Nat) (d : Dst) (eff : Mask) (sc : Scope) (wide : Bool) :
    (phaseWake s g k d eff sc wide).mem.wf = true := by
  unfold phaseWake
  (repeat' split) <;> simp [h]

@[simp] theorem phaseGo_wf {s : State} (h : s.mem.wf = true) {x : GM} (hx : x.m.wf = true) (c : Clause) (word : W64) (eff : Mask)
    (f : FormM) (nB q k : Nat)
    (park : Nat → W64 → W32 → Dst → Mask → Park) (ok : Nat → Nat → Bool) (wide : Bool) : OutWf (phaseGo s x c word eff f nB q k park ok wide) := by
  unfold phaseGo
  split
  · simp [h]
  · split
    · simp [hx]
    · simp [hx]

@[simp] theorem phaseWait_wf {s : State} (h : s.mem.wf = true) (op : Nat) (f : FormM) (park : Nat → W64 → W32 → Dst → Mask → Park)
    (ok : Nat → Nat → Bool) :
    OutWf (phaseWait op f park ok s) := by
  refine memIssue_wf h _ f _ _ _ fun s x c w eff hs hx => ?_
  split <;> simp [hs, hx]

@[simp] theorem execBwait_wf {s : State} (h : s.mem.wf = true) (f : FormM) : OutWf (execBwait f s) := by simp [execBwait, h]

@[simp] theorem phaseTest_wf {s : State} (h : s.mem.wf = true) (g : Group) : (phaseTest s g).mem.wf = true := by
  fun_cases phaseTest <;> simp [h]

@[simp] theorem execPhaseWaiterWake_wf {s : State} (h : s.mem.wf = true) (gid : Nat) : OutWf (execPhaseWaiterWake gid s) := by
  fun_cases execPhaseWaiterWake <;> simp [h]

@[simp] theorem register_wf {s : State} (h : s.mem.wf = true) (g : Group) (k target : Nat) (eff : Mask) :
    (register s g k target eff).mem.wf = true := by
  simp [register, h, poolWr_wf]

@[simp] theorem execBcont_wf {s : State} (h : s.mem.wf = true) (f : FormJ) : OutWf (execBcont f s) := by
  refine jIssue_wf h _ f fun s x0 c w eff t hs hx0 => ?_
  extract_lets o l x q s1 s2
  have hx : x.m.wf = true := foldl_gm_wf _ (fun x r hx => touchReg_wf x true r hx) _ _ hx0
  split
  · simp [hs]
  · split
    · simp [hs]
    · simp [hx]
    · refine ite_outWf _ (by simp [hx]) (ite_outWf _ (by simp [hs]) (ite_outWf _ (by simp [hx]) ?_))
      extract_lets s3
      have h1 : s1.mem.wf = true := by simp [s1, hx]
      have h2 : s2.mem.wf = true := by simp [s2, h1]
      have h3 : s3.mem.wf = true := register_wf h2 _ _ _ _
      simp [h3]

@[simp] theorem execContinuationFire_wf {s : State} (h : s.mem.wf = true) (gid : Nat) : OutWf (execContinuationFire gid s) := by
  fun_cases execContinuationFire <;> simp [h]

@[simp] theorem execWatch_wf {s : State} (h : s.mem.wf = true) (f : FormM) : OutWf (execWatch f s) := by
  refine memIssue_wf h _ f _ _ _ fun s x c w eff hs hx => ?_
  dsimp only
  (repeat' split) <;> simp [hs, hx]

@[simp] theorem armWatch_mem (s : State) (g : Nat) (l : Loc) (ptr : W64) : (armWatch s g l ptr).mem = s.mem := by
  unfold armWatch
  extract_lets pt there s1
  have h1 : s1.mem = s.mem := by
    unfold s1
    split
    · split <;> simp
    · rfl
  exact h1

@[simp] theorem watchDone_mem (s : State) (o : Op) : (watchDone s o).mem = s.mem := by
  fun_cases watchDone <;> simp

@[simp] theorem pauseEnd_wf {s : State} (h : s.mem.wf = true) (gid : Nat) (d : Dst) (eff : Mask) (reason : Nat) :
    (pauseEnd s gid d eff reason).mem.wf = true := by
  simp [pauseEnd, h]

@[simp] theorem execPause_wf {s : State} (h : s.mem.wf = true) (f : FormR) : OutWf (execPause f s) := by
  refine onceR_wf h _ f _ fun s x c w eff hs hx => ?_
  dsimp only
  (repeat' split) <;> simp [hx]

@[simp] theorem pauseTest_wf {s : State} (h : s.mem.wf = true) (g : Group) : (pauseTest s g).mem.wf = true := by
  fun_cases pauseTest <;> simp [h]

@[simp] theorem execPauseWake_wf {s : State} (h : s.mem.wf = true) (gid : Nat) : OutWf (execPauseWake gid s) := by
  fun_cases execPauseWake <;> simp [h]

@[simp] theorem execPauseTimeout_wf {s : State} (h : s.mem.wf = true) (gid : Nat) : OutWf (execPauseTimeout gid s) := by
  fun_cases execPauseTimeout <;> simp [h]

@[simp] theorem barArrive_wf {s : State} (h : s.mem.wf = true) (op : Nat) (f : FormR) (inst : Team → Nat) (arrive : Team → Nat → Team)
    (park : Nat → Park) :
    OutWf (barArrive op f inst arrive park s) := by
  refine onceR_wf h _ f _ fun s x c w eff hs hx => ?_
  simp [hx]

@[simp] theorem execTbar_wf {s : State} (h : s.mem.wf = true) (f : FormR) : OutWf (execTbar f s) := by simp [execTbar, h]
@[simp] theorem execSbar_wf {s : State} (h : s.mem.wf = true) (f : FormR) : OutWf (execSbar f s) := by simp [execSbar, h]
@[simp] theorem execGbar_wf {s : State} (h : s.mem.wf = true) (f : FormR) : OutWf (execGbar f s) := by simp [execGbar, h]

@[simp] theorem barMeet_wf {s : State} (h : s.mem.wf = true) (sc : Scope) (gs : List Nat) : (barMeet s sc gs).mem.wf = true := by
  unfold barMeet
  extract_lets s1 lanes v note
  have h1 : s1.mem.wf = true := foldl_state_wf (fun s i hs => by split <;> simp [hs]) gs h
  have hnote (t : State) (i l : Nat) : (note t i l).mem = t.mem := by
    unfold note
    split <;> simp
  exact foldl_state_wf (fun t x ht => by simp [hnote, ht]) lanes h1

@[simp] theorem barGo_wf {s : State} (h : s.mem.wf = true) (gs : List Nat) : (barGo s gs).mem.wf = true := by
  unfold barGo
  extract_lets s1
  have h1 : s1.mem.wf = true := foldl_state_wf (fun s i hs => by split <;> simp [hs]) gs h
  exact foldl_state_wf (fun _ _ ht => by simp [ht]) gs h1

@[simp] theorem barRelease_wf {s : State} (h : s.mem.wf = true) (sc : Scope) (gs : List Nat) : (barRelease s sc gs).mem.wf = true := by
  simp [barRelease, h]

@[simp] theorem teamBarrier_wf {s : State} (h : s.mem.wf = true) (team : Nat) : (teamBarrier s team).mem.wf = true := by
  fun_cases teamBarrier <;> simp [h]

@[simp] theorem stackBarrier_wf {s : State} (h : s.mem.wf = true) (grid share : Nat) : (stackBarrier s grid share).mem.wf = true := by
  fun_cases stackBarrier <;> simp +zetaDelta [h]

@[simp] theorem releaseWave_wf {s : State} (h : s.mem.wf = true) (grid : Nat) (gu : Gust) (n : Nat) :
    (releaseWave s grid gu n).mem.wf = true := by
  simp [releaseWave, h]

@[simp] theorem gridBarrier_wf {s : State} (h : s.mem.wf = true) (grid : Nat) : (gridBarrier s grid).mem.wf = true := by
  fun_cases gridBarrier <;> simp +zetaDelta [h]

@[simp] theorem execBarrierInstanceComplete_wf {s : State} (h : s.mem.wf = true) (kind : BarKind) (id share : Nat) :
    OutWf (execBarrierInstanceComplete kind id share s) := by
  unfold execBarrierInstanceComplete
  (repeat' split) <;> simp [h]

@[simp] theorem execGustWaveRelease_wf {s : State} (h : s.mem.wf = true) (grid : Nat) : OutWf (execGustWaveRelease grid s) := by
  fun_cases execGustWaveRelease <;> simp [h]

@[simp] theorem execWaitPoll_wf {s : State} (h : s.mem.wf = true) (gid : Nat) : OutWf (execWaitPoll gid s) := by
  fun_cases execWaitPoll <;> simp [h]

/-! ### Sys2Proof/Machine/Cmd.lean -/

theorem qIssueG_wf {s : State} (h : s.mem.wf = true) (op : Nat) (f : FormQ) (dyn : Group → Bool) (chk : Group → List (Opd × Nat))
    {k : State → GM → Clause → W64 → Mask → Out}
    (hk : ∀ s x c w eff, s.mem.wf = true → x.m.wf = true → OutWf (k s x c w eff)) : OutWf (qIssueG s op f dyn chk k) := by
  refine withIssue_wf h fun s g c hs => ?_
  have hx : (landAt (gmOf s g) g.pos).m.wf = true := landAt_wf _ _ hs
  dsimp only
  split
  · simp [hs]
  · split
    · simp [hs]
    · split
      · simp [hx]
      · exact hk _ _ _ _ _ hs (ocWriteBackAll_wf _ hx)

theorem qIssue_wf {s : State} (h : s.mem.wf = true) (op : Nat) (f : FormQ) (nA nB nD : Nat) {k : State → GM → Clause → W64 → Mask → Out}
    (hk : ∀ s x c w eff, s.mem.wf = true → x.m.wf = true → OutWf (k s x c w eff)) : OutWf (qIssue s op f nA nB nD k) := qIssueG_wf h op f _ _ hk

@[simp] theorem qDone_m (x : GM) (c : Clause) (f : FormQ) (nA nB : Nat) : (qDone x c f nA nB).m = x.m := by simp [qDone]

@[simp] theorem schedQ_m (x : GM) (pos lat : Nat) (f : FormQ) (n : Nat) (eff : Mask) (v : Nat) : (schedQ x pos lat f n eff v).m = x.m := by
  simp [schedQ]

@[simp] theorem refuseOut_wf (s : State) {x : GM} (hx : x.m.wf = true) (c : Clause) (word : W64) (eff : Mask) (sub addr : Nat) :
    OutWf (refuseOut s x c word eff sub addr) := by simp [refuseOut, hx]

@[simp] theorem addrOut_wf (s : State) {x : GM} (hx : x.m.wf = true) (c : Clause) (word : W64) (eff : Mask) (cause : Cause) (addr : Nat) :
    OutWf (addrOut s x c word eff cause addr) := by simp [addrOut, hx]

@[simp] theorem sendUpd_mem (s : State) (obj : Nat) (item : UpdItem) (src : StrongRec) : (sendUpd s obj item src).mem = s.mem := by
  simp [sendUpd]

@[simp] theorem afterLane_mem (s : State) (e : Eng) (l : Loc) (n : Nat) : (afterLane s e l n).mem = s.mem := by
  fun_cases afterLane <;> simp

@[simp] theorem pastL1_wf {s : State} (h : s.mem.wf = true) (e : Eng) (l : Loc) (n : Nat) : (pastL1 s e l n).mem.wf = true := by
  fun_cases pastL1 <;> simp [h]

@[simp] theorem engineRds_wf {s : State} (h : s.mem.wf = true) (e : Eng) (landed : Bool) (u : Nat) (ls : List (Loc × Nat)) :
    (engineRds s e landed u ls).1.mem.wf = true := by
  simp +contextual [engineRds, h]

@[simp] theorem engineRdU_wf {s : State} (h : s.mem.wf = true) (e : Eng) (landed : Bool) (u : Nat) (l : Loc) (n : Nat) :
    (engineRdU s e landed u l n).1.mem.wf = true := by
  simp [engineRdU, h]

@[simp] theorem hostArrives_wf {s : State} (h : s.mem.wf = true) (xs : List (Loc × Nat)) (vals : List W32) :
    (hostArrives s xs vals).mem.wf = true := by
  simp +contextual [hostArrives, h, uniPut_wf]

@[simp] theorem noteHost_mem (s : State) (g : Nat) (l : Loc) : (noteHost s g l).mem = s.mem := by
  fun_cases noteHost <;> simp

@[simp] theorem engineWr_wf {s : State} (h : s.mem.wf = true) (e : Eng) (l : Loc) (b : Byte) : (engineWr s e l b).mem.wf = true := by
  fun_cases engineWr <;> simp +zetaDelta [h]

@[simp] theorem sendByte_wf {s : State} (h : s.mem.wf = true) (w : Sender) (e : Eng) (l : Loc) (b : Byte) :
    (sendByte s w e l b).mem.wf = true := by
  fun_cases sendByte <;> simp [h]

/-! ### Sys2Proof/Machine/Lattice.lean -/

@[simp] theorem modRegion_mem (s : State) (part r : Nat) (f : Region → Region) : (modRegion s part r f).mem = s.mem := by simp [modRegion]

@[simp] theorem latTest_mem (s : State) (part num k : Nat) : (latTest s part num k).mem = s.mem := by
  fun_cases latTest <;> simp +zetaDelta

@[simp] theorem latChange_mem (s : State) (part num k : Nat) (f : Region → Region) : (latChange s part num k f).mem = s.mem := by
  simp [latChange]

@[simp] theorem gcountAdd_mem (s : State) (part num k i a : Nat) (v : View) : (gcountAdd s part num k i a v).mem = s.mem := by
  simp [gcountAdd]

@[simp] theorem execRegionCacheFill_wf {s : State} (h : s.mem.wf = true) (core region : Nat) :
    OutWf (execRegionCacheFill core region s) := by
  fun_cases execRegionCacheFill <;> simp +zetaDelta [h]

@[simp] theorem cellUse_mem (s : State) (k : Nat) (l : CellLine) : (cellUse s k l).mem = s.mem := by simp [cellUse]

@[simp] theorem execCellCacheFill_wf {s : State} (h : s.mem.wf = true) (stack part region line : Nat) :
    OutWf (execCellCacheFill stack part region line s) := by
  simp [execCellCacheFill, h]

@[simp] theorem latIssue_wf {s : State} (h : s.mem.wf = true) (op : Nat) (f : FormM) (kind : OpKind) (order : Order) :
    OutWf (latIssue op f kind order s) := by
  unfold latIssue
  refine memIssue_wf h _ f _ _ _ fun s x c w eff hs hx => ?_
  have hy : (ocWriteBackAll x).m.wf = true := ocWriteBackAll_wf x hx
  dsimp only
  split
  · simp [hs]
  · simp [hy]
  · split <;> simp [hs, hy]

@[simp] theorem execJst_wf {s : State} (h : s.mem.wf = true) (f : FormM) : OutWf (execJst f s) := by simp [execJst, h]
@[simp] theorem execJld_wf {s : State} (h : s.mem.wf = true) (f : FormM) : OutWf (execJld f s) := by simp [execJld, h]
@[simp] theorem execJldn_wf {s : State} (h : s.mem.wf = true) (f : FormM) : OutWf (execJldn f s) := by simp [execJldn, h]
@[simp] theorem execJadd_wf {s : State} (h : s.mem.wf = true) (f : FormM) : OutWf (execJadd f s) := by simp [execJadd, h]

@[simp] theorem latCmd_wf {s : State} (h : s.mem.wf = true) (op : Nat) (f : FormQ) (nD : Nat) (kind : OpKind) :
    OutWf (latCmd op f nD kind s) := by
  refine qIssue_wf h _ f _ _ _ fun s x c w eff hs hx => ?_
  dsimp only
  split <;> simp [hs, hx]

@[simp] theorem execJtrade_wf {s : State} (h : s.mem.wf = true) (f : FormQ) : OutWf (execJtrade f s) := by simp [execJtrade, h]
@[simp] theorem execJqry_wf {s : State} (h : s.mem.wf = true) (f : FormQ) : OutWf (execJqry f s) := by simp [execJqry, h]

@[simp] theorem cmdReturn_wf {s : State} (h : s.mem.wf = true) (o : Op) (ws : List W32) : (cmdReturn s o ws).mem.wf = true := by
  simp +contextual [cmdReturn, h]

@[simp] theorem execLatticeQueryComplete_wf {s : State} (h : s.mem.wf = true) (op : Nat) : OutWf (execLatticeQueryComplete op s) := by
  fun_cases execLatticeQueryComplete <;> simp [h]

@[simp] theorem latLoad_wf {s : State} (h : s.mem.wf = true) (g : Group) (o : Op) (x : LaneOp) (r : Region) (off : Nat) (signed : Bool) :
    (latLoad s g o x r off signed).mem.wf = true := by
  fun_cases latLoad <;> simp +zetaDelta [h]

@[simp] theorem latLane_wf {s : State} (h : s.mem.wf = true) (g : Group) (o : Op) (x : LaneOp) (r : Region) (off : Nat) :
    (latLane s g o x r off).mem.wf = true := by
  fun_cases latLane <;> simp +zetaDelta [h]

@[simp] theorem latSend_mem (s : State) (part fromK toK : Nat) (req : Option (BitVec 16)) (bytes : Nat) (msg : RingMsg) :
    (latSend s part fromK toK req bytes msg).mem = s.mem := by
  simp [latSend]

@[simp] theorem jtradeGo_mem (s : State) (g : Group) (o : Op) (r : Region) : (jtradeGo s g o r).mem = s.mem := by
  unfold jtradeGo
  dsimp only
  split
  · simp
  · exact foldl_state_mem (fun _ _ => foldl_state_mem (fun _ _ => by simp) _ _) _ _

@[simp] theorem execLatticeLanePerformed_wf {s : State} (h : s.mem.wf = true) (op : Nat) : OutWf (execLatticeLanePerformed op s) := by
  fun_cases execLatticeLanePerformed <;> simp [h]

@[simp] theorem execLatticeReply_wf {s : State} (h : s.mem.wf = true) (op : Nat) : OutWf (execLatticeReply op s) := by
  unfold execLatticeReply
  split
  · exact h
  · extract_lets k vs s1
    have h1 : s1.mem.wf = true := foldl_state_wf (fun s x hs => by simp [hs]) vs h
    refine ite_outWf _ h (ite_outWf _ (by simp [h]) (ite_outWf _ h ?_))
    split <;> simp [h1]

@[simp] theorem thresholdGo_wf {s : State} (h : s.mem.wf = true) (op : Nat) (entry : Bool) : (thresholdGo op entry s).mem.wf = true := by
  fun_cases thresholdGo <;> simp [h]

@[simp] theorem execThresholdReached_wf {s : State} (h : s.mem.wf = true) (op : Nat) : OutWf (execThresholdReached op s) := by
  simp [execThresholdReached, h]

@[simp] theorem execThresholdPoll_wf {s : State} (h : s.mem.wf = true) (op : Nat) : OutWf (execThresholdPoll op s) := by
  simp [execThresholdPoll, h]

@[simp] theorem awaitCellState_wf (s : State) {x : GM} (hx : x.m.wf = true) (c : Clause) (word : W64) (f : FormM) (nB : Nat) (eff : Mask)
    (q part region off : Nat)
    (r : Region) : (awaitCellState s x c word f nB eff q part region off r).mem.wf = true := by
  unfold awaitCellState
  dsimp only
  split
  · simp [hx]
  · split <;> simp [hx]

@[simp] theorem awaitCellGo_wf {s : State} (h : s.mem.wf = true) {x : GM} (hx : x.m.wf = true) (c : Clause) (word : W64) (f : FormM)
    (nB : Nat) (eff : Mask)
    (q part region off : Nat) : OutWf (awaitCellGo s x c word f nB eff q part region off) := by
  unfold awaitCellGo
  split
  · simp [h]
  · simp [hx]

@[simp] theorem execAwait_wf {s : State} (h : s.mem.wf = true) (f : FormM) : OutWf (execAwait f s) := by
  unfold execAwait
  refine memIssue_wf h _ f _ _ _ fun s x c w eff hs hx => ?_
  dsimp only
  split
  · simp [hx]
  · split
    · refine ite_outWf _ (by simp [hx]) (ite_outWf _ (by simp [hs]) ?_)
      simp [hs, hx]
    · split <;> simp [hs, hx]

@[simp] theorem tradeSend_mem (part : Nat) (ks : List Nat) (num m : Nat) (s : State) (ρ : Nat) : (tradeSend part ks num m s ρ).mem = s.mem := by
  unfold tradeSend
  split
  · rfl
  · exact foldl_state_mem (fun _ _ => foldl_state_mem (fun _ _ => by simp) _ _) _ _

@[simp] theorem execTradeInstant_wf {s : State} (h : s.mem.wf = true) (part region : Nat) : OutWf (execTradeInstant part region s) := by
  fun_cases execTradeInstant <;> simp +zetaDelta [h]

@[simp] theorem applyLines_mem (s : State) (part num k : Nat) (ls : List TradeLine) (rels : List (Nat × View)) :
    (applyLines s part num k ls rels).mem = s.mem := by
  simp [applyLines]

@[simp] theorem execTradePacketApply_wf {s : State} (h : s.mem.wf = true) (pkt : Nat) : OutWf (execTradePacketApply pkt s) := by
  have hd (ps : List Pkt) : (ps.foldl (fun s q => delPkt s q.id) s).mem = s.mem := foldl_state_mem (fun _ _ => by simp) _ _
  unfold execTradePacketApply
  split
  · exact h
  · split
    · dsimp only
      split
      · exact h
      · split
        · split <;> simp [hd, h]
        · split <;> simp [hd, h]
        · exact h
    · exact h

@[simp] theorem execStarHubSend_wf {s : State} (h : s.mem.wf = true) (part region : Nat) : OutWf (execStarHubSend part region s) := by
  fun_cases execStarHubSend <;> simp +zetaDelta [h]

@[simp] theorem execTradeAck_wf {s : State} (h : s.mem.wf = true) (pkt : Nat) : OutWf (execTradeAck pkt s) := by
  fun_cases execTradeAck <;> simp [h]

@[simp] theorem execJtradeComplete_wf {s : State} (h : s.mem.wf = true) (op : Nat) : OutWf (execJtradeComplete op s) := by
  fun_cases execJtradeComplete <;> simp [h]

/-! ### Sys2Proof/Machine/Streamer.lean -/

@[simp] theorem entryAt_wf {s : State} (h : s.mem.wf = true) (e : Eng) (l : Loc) (j : Nat) : (entryAt s e l j).1.mem.wf = true := by
  simp [entryAt, h]

@[simp] theorem entriesAt_wf {s : State} (h : s.mem.wf = true) (e : Eng) (l : Loc) (js : List Nat) :
    (entriesAt s e l js).1.mem.wf = true := by
  simp +contextual [entriesAt, h]

@[simp] theorem copyAccept_mem (s : State) (x : GM) (c : Clause) (f : FormQ) (nB : Nat) (eff : Mask) (r : Req) :
    (copyAccept s x c f nB eff r).mem = x.m := by
  simp [copyAccept]

@[simp] theorem copyIssue_wf {s : State} (h : s.mem.wf = true) (op : Nat) (form : CopyForm) (f : FormQ) :
    OutWf (copyIssue op form f s) := by
  refine qIssue_wf h _ f _ _ _ fun s x c w eff hs hx => ?_
  dsimp only
  (repeat' split) <;> simp [hs, hx]

@[simp] theorem execCpy_wf {s : State} (h : s.mem.wf = true) (f : FormQ) : OutWf (execCpy f s) := by simp [execCpy, h]
@[simp] theorem execGath_wf {s : State} (h : s.mem.wf = true) (f : FormQ) : OutWf (execGath f s) := by simp [execGath, h]
@[simp] theorem execScat_wf {s : State} (h : s.mem.wf = true) (f : FormQ) : OutWf (execScat f s) := by simp [execScat, h]
@[simp] theorem execCfill_wf {s : State} (h : s.mem.wf = true) (f : FormQ) : OutWf (execCfill f s) := by simp [execCfill, h]
@[simp] theorem readList_wf {s : State} (h : s.mem.wf = true) (r : Req) : (readList s r).mem.wf = true := by simp [readList, h]
@[simp] theorem passRow_mem (s : State) (r : Req) : (passRow s r).mem = s.mem := by simp [passRow]

@[simp] theorem readRun_wf {s : State} (h : s.mem.wf = true) (r : Req) (us : List Nat) : (readRun s r us).1.mem.wf = true := by
  simp [readRun, h]

@[simp] theorem issueRun_wf {s : State} (h : s.mem.wf = true) (r : Req) : (issueRun s r).mem.wf = true := by
  unfold issueRun
  extract_lets n k us q x rows line src
  have hq : q.1.mem.wf = true := by
    unfold q
    split <;> simp [h]
  simp [src, x, hq]

@[simp] theorem execStreamerRequestActive_wf {s : State} (h : s.mem.wf = true) (req : Nat) : OutWf (execStreamerRequestActive req s) := by
  fun_cases execStreamerRequestActive <;> simp [h]

@[simp] theorem readLine_wf {s : State} (h : s.mem.wf = true) (r : Req) : (readLine s r).mem.wf = true := by
  fun_cases readLine <;> simp [h]

@[simp] theorem execStreamerLineRead_wf {s : State} (h : s.mem.wf = true) (req : Nat) : OutWf (execStreamerLineRead req s) := by
  fun_cases execStreamerLineRead <;> simp [h]

@[simp] theorem hostLine_wf {s : State} (h : s.mem.wf = true) (r : Req) (ok : Bool) (vals : List W32) :
    (hostLine s r ok vals).mem.wf = true := by
  fun_cases hostLine <;> simp [h]

@[simp] theorem execStreamerLineLand_wf {s : State} (h : s.mem.wf = true) (req line : Nat) : OutWf (execStreamerLineLand req line s) := by
  unfold execStreamerLineLand
  (repeat' split) <;> simp +contextual [h]

@[simp] theorem sendCredit_mem (s : State) (r : Req) (obj : Nat) (item : UpdItem) : (sendCredit s r obj item).mem = s.mem := by
  simp [sendCredit]

@[simp] theorem execStreamerCredit_wf {s : State} (h : s.mem.wf = true) (req : Nat) : OutWf (execStreamerCredit req s) := by
  fun_cases execStreamerCredit <;> simp [h]

@[simp] theorem execGcountCredit_wf {s : State} (h : s.mem.wf = true) (req : Nat) : OutWf (execGcountCredit req s) := by
  fun_cases execGcountCredit <;> simp [h]

@[simp] theorem execRequestComplete_wf {s : State} (h : s.mem.wf = true) (req : Nat) : OutWf (execRequestComplete req s) := by
  fun_cases execRequestComplete <;> simp [h]

@[simp] theorem execBulkHandoff_wf {s : State} (h : s.mem.wf = true) (req : Nat) : OutWf (execBulkHandoff req s) := by
  fun_cases execBulkHandoff <;> simp [h]

@[simp] theorem execBulkCreditArrival_wf {s : State} (h : s.mem.wf = true) (pkt : Nat) : OutWf (execBulkCreditArrival pkt s) := by
  fun_cases execBulkCreditArrival <;> simp +zetaDelta [h]

@[simp] theorem execCopyPageResume_wf {s : State} (h : s.mem.wf = true) (req : Nat) : OutWf (execCopyPageResume req s) := by
  fun_cases execCopyPageResume <;> simp [h]

@[simp] theorem execCopyAbort_wf {s : State} (h : s.mem.wf = true) (req : Nat) : OutWf (execCopyAbort req s) := by simp [execCopyAbort, h]

/-! ### Sys2Proof/Machine/Matrix.lean -/

@[simp] theorem queryOut_wf (s : State) {x : GM} (hx : x.m.wf = true) (c : Clause) (f : FormQ) (eff : Mask) (word : W64) (nA : Nat) (ws : List W32) :
    OutWf (queryOut s x c f eff word nA ws) := by simp [queryOut, hx]

@[simp] theorem zeroRange_wf {s : State} (h : s.mem.wf = true) (core : Nat) (isAcc : Bool) (b n : Nat) :
    (zeroRange s core isAcc b n).mem.wf = true := by
  simp [zeroRange, h, memZero_wf]

@[simp] theorem execOrsv_wf {s : State} (h : s.mem.wf = true) (f : FormQ) : OutWf (execOrsv f s) := by
  refine qIssue_wf h _ f _ _ _ fun s x c w eff hs hx => ?_
  dsimp only
  (repeat' split) <;> simp [hs, hx]

@[simp] theorem freeResv_mem (s : State) (core rec : Nat) : (freeResv s core rec).mem = s.mem := by
  fun_cases freeResv <;> simp

@[simp] theorem execOrel_wf {s : State} (h : s.mem.wf = true) (f : FormQ) : OutWf (execOrel f s) := by
  refine qIssue_wf h _ f _ _ _ fun s x c w eff hs hx => ?_
  dsimp only
  (repeat' split) <;> simp [hs, hx]

@[simp] theorem execOqry_wf {s : State} (h : s.mem.wf = true) (f : FormQ) : OutWf (execOqry f s) := by
  refine qIssue_wf h _ f _ _ _ fun s x c w eff hs hx => ?_
  simp [hs, hx]

@[simp] theorem execMatrixQueryComplete_wf {s : State} (h : s.mem.wf = true) (op : Nat) : OutWf (execMatrixQueryComplete op s) := by
  fun_cases execMatrixQueryComplete <;> simp [h]

@[simp] theorem execReservationFreed_wf {s : State} (h : s.mem.wf = true) (core rec : Nat) : OutWf (execReservationFreed core rec s) := by
  simp [execReservationFreed, h]

@[simp] theorem markReads_mem (s : State) (m : MCmd) : (markReads s m).mem = s.mem := by simp [markReads]
@[simp] theorem putCmd_mem (s s1 : State) (m : MCmd) : (putCmd s s1 m).mem = s1.mem := by simp [putCmd]

@[simp] theorem consultBlock_mem (s : State) (g : Group) (kind : MKind) (w : Nat) : (consultBlock s g kind w).mem = s.mem := by
  simp [consultBlock]

@[simp] theorem blockIssue_wf {s : State} (h : s.mem.wf = true) (op : Nat) (kind : MKind) (build : State → Group → MCmd → Nat → MBuild)
    (f : FormQ) :
    OutWf (blockIssue op kind build f s) := by
  refine qIssue_wf h _ f _ _ _ fun s x c w eff hs hx => ?_
  dsimp only
  (repeat' split) <;> simp [hs, hx]

@[simp] theorem execMma_wf {s : State} (h : s.mem.wf = true) (f : FormQ) : OutWf (execMma f s) := by simp [execMma, h]
@[simp] theorem execAdrain_wf {s : State} (h : s.mem.wf = true) (f : FormQ) : OutWf (execAdrain f s) := by simp [execAdrain, h]

@[simp] theorem moveIssue_wf {s : State} (h : s.mem.wf = true) (op : Nat) (kind : MKind) (u : Nat) (v : FormQ → Opd) (f : FormQ) :
    OutWf (moveIssue op kind u v f s) := by
  unfold moveIssue
  refine qIssueG_wf h _ f _ _ fun s x c w eff hs hx => ?_
  dsimp only
  iterate 2 (split; · simp [hs])
  iterate 2 (split; · simp [hx])
  split
  · simp [hs]
  · simp [hx]
  · split <;> simp [hx]

@[simp] theorem execAzero_wf {s : State} (h : s.mem.wf = true) (f : FormQ) : OutWf (execAzero f s) := by simp [execAzero, h]
@[simp] theorem execAmov_wf {s : State} (h : s.mem.wf = true) (f : FormQ) : OutWf (execAmov f s) := by simp [execAmov, h]
@[simp] theorem execAins_wf {s : State} (h : s.mem.wf = true) (f : FormQ) : OutWf (execAins f s) := by simp [execAins, h]
@[simp] theorem endReads_mem (s : State) : (endReads s).mem = s.mem := by simp [endReads]
@[simp] theorem delCmd_mem (s : State) (i : Nat) : (delCmd s i).mem = s.mem := by simp [delCmd]

@[simp] theorem cmdReport_wf {s : State} (h : s.mem.wf = true) (c : MCmd) (flagsAt : Nat) (item : UpdItem) :
    (cmdReport s c flagsAt item).mem.wf = true := by
  unfold cmdReport
  (repeat' split) <;> simp [h]

@[simp] theorem tileWr_wf {s : State} (h : s.mem.wf = true) (acc : Nat) (ws : List Nat) : (tileWr s acc ws).mem.wf = true := by
  simp [tileWr, h, memWrN_wf]

@[simp] theorem execMmaStep_wf {s : State} (h : s.mem.wf = true) (cmd : Nat) : OutWf (execMmaStep cmd s) := by
  fun_cases execMmaStep <;> simp +zetaDelta [h]

@[simp] theorem execMmaResults_wf {s : State} (h : s.mem.wf = true) (cmd : Nat) : OutWf (execMmaResults cmd s) := by
  fun_cases execMmaResults <;> simp [h]

@[simp] theorem execMatrixCommandBegin_wf {s : State} (h : s.mem.wf = true) (cmd : Nat) : OutWf (execMatrixCommandBegin cmd s) := by
  fun_cases execMatrixCommandBegin <;> simp +zetaDelta [h, memZero_wf]

@[simp] theorem amovWords_wf {x : GM} (h : x.m.wf = true) (c : MCmd) : (amovWords x c).m.wf = true :=
  foldl_gm_wf _ (fun x _ h => putReg_wf x _ _ _ _ h) _ x h

@[simp] theorem execMatrixCommandFinish_wf {s : State} (h : s.mem.wf = true) (cmd : Nat) : OutWf (execMatrixCommandFinish cmd s) := by
  fun_cases execMatrixCommandFinish <;> simp +contextual [h]

@[simp] theorem execMatrixStepReexecute_wf {s : State} (h : s.mem.wf = true) (cmd : Nat) : OutWf (execMatrixStepReexecute cmd s) := by
  fun_cases execMatrixStepReexecute <;> simp [h]

@[simp] theorem abortDrain_mem (s : State) (cmd : Nat) : (abortDrain s cmd).mem = s.mem := by simp [abortDrain]

@[simp] theorem execDrainRow_wf {s : State} (h : s.mem.wf = true) (cmd : Nat) : OutWf (execDrainRow cmd s) := by
  fun_cases execDrainRow <;> simp [h]

theorem addLine_wf (e : Eng) : ∀ (bs : List (Loc × Byte)) {r : State × Flags}, r.1.mem.wf = true → (addLine e bs r).1.mem.wf = true
  | _ :: _ :: _ :: _ :: rest, (s, fl), h => by
    unfold addLine
    refine addLine_wf e rest ?_
    exact foldl_state_wf (fun s y hs => by simp [hs]) _ (pastL1_wf (by exact h) _ _ _)
  | [], _, h | [_], _, h | [_, _], _, h | [_, _, _], _, h => by simpa [addLine] using h

@[simp] theorem execDrainLinePerformed_wf {s : State} (h : s.mem.wf = true) (cmd line : Nat) : OutWf (execDrainLinePerformed cmd line s) := by
  have hsend (w : State → Sender) (e : Eng) (bs : List (Loc × Byte)) : (bs.foldl (fun s b => sendByte s (w s) e b.1 b.2) s).mem.wf = true :=
    foldl_state_wf (fun s b hs => by simp [hs]) bs h
  unfold execDrainLinePerformed
  split
  · exact h
  · next c _ =>
    split
    · exact h
    · dsimp only
      iterate 3 (split; · simp [h])
      split
      · simp [hsend fun s => cmdSrc s c]
      · split
        · exact addLine_wf _ _ h
        · simp [hsend fun s => cmdSrc s c]

@[simp] theorem execDrainComplete_wf {s : State} (h : s.mem.wf = true) (cmd : Nat) : OutWf (execDrainComplete cmd s) := by
  unfold execDrainComplete
  (repeat' split) <;> simp [h, memZero_wf]

@[simp] theorem execDrainPageResume_wf {s : State} (h : s.mem.wf = true) (cmd : Nat) : OutWf (execDrainPageResume cmd s) := by
  fun_cases execDrainPageResume <;> simp [h]

@[simp] theorem execDrainAbort_wf {s : State} (h : s.mem.wf = true) (cmd : Nat) : OutWf (execDrainAbort cmd s) := by
  simp [execDrainAbort, h]

/-! ### Sys2Proof/Machine/Fabric.lean -/

@[simp] theorem portLane_wf {s : State} (h : s.mem.wf = true) (id : Nat) (lane : Nat) : (portLane id s lane).mem.wf = true := by
  fun_cases portLane <;> simp +zetaDelta [h]

@[simp] theorem execFabricPortAccept_wf {s : State} (h : s.mem.wf = true) (op : Nat) : OutWf (execFabricPortAccept op s) := by
  fun_cases execFabricPortAccept <;> simp +contextual [h]

@[simp] theorem dropStale_mem (s : State) (part : Nat) : (dropStale s part).mem = s.mem := by simp [dropStale]
@[simp] theorem fabFlag_mem (s : State) (gid : Nat) (counts mism : Bool) : (fabFlag s gid counts mism).mem = s.mem := by simp [fabFlag]

@[simp] theorem fabricSync_mem (s : State) (g : Group) (o : Op) (lane m : Nat) : (fabricSync s g o lane m).mem = s.mem := by
  simp [fabricSync]

@[simp] theorem execPeerAccessReply_wf {s : State} (h : s.mem.wf = true) (op lane status : Nat) (value : FabValue) :
    OutWf (execPeerAccessReply op lane status value s) := by
  unfold execPeerAccessReply
  split
  · exact h
  · split
    · dsimp only
      iterate 3 (split; · simp [h])
      split
      · have hret {t : State} (ht : t.mem.wf = true) (o : Op) (ws : List W32) : (returnValue t o lane ws).mem.wf = true := returnValue_wf ht _ _ _
        split <;> simp [hret, h]
      · simp [h]
    · exact h

@[simp] theorem failWrite_mem (s : State) (w : PeerWrite) : (failWrite s w).mem = s.mem := by simp [failWrite]

@[simp] theorem stepWrite_mem (s : State) (i : Nat) (f : PeerWrite → PeerWrite) : (stepWrite s i f).mem = s.mem := by
  fun_cases stepWrite <;> simp +zetaDelta

@[simp] theorem execPeerWriteAck_wf {s : State} (h : s.mem.wf = true) (write : Nat) (ack : FabAck) :
    OutWf (execPeerWriteAck write ack s) := by
  fun_cases execPeerWriteAck <;> simp [h]

@[simp] theorem fabricWrite_wf {s : State} (h : s.mem.wf = true) (a : Acc) (own : List StrongRec) (part ua : Nat) (bs : List Byte) :
    (fabricWrite s a own part ua bs).mem.wf = true := by
  simp [fabricWrite, h]

@[simp] theorem ownFlag_mem (part ua : Nat) (s : State) (w : PeerWrite) : (ownFlag part ua s w).mem = s.mem := by simp [ownFlag]

@[simp] theorem answerUpdate_mem (s : State) (made mism : Bool) (u : FabricUpdate) : (answerUpdate s made mism u).mem = s.mem := by
  simp [answerUpdate]

@[simp] theorem mcastPerform_wf {s : State} (h : s.mem.wf = true) (part ua n : Nat) (v : Nat) (ok : Bool) (us : List FabricUpdate)
    (ws : List PeerWrite) :
    (mcastPerform s part ua n v ok us ws).mem.wf = true := by
  unfold mcastPerform
  (repeat' split) <;> simp [h]

@[simp] theorem execMulticastApply_wf {s : State} (h : s.mem.wf = true) (dlv : FabricDelivery) : OutWf (execMulticastApply dlv s) := by
  fun_cases execMulticastApply <;> simp [h]

@[simp] theorem fabricAccess_wf {s : State} (h : s.mem.wf = true) (acc : FabricAccess) (ua : Nat) : (fabricAccess s acc ua).1.mem.wf = true := by
  unfold fabricAccess
  extract_lets p l rmw a mism old q bs s1
  have hq : q.1.mem.wf = true := by
    unfold q
    split <;> simp [h]
  have h1 : s1.mem.wf = true := by simp [s1, hq]
  split <;> simp [h1]

@[simp] theorem execInboundFabricAccess_wf {s : State} (h : s.mem.wf = true) (acc : FabricAccess) :
    OutWf (execInboundFabricAccess acc s) := by
  fun_cases execInboundFabricAccess <;> simp +zetaDelta [h]

@[simp] theorem execXfence_wf {s : State} (h : s.mem.wf = true) (f : FormM) : OutWf (execXfence f s) := by
  unfold execXfence
  refine memIssue_wf h _ f _ _ _ fun s x c w eff hs hx => ?_
  have hy : (ocWriteBackAll x).m.wf = true := ocWriteBackAll_wf x hx
  dsimp only
  iterate 3 (split; · simp [hs, hy])
  split
  · have hr (t : State) (ht : t.mem.wf = true) : (releaseAct t (ocWriteBackAll x).g).mem.wf = true := releaseAct_wf ht _
    simp [hr, hy]
  · simp [hy]

@[simp] theorem execXfenceDone_wf {s : State} (h : s.mem.wf = true) (op : Nat) : OutWf (execXfenceDone op s) := by
  fun_cases execXfenceDone <;> simp [h]

@[simp] theorem execXqry_wf {s : State} (h : s.mem.wf = true) (f : FormQ) : OutWf (execXqry f s) := by
  refine qIssue_wf h _ f _ _ _ fun s x c w eff hs hx => ?_
  simp [hs, hx]

@[simp] theorem execFabricQueryComplete_wf {s : State} (h : s.mem.wf = true) (op : Nat) : OutWf (execFabricQueryComplete op s) := by
  fun_cases execFabricQueryComplete <;> simp [h]

@[simp] theorem failColls_mem (s : State) (sel : Coll → Bool) : (failColls s sel).mem = s.mem := by simp [failColls]

@[simp] theorem collAccept_mem (s : State) (x : GM) (c : Clause) (f : FormQ) (nB : Nat) (eff : Mask) (m : Coll) :
    (collAccept s x c f nB eff m).mem = x.m := by
  simp [collAccept]

@[simp] theorem execColl_wf {s : State} (h : s.mem.wf = true) (f : FormQ) : OutWf (execColl f s) := by
  refine qIssue_wf h _ f _ _ _ fun s x c w eff hs hx => ?_
  dsimp only
  (repeat' split) <;> simp [hs, hx]

@[simp] theorem modColl_mem (s : State) (i : Nat) (f : Coll → Coll) : (modColl s i f).mem = s.mem := by simp [modColl]

@[simp] theorem collRead_wf {s : State} (h : s.mem.wf = true) (c : Coll) : (collRead s c).mem.wf = true := by
  fun_cases collRead <;> simp +zetaDelta [h]

@[simp] theorem collStage_mem (s : State) (c : Coll) (err : Bool) : (collStage s c err).mem = s.mem := by simp [collStage]

@[simp] theorem collLand_wf {s : State} (h : s.mem.wf = true) (c : Coll) (l : CopyLine) : (collLand s c l).mem.wf = true := by
  simp +contextual [collLand, h]

@[simp] theorem collReport_mem (s : State) (c : Coll) (err : Bool) : (collReport s c err).mem = s.mem := by
  fun_cases collReport <;> simp

@[simp] theorem takePeers_mem (s : State) (c : Coll) (peers : List PeerColl) : (takePeers s c peers).1.mem = s.mem := by simp [takePeers]

@[simp] theorem collGo_wf {s : State} (h : s.mem.wf = true) (c : Coll) (err : Bool) : (collGo s c err).mem.wf = true := by
  fun_cases collGo <;> simp [h]

@[simp] theorem collStep_wf {s : State} (h : s.mem.wf = true) (c : Coll) (peers : List PeerColl) : (collStep s c peers).mem.wf = true := by
  fun_cases collStep <;> simp +zetaDelta [h]

@[simp] theorem hostSend_wf {s : State} (h : s.mem.wf = true) (c : Coll) (ok : Bool) (vals : List W32) :
    (hostSend s c ok vals).mem.wf = true := by
  fun_cases hostSend <;> simp [h]

@[simp] theorem execCollectiveComplete_wf {s : State} (h : s.mem.wf = true) (coll : Nat) (peers : List PeerColl) :
    OutWf (execCollectiveComplete coll peers s) := by
  fun_cases execCollectiveComplete <;> simp [h]

@[simp] theorem execCollectiveTimeout_wf {s : State} (h : s.mem.wf = true) (coll : Nat) : OutWf (execCollectiveTimeout coll s) := by
  fun_cases execCollectiveTimeout <;> simp [h]

@[simp] theorem execPeerResetLearned_wf {s : State} (h : s.mem.wf = true) (part member incarn : Nat) :
    OutWf (execPeerResetLearned part member incarn s) := by
  unfold execPeerResetLearned
  extract_lets s1 mine lost s2 ws s3
  have h1 : s1.mem.wf = true := by simp [s1, h]
  have h2 : s2.mem.wf = true := foldl_state_wf (fun s x hs => by split <;> simp [hs]) lost h1
  have h3 : s3.mem.wf = true := foldl_state_wf (fun s w hs => by simp [hs]) ws h2
  simp [h3]

/-! ### Sys2Proof/Machine/Kill.lean -/

@[simp] theorem freeGrans_mem (s : State) (ctx n : Nat) : (freeGrans s ctx n).mem = s.mem := by
  fun_cases freeGrans <;> simp

@[simp] theorem dropWaiter_mem (s : State) (g : Group) : (dropWaiter s g).mem = s.mem := by
  fun_cases dropWaiter <;> simp

@[simp] theorem execGroupLeaveSlot_wf {s : State} (h : s.mem.wf = true) (gid : Nat) : OutWf (execGroupLeaveSlot gid s) := by
  unfold execGroupLeaveSlot
  split
  · exact h
  · extract_lets segment
    have hseg {t : State} (ht : t.mem.wf = true) : (segment t).mem.wf = true := by
      unfold segment
      split
      · exact ht
      · simp [memZero_wf, ht]
    split
    · exact hseg h
    · split
      · refine hseg ?_
        rw [modG_mem, freeGrans_mem, dropWaiter_mem]
        exact modGM_wf h gid ocRelease ocRelease_wf
      · exact h

@[simp] theorem freeCtx_wf {s : State} (h : s.mem.wf = true) (c : Ctx) : (freeCtx s c).mem.wf = true := by simp [freeCtx, h, memZero_wf]

@[simp] theorem execTeamEnd_wf {s : State} (h : s.mem.wf = true) (team : Nat) : OutWf (execTeamEnd team s) := by
  have hfree {t : State} (cs : List Ctx) (ht : t.mem.wf = true) : (cs.foldl freeCtx t).mem.wf = true :=
    foldl_state_wf (fun s c hs => freeCtx_wf hs c) cs ht
  unfold execTeamEnd
  split
  · exact h
  · extract_lets gs s1 cs
    have h1 : s1.mem.wf = true := by
      unfold s1
      split <;> simp [h]
    split
    · exact h
    · split
      · simp [hfree, h1]
      · exact h1

@[simp] theorem killRecord_wf {s : State} (h : s.mem.wf = true) (c : Ctx) (r : TrapRec) : (killRecord s c r).mem.wf = true := by
  fun_cases killRecord <;> simp [h, uniWr_wf]

@[simp] theorem dropResv_mem (s : State) (core : Nat) : (dropResv s core).mem = s.mem := by
  unfold dropResv
  split
  · rfl
  · exact foldl_state_mem (fun _ _ => by simp) _ _

@[simp] theorem dropGridResv_mem (s : State) (grid : Nat) : (dropGridResv s grid).mem = s.mem := by simp [dropGridResv]
@[simp] theorem abandonVeers_mem (s : State) (cs : List Ctx) : (abandonVeers s cs).mem = s.mem := by simp [abandonVeers]
@[simp] theorem boostsOver_mem (s t : State) (cs : List Ctx) : (boostsOver s t cs).mem = t.mem := foldl_state_mem (fun _ _ => by simp) _ _

@[simp] theorem killGrid_wf {s : State} (h : s.mem.wf = true) (gid : Nat) : (killGrid s gid).mem.wf = true := by
  unfold killGrid
  split
  · exact h
  · extract_lets cs ids mine gs s1 s2 marked s3
    have h1 : s1.mem.wf = true := foldl_state_wf (fun s c hs => killRecord_wf hs c _) cs h
    have h3 : s3.mem = s1.mem := by
      have hd (ws : List Group) : (ws.foldl dropWaiter s1).mem = s1.mem := foldl_state_mem dropWaiter_mem ws s1
      simp [s3, marked, s2, hd]
    simp [h3, h1]

@[simp] theorem execGridKill_wf {s : State} (h : s.mem.wf = true) (grid : Nat) : OutWf (execGridKill grid s) := by
  fun_cases execGridKill <;> simp [h]

@[simp] theorem execKillComplete_wf {s : State} (h : s.mem.wf = true) (ctx : Nat) : OutWf (execKillComplete ctx s) := by
  unfold execKillComplete
  split
  · exact h
  · extract_lets gs busy s1 s2 s3 done
    have h1 : s1.mem.wf = true := foldl_state_wf (fun s g hs => memZero_wf _ _ hs) gs h
    have h3 : s3.mem.wf = true := by
      have h2 (c : Ctx) : (freeCtx s2 c).mem.wf = true := freeCtx_wf (by exact h1) c
      simp [s3, h2]
    split
    · simp [h3]
    · exact h

@[simp] theorem takeThrottle_wf {s : State} (h : s.mem.wf = true) (g : Group) (sub : Nat) : (takeThrottle s g sub).mem.wf = true := by
  fun_cases takeThrottle <;> simp [h, takeTrap_wf]

@[simp] theorem deliverThrottle_wf {s : State} (h : s.mem.wf = true) (team : Nat) (g : Group) (active : Bool) :
    (deliverThrottle s team g active).mem.wf = true := by
  simp [deliverThrottle, h]

@[simp] theorem execThrottleTrap_wf {s : State} (h : s.mem.wf = true) (team : Nat) : OutWf (execThrottleTrap team s) := by
  fun_cases execThrottleTrap <;> simp [h]

/-! ### Sys2Proof/Machine/Pages.lean -/

@[simp] theorem signal_mem (s : State) (func vec link : Nat) : (signal s func vec link).mem = s.mem := by simp [signal]

@[simp] theorem execLinkRetrain_wf {s : State} (h : s.mem.wf = true) (link : Nat) : OutWf (execLinkRetrain link s) := by
  simp [execLinkRetrain, h]

@[simp] theorem mpKeep_mem (s : State) (part : Nat) (e : Option ObjEnt) : (mpKeep s part e).mem = s.mem := by
  fun_cases mpKeep <;> simp

@[simp] theorem zeroGran_wf {s : State} (h : s.mem.wf = true) (part n : Nat) : (zeroGran s part n).mem.wf = true := by
  simp [zeroGran, h, memZero_wf]

theorem backPage_wf {s t : State} {part n half : Nat} (h : s.mem.wf = true) (ht : backPage s part n half = some t) : t.mem.wf = true := by
  have hz (e : Option ObjEnt) (ns : List Nat) (f : Gran → Gran) :
      (ns.foldl (fun s m => modP (zeroGran s part m) part (fun p => modGran p m f)) (mpKeep s part e)).mem.wf = true :=
    foldl_state_wf (fun s m hs => by simp [hs]) ns (by simpa using h)
  unfold backPage at ht
  dsimp only at ht
  split at ht
  · exact nomatch ht
  · exact Option.some.inj ht ▸ hz _ _ _

@[simp] theorem askerWaits_mem (s : State) (gran ctx : Nat) (a : PageAsker) : (askerWaits s gran ctx a).mem = s.mem := by
  unfold askerWaits
  split <;> rfl

@[simp] theorem writeRec_wf {s : State} (h : s.mem.wf = true) (part : Nat) (bs : List Byte) : (writeRec s part bs).mem.wf = true := by
  simp [writeRec, h, memWrN_wf]

@[simp] theorem pushRec_wf {s : State} (h : s.mem.wf = true) (part : Nat) (bs : List Byte) : (pushRec s part bs).mem.wf = true := by
  simp [pushRec, h]

@[simp] theorem drainRecs_wf : ∀ (bs : List (List Byte)) {s : State}, s.mem.wf = true → ∀ part, (drainRecs bs s part).mem.wf = true
  | [], _, h, _ => h
  | b :: bs, s, h, part => by
    unfold drainRecs
    split
    · exact drainRecs_wf bs (writeRec_wf h part b) part
    · exact h

@[simp] theorem newPageReq_wf {s : State} (h : s.mem.wf = true) (part gran ctx : Nat) (w x a e : Bool) (joined : List PageAsker) :
    (newPageReq s part gran ctx w x a e joined).mem.wf = true := by
  simp [newPageReq, h]

@[simp] theorem execPageRequest_wf {s : State} (h : s.mem.wf = true) (part gran : Nat) (asker : PageAsker) :
    OutWf (execPageRequest part gran asker s) := by
  fun_cases execPageRequest <;> simp +zetaDelta [h]

@[simp] theorem execPrqptrHeadWrite_wf {s : State} (h : s.mem.wf = true) (part head : Nat) : OutWf (execPrqptrHeadWrite part head s) :=
  drainRecs_wf _ (by exact h) part

@[simp] theorem failAsker_mem (s : State) (a : PageAsker) : (failAsker s a).mem = s.mem := by
  fun_cases failAsker <;> simp

@[simp] theorem resumeAsker_mem (s : State) (a : PageAsker) : (resumeAsker s a).mem = s.mem := by
  fun_cases resumeAsker <;> simp

@[simp] theorem clearFaulted_mem (s : State) (ctx : Nat) : (clearFaulted s ctx).mem = s.mem := by
  fun_cases clearFaulted <;> simp

theorem settle_mem (s : State) (part : Nat) (r : PageReq) {f : State → PageAsker → State} (hf : ∀ s a, (f s a).mem = s.mem) :
    (settle s part r f).mem = s.mem :=
  (foldl_state_mem clearFaulted_mem _ _).trans (foldl_state_mem hf _ _)

@[simp] theorem reAsk_wf {s : State} (h : s.mem.wf = true) (part : Nat) (r : PageReq) : (reAsk s part r).mem.wf = true := by
  fun_cases reAsk <;> simp +zetaDelta [h]

@[simp] theorem fromHost_wf {s : State} (h : s.mem.wf = true) (part n : Nat) : (fromHost s part n).mem.wf = true := by
  simp [fromHost, h, memWrN_wf]

theorem backFor_wf {s t : State} {part : Nat} {r : PageReq} (h : s.mem.wf = true) (ht : backFor s part r = some t) : t.mem.wf = true := by
  unfold backFor at ht
  split at ht
  · exact backPage_wf h ht
  · exact Option.some.inj ht ▸ h

@[simp] theorem applyAnswer_wf {s : State} (h : s.mem.wf = true) (part : Nat) (r : PageReq) (status hpa : Nat) :
    (applyAnswer s part r status hpa).mem.wf = true := by
  have hres (t : State) : (settle t part r resumeAsker).mem = t.mem := settle_mem t part r resumeAsker_mem
  have hfail (t : State) : (settle t part r failAsker).mem = t.mem := settle_mem t part r failAsker_mem
  unfold applyAnswer
  split
  · split
    · next ht => simp [hres, backFor_wf h ht]
    · simp [h]
  · split
    · next ht => simp [hres, backFor_wf h ht]
    · simp [h]
  · split <;> simp [hres, h]
  · simp [hfail, h]

@[simp] theorem pageAnswer_wf {s : State} (h : s.mem.wf = true) (lo hi : Nat) : (pageAnswer s lo hi).mem.wf = true := by
  have hback (b : Prop) [Decidable b] (part : Nat) (bs : List Byte) : (if b then pushRec s part bs else s).mem.wf = true := by
    split
    · exact pushRec_wf h _ _
    · exact h
  unfold pageAnswer
  dsimp only
  split
  · exact h
  · split
    · exact h
    · split
      · exact hback _ _ _
      · split
        · exact reAsk_wf (hback _ _ _) _ _
        · exact applyAnswer_wf h _ _ _ _

@[simp] theorem answerOf_wf {s : State} (h : s.mem.wf = true) (want : Nat) (ans : PageAnswer) : OutWf (answerOf want ans s) := by
  simp [answerOf, h]

@[simp] theorem execPageAnswerZero_wf {s : State} (h : s.mem.wf = true) (ans : PageAnswer) : OutWf (execPageAnswerZero ans s) := by
  simp [execPageAnswerZero, h]

@[simp] theorem execPageAnswerCopy_wf {s : State} (h : s.mem.wf = true) (ans : PageAnswer) : OutWf (execPageAnswerCopy ans s) := by
  simp [execPageAnswerCopy, h]

@[simp] theorem execPageAnswerMap_wf {s : State} (h : s.mem.wf = true) (ans : PageAnswer) : OutWf (execPageAnswerMap ans s) := by
  simp [execPageAnswerMap, h]

@[simp] theorem execPageAnswerFail_wf {s : State} (h : s.mem.wf = true) (ans : PageAnswer) : OutWf (execPageAnswerFail ans s) := by
  simp [execPageAnswerFail, h]

@[simp] theorem hreqDone_mem (s : State) (code : Nat) : (hreqDone s code).mem = s.mem := by simp [hreqDone]
@[simp] theorem hreqGoes_mem (s : State) (c : HreqCmd) : (hreqGoes s c).mem = s.mem := by simp [hreqGoes]
@[simp] theorem hreqQuery_mem (s : State) (c : HreqCmd) : (hreqQuery s c).mem = s.mem := by simp [hreqQuery]
@[simp] theorem setPins_mem (s : State) (part : Nat) (ns : List Nat) (b : Bool) : (setPins s part ns b).mem = s.mem := by simp [setPins]

@[simp] theorem hreqPin_wf {s : State} (h : s.mem.wf = true) (c : HreqCmd) : (hreqPin s c).mem.wf = true := by
  unfold hreqPin
  split
  · split
    · next ht => simp [backPage_wf h ht]
    · simp [h]
  · simp [h]

@[simp] theorem evictWatches_mem (s : State) (part : Nat) (ns : List Nat) : (evictWatches s part ns).mem = s.mem := by simp [evictWatches]

@[simp] theorem startMove_mem (s : State) (part : Nat) (ns : List Nat) (f : Nat → GranState) : (startMove s part ns f).mem = s.mem := by
  simp [startMove]

@[simp] theorem hreqTohost_mem (s : State) (c : HreqCmd) : (hreqTohost s c).mem = s.mem := by simp [hreqTohost]

@[simp] theorem hreqTodev_mem (s : State) (c : HreqCmd) : (hreqTodev s c).mem = s.mem := by
  fun_cases hreqTodev <;> simp

@[simp] theorem hreqDrop_wf {s : State} (h : s.mem.wf = true) (c : HreqCmd) : (hreqDrop s c).mem.wf = true := by
  simp +contextual [hreqDrop, h]

@[simp] theorem hreqRun_wf {s : State} (h : s.mem.wf = true) (c : HreqCmd) : (hreqRun s c).mem.wf = true := by
  unfold hreqRun
  split
  · simp [h]
  · split <;> simp [h]

@[simp] theorem hreq_wf {s : State} (h : s.mem.wf = true) (part gran cmd hpa : Nat) : OutWf (hreq part gran cmd hpa s) := by
  unfold hreq
  (repeat' split) <;> simp [h]

@[simp] theorem execHreqQuery_wf {s : State} (h : s.mem.wf = true) (part gran : Nat) : OutWf (execHreqQuery part gran s) := by
  simp [execHreqQuery, h]

@[simp] theorem execHreqPin_wf {s : State} (h : s.mem.wf = true) (part gran : Nat) : OutWf (execHreqPin part gran s) := by
  simp [execHreqPin, h]

@[simp] theorem execHreqUnpin_wf {s : State} (h : s.mem.wf = true) (part gran : Nat) : OutWf (execHreqUnpin part gran s) := by
  simp [execHreqUnpin, h]

@[simp] theorem execHreqTohost_wf {s : State} (h : s.mem.wf = true) (part gran hpa : Nat) : OutWf (execHreqTohost part gran hpa s) := by
  simp [execHreqTohost, h]

@[simp] theorem execHreqTodev_wf {s : State} (h : s.mem.wf = true) (part gran : Nat) : OutWf (execHreqTodev part gran s) := by
  simp [execHreqTodev, h]

@[simp] theorem execHreqDrop_wf {s : State} (h : s.mem.wf = true) (part gran : Nat) : OutWf (execHreqDrop part gran s) := by
  simp [execHreqDrop, h]

@[simp] theorem hreqNext_wf {s : State} (h : s.mem.wf = true) : (hreqNext s).mem.wf = true := by
  fun_cases hreqNext <;> simp [h]

@[simp] theorem execPageMoveStep_wf {s : State} (h : s.mem.wf = true) (part gran : Nat) : OutWf (execPageMoveStep part gran s) := by
  unfold execPageMoveStep
  dsimp only
  split
  · exact h
  · have hz : (zeroGran { s with fresh := s.fresh + 1 } part gran).mem.wf = true := zeroGran_wf (by exact h) _ _
    split <;> simp [h, hz, uniPut_wf]

@[simp] theorem moveUp_mem (part : Nat) (s : State) (x : PageStat) : (moveUp part s x).mem = s.mem := by
  fun_cases moveUp <;> simp

@[simp] theorem moveAcross_mem (part : Nat) (s : State) (x : PageStat) : (moveAcross part s x).mem = s.mem := by
  fun_cases moveAcross <;> simp

@[simp] theorem moveDown_mem (part : Nat) (s : State) (x : PageStat) : (moveDown part s x).mem = s.mem := by simp [moveDown]
@[simp] theorem execEpochEnd_wf {s : State} (h : s.mem.wf = true) (part : Nat) : OutWf (execEpochEnd part s) := by simp [execEpochEnd, h]

@[simp] theorem hostPerform_wf {s : State} (h : s.mem.wf = true) (g : Group) (o : Op) (x : LaneOp) :
    (hostPerform s g o x).mem.wf = true := by
  simp [hostPerform, h]

@[simp] theorem hostLane_wf {s : State} (h : s.mem.wf = true) (id : Nat) (lane : Nat) : (hostLane id s lane).mem.wf = true := by
  fun_cases hostLane <;> simp [h]

@[simp] theorem execHostMemoryRequest_wf {s : State} (h : s.mem.wf = true) (op : Nat) (lanes : Mask) :
    OutWf (execHostMemoryRequest op lanes s) := by
  simp +contextual [execHostMemoryRequest, h]

@[simp] theorem hostLaneEnd_wf {s : State} (h : s.mem.wf = true) (o : Op) (lane : Nat) (ok : Bool) (vals : List W32) :
    (hostLaneEnd s o lane ok vals).mem.wf = true := by
  unfold hostLaneEnd
  (repeat' split) <;> simp [h, uniPut_wf]

@[simp] theorem execHostCompletion_wf {s : State} (h : s.mem.wf = true) (op lane : Nat) (ok : Bool) (vals : List W32) :
    OutWf (execHostCompletion op lane ok vals s) := by
  unfold execHostCompletion
  (repeat' split) <;> simp [h]

@[simp] theorem execSystemReleaseFlush_wf {s : State} (h : s.mem.wf = true) (g : Nat) : OutWf (execSystemReleaseFlush g s) := by
  simp [execSystemReleaseFlush, h]

/-! ### Sys2Proof/Machine/HostPort.lean -/

@[simp] theorem complete_mem (s : State) (r : HostReq) (status : Nat) (ep : Bool) (data : List Byte) :
    (complete s r status ep data).mem = s.mem := by
  simp [complete]

@[simp] theorem logUr_mem (s : State) : (logUr s).mem = s.mem := by simp [logUr]
@[simp] theorem logCfg_mem (s : State) : (logCfg s).mem = s.mem := by simp [logCfg]

@[simp] theorem execInboundPostedWrite_wf {s : State} (h : s.mem.wf = true) (req : HostReq) : OutWf (execInboundPostedWrite req s) := by
  simp [execInboundPostedWrite, h]

@[simp] theorem hostAccess_wf {s : State} (h : s.mem.wf = true) (part ua n : Nat) (o : Order) (k : FabricKind) :
    (hostAccess s part ua n o k).1.mem.wf = true :=
  fabricAccess_wf h _ ua

theorem inbReach_wf {s t : State} {w : Sender} {part ua : Nat} (h : s.mem.wf = true) (ht : inbReach s w part ua = .go t) : t.mem.wf = true := by
  unfold inbReach at ht
  dsimp only at ht
  split at ht
  · exact nomatch ht
  · split at ht
    · exact InbReach.go.inj ht ▸ h
    · exact InbReach.go.inj ht ▸ h
    · exact nomatch ht
    · split at ht
      · next hb =>
        split at ht
        · exact InbReach.go.inj ht ▸ backPage_wf h hb
        · exact nomatch ht
      · exact nomatch ht

@[simp] theorem countHost_mem (s : State) (part ua : Nat) : (countHost s part ua).mem = s.mem := by simp [countHost]
@[simp] theorem ackLine_mem (s : State) (req line : Nat) : (ackLine s req line).mem = s.mem := by simp [ackLine]

@[simp] theorem execInboundLineAck_wf {s : State} (h : s.mem.wf = true) (req line : Nat) : OutWf (execInboundLineAck req line s) := by
  unfold execInboundLineAck
  split
  · exact h
  · split
    · dsimp only
      split
      · simp [h]
      · split
        · exact h
        · simp [h]
        · next hg =>
          have ht := inbReach_wf h hg
          split <;> simp [h, ht]
    · exact h

theorem readLines_wf {w : Sender} {part : Nat} : ∀ {xs : List (Nat × Nat)} {s t : State} {ep : Bool} {bs : List Byte} {r : Nat × Bool × List Byte},
    s.mem.wf = true → readLines s w part ep bs xs = some (t, r) → t.mem.wf = true
  | [], _, _, _, _, _, h, ht => by
    rw [readLines, Option.some.injEq, Prod.mk.injEq] at ht
    exact ht.1 ▸ h
  | x :: xs, s, t, ep, bs, r, h, ht => by
    unfold readLines at ht
    split at ht
    · exact nomatch ht
    · rw [Option.some.injEq, Prod.mk.injEq] at ht
      exact ht.1 ▸ h
    · next hg => exact readLines_wf (hostAccess_wf (by simpa using inbReach_wf h hg) _ _ _ _ _) ht

@[simp] theorem execInboundRead_wf {s : State} (h : s.mem.wf = true) (req : HostReq) : OutWf (execInboundRead req s) := by
  unfold execInboundRead
  iterate 3 (split; · simp [h])
  split
  · exact h
  · next hr => simp [readLines_wf h hr]

@[simp] theorem execInboundAtomicop_wf {s : State} (h : s.mem.wf = true) (req : HostReq) : OutWf (execInboundAtomicop req s) := by
  unfold execInboundAtomicop
  dsimp only
  iterate 2 (split; · simp [h])
  split
  · simp [h]
  · split
    · exact h
    · split
      · exact h
      · simp [h]
      · next hg =>
        have ht := inbReach_wf h hg
        split <;> simp [ht]

@[simp] theorem execOtinvWrite_wf {s : State} (h : s.mem.wf = true) (part obj : Nat) : OutWf (execOtinvWrite part obj s) := by
  simp [execOtinvWrite, h]

@[simp] theorem dropCached_mem (s : State) (part : Nat) (bad : ObjEnt → Bool) : (dropCached s part bad).mem = s.mem := by simp [dropCached]

@[simp] theorem execOtinvComplete_wf {s : State} (h : s.mem.wf = true) (part : Nat) : OutWf (execOtinvComplete part s) := by
  simp [execOtinvComplete, h]

@[simp] theorem killPart_mem (s : State) (part : Nat) : (killPart s part).mem = s.mem := by simp [killPart]

@[simp] theorem emptyIntakes_mem (s : State) (part : Nat) (disable : Bool) : (emptyIntakes s part disable).mem = s.mem := by
  simp [emptyIntakes]

@[simp] theorem teardown_mem (s : State) (part : Nat) : (teardown s part).mem = s.mem := by simp [teardown]

@[simp] theorem pcfgWrite_mem (s : State) (part : Nat) (val : W64) (grant : List Nat) : (pcfgWrite s part val grant).mem = s.mem := by
  simp [pcfgWrite]

@[simp] theorem execPartitionEnable_wf {s : State} (h : s.mem.wf = true) (part : Nat) (val : W64) (grant : List Nat) :
    OutWf (execPartitionEnable part val grant s) := by
  simp [execPartitionEnable, h]

@[simp] theorem execPartitionTeardown_wf {s : State} (h : s.mem.wf = true) (part : Nat) : OutWf (execPartitionTeardown part s) := by
  simp [execPartitionTeardown, h]

@[simp] theorem dropUni_wf {s : State} (h : s.mem.wf = true) (part : Nat) : (dropUni s part).mem.wf = true := by
  simp [dropUni, h, memZero_wf]

@[simp] theorem execTeardownComplete_wf {s : State} (h : s.mem.wf = true) (part : Nat) : OutWf (execTeardownComplete part s) := by
  simp [execTeardownComplete, h]

@[simp] theorem resetPart_mem (s : State) (part : Nat) : (resetPart s part).mem = s.mem := by simp [resetPart]

@[simp] theorem execFunctionLevelReset_wf {s : State} (h : s.mem.wf = true) (func : Nat) : OutWf (execFunctionLevelReset func s) := by
  simp [execFunctionLevelReset, h]

/-! ### Sys2Proof/Machine/Front.lean -/

@[simp] theorem modQ_mem (s : State) (part q : Nat) (f : Queue → Queue) : (modQ s part q f).mem = s.mem := by simp [modQ]
@[simp] theorem partEvent_mem (s : State) (part : Nat) : (partEvent s part).mem = s.mem := by simp [partEvent]

@[simp] theorem execQinSubmission_wf {s : State} (h : s.mem.wf = true) (part queue : Nat) (bytes : List Byte) :
    OutWf (execQinSubmission part queue bytes s) := by
  simp [execQinSubmission, h]

@[simp] theorem execQcfgEnable_wf {s : State} (h : s.mem.wf = true) (part queue : Nat) (val : W64) :
    OutWf (execQcfgEnable part queue val s) := by
  simp [execQcfgEnable, h]

@[simp] theorem execQstatusClear_wf {s : State} (h : s.mem.wf = true) (part queue : Nat) (val : W64) :
    OutWf (execQstatusClear part queue val s) := by
  simp [execQstatusClear, h]

@[simp] theorem begun_mem (s : State) (part q n : Nat) : (begun s part q n).mem = s.mem := by simp [begun]
@[simp] theorem tookTurn_mem (s : State) (part q : Nat) : (tookTurn s part q).mem = s.mem := by simp [tookTurn]

theorem cmdStep_wf {s : State} (h : s.mem.wf = true) (part q : Nat) (isKind : Nat → Bool) {reject : State → CmdPkt → Nat → State}
    {f : State → CmdPkt → State}
    (hr : ∀ s c k, s.mem.wf = true → (reject s c k).mem.wf = true) (hf : ∀ s c, s.mem.wf = true → (f s c).mem.wf = true) :
    OutWf (cmdStep part q isKind reject f s) := by
  have h1 : (tookTurn (begun s part q 1) part q).mem.wf = true := by simp [h]
  unfold cmdStep
  dsimp only
  split
  · exact h
  · split
    · exact h
    · split
      · exact hf _ _ h1
      · split
        · exact hf _ _ h1
        · exact hr _ _ _ h1

@[simp] theorem execCmdNop_wf {s : State} (h : s.mem.wf = true) (part queue : Nat) : OutWf (execCmdNop part queue s) :=
  cmdStep_wf h _ _ _ (fun _ _ _ hs => hs) (fun _ _ hs => hs)

@[simp] theorem execCmdFence_wf {s : State} (h : s.mem.wf = true) (part queue : Nat) : OutWf (execCmdFence part queue s) :=
  cmdStep_wf h _ _ _ (fun _ _ _ hs => hs) (fun _ _ hs => hs)

@[simp] theorem frontWrite_wf {s : State} (h : s.mem.wf = true) (part ua : Nat) (bs : List Byte) :
    (frontWrite s part ua bs).mem.wf = true := by
  simp [frontWrite, h]

@[simp] theorem writeCompletion_wf {s : State} (h : s.mem.wf = true) (part q p : Nat) (bs : List Byte) :
    (writeCompletion s part q p bs).mem.wf = true := by
  unfold writeCompletion
  extract_lets s1 back
  have h1 : s1.mem.wf = true := h
  clear_value s1
  have hback {t : State} (ht : t.mem.wf = true) (a : Nat) : (back t a).mem.wf = true := by
    unfold back
    split
    · cases hb : backPage t part (a / 4096) (hostHalf (partAt t part)) with
      | none => exact ht
      | some u => exact backPage_wf ht hb
    · exact ht
  split
  · exact h1
  · have h2 (ua : Nat) : (back (back s1 ua) (ua + 127)).mem.wf = true := hback (hback h1 ua) _
    simp [h2]

@[simp] theorem rejectGraph_wf {s : State} (h : s.mem.wf = true) (part q : Nat) (c : CmdPkt) (code : Nat) :
    (rejectGraph part q s c code).mem.wf = true := by
  simp [rejectGraph, h]

@[simp] theorem execCmdBegin_wf {s : State} (h : s.mem.wf = true) (part queue : Nat) : OutWf (execCmdBegin part queue s) := by
  unfold execCmdBegin
  dsimp only
  split
  · exact h
  · split
    · exact foldl_state_wf (fun s c hs => rejectGraph_wf hs _ _ _ _) _ (by simp [h])
    · split <;> simp [h]

@[simp] theorem execCmdCommit_wf {s : State} (h : s.mem.wf = true) (part queue : Nat) : OutWf (execCmdCommit part queue s) := by
  unfold execCmdCommit
  dsimp only
  split
  · exact h
  · iterate 3 (split; · simp [h])
    split
    · simp [h]
    · exact foldl_state_wf (fun s c hs => rejectGraph_wf hs _ _ _ _) _ (by simp [h])

@[simp] theorem execCmdGraph_wf {s : State} (h : s.mem.wf = true) (part queue : Nat) : OutWf (execCmdGraph part queue s) := by
  refine cmdStep_wf h _ _ _ (fun s c k hs => rejectGraph_wf hs _ _ _ _) (fun s c hs => ?_)
  split
  · exact hs
  · split <;> exact hs

@[simp] theorem execCmdRcreate_wf {s : State} (h : s.mem.wf = true) (part queue : Nat) : OutWf (execCmdRcreate part queue s) :=
  cmdStep_wf h _ _ _ (fun _ _ _ hs => hs) (fun _ _ hs => hs)

@[simp] theorem dropDead_mem (s : State) (part : Nat) : (dropDead s part).mem = s.mem := by simp [dropDead]

@[simp] theorem execCmdRdestroy_wf {s : State} (h : s.mem.wf = true) (part queue : Nat) : OutWf (execCmdRdestroy part queue s) :=
  cmdStep_wf h _ _ _ (fun _ _ _ hs => hs) (fun s c hs => by simp [hs])

@[simp] theorem modNode_mem (s : State) (run i : Nat) (f : Node → Node) : (modNode s run i f).mem = s.mem := by simp [modNode]
@[simp] theorem dropCode_mem (s : State) (g : Grid) : (dropCode s g).mem = s.mem := by simp [dropCode]

@[simp] theorem execGridStart_wf {s : State} (h : s.mem.wf = true) (run node : Nat) : OutWf (execGridStart run node s) := by
  fun_cases execGridStart <;> simp +zetaDelta [h]

@[simp] theorem execGridComplete_wf {s : State} (h : s.mem.wf = true) (grid : Nat) : OutWf (execGridComplete grid s) := by
  fun_cases execGridComplete <;> simp +zetaDelta [h]

@[simp] theorem execRunComplete_wf {s : State} (h : s.mem.wf = true) (run : Nat) : OutWf (execRunComplete run s) := by
  fun_cases execRunComplete <;> simp [h]

@[simp] theorem returnClaim_mem (s : State) (core : Nat) : (returnClaim s core).mem = s.mem := by
  fun_cases returnClaim <;> simp

@[simp] theorem execFirmwareRestart_wf {s : State} (h : s.mem.wf = true) : OutWf (execFirmwareRestart s) := by simp [execFirmwareRestart, h]

@[simp] theorem execFirmwareRestartEnd_wf {s : State} (h : s.mem.wf = true) : OutWf (execFirmwareRestartEnd s) := by
  simp [execFirmwareRestartEnd, h]

@[simp] theorem execWatchdogPreempt_wf {s : State} (h : s.mem.wf = true) (grid : Nat) : OutWf (execWatchdogPreempt grid s) := by
  fun_cases execWatchdogPreempt <;> simp [h]

@[simp] theorem execWatchdogKill_wf {s : State} (h : s.mem.wf = true) (grid : Nat) : OutWf (execWatchdogKill grid s) := by
  fun_cases execWatchdogKill <;> simp [h]

@[simp] theorem execWatchdogFence_wf {s : State} (h : s.mem.wf = true) (grid : Nat) : OutWf (execWatchdogFence grid s) := by
  fun_cases execWatchdogFence <;> simp [h]

/-! ### Sys2Proof/Machine/Agent.lean -/

@[simp] theorem agentReturn_wf {s : State} (h : s.mem.wf = true) (o : Op) (v : Nat) : (agentReturn s o v).mem.wf = true := by
  unfold agentReturn
  (repeat' split) <;> simp +contextual [h]

@[simp] theorem agentFly_wf {s : State} (h : s.mem.wf = true) (op : Nat) (f : FormR) (sp : LaneSpec) (ctr : Nat)
    (kind : State → Nat → Nat → OpKind) :
    OutWf (agentFly op f sp ctr kind s) := by
  refine onceR_wf h _ f _ fun s x c w eff hs hx => ?_
  simp [hs, hx]

@[simp] theorem execTclaim_wf {s : State} (h : s.mem.wf = true) (f : FormR) : OutWf (execTclaim f s) := by simp [execTclaim, h]

@[simp] theorem claim_mem (s : State) (part core num : Nat) : (claim s part core num).1.mem = s.mem := by
  fun_cases claim <;> simp +zetaDelta

theorem makeRoomAll_mem {s t : State} (need : List (Nat × Nat))
    (ht : need.foldl (fun (t : Option State) x => t.bind fun t => makeRoomFor t x.1 x.2 t.nextId) (some s) = some t) : t.mem = s.mem := by
  refine List.foldlRecOn need _ (motive := fun o : Option State => ∀ t, o = some t → t.mem = s.mem) (fun t ht => Option.some.inj ht ▸ rfl) ?_ t ht
  intro o ho x _ t ht
  obtain ⟨u, hu, hr⟩ := Option.bind_eq_some_iff.1 ht
  exact (makeRoomFor_mem hr).trans (ho u hu)

theorem reserve_mem {s t : State} {g : Grid} {agent : Nat} {cores : List Nat} (ht : reserve s g agent cores = some t) : t.mem = s.mem := by
  unfold reserve at ht
  dsimp only at ht
  split at ht
  · next hroom _ =>
    split at ht
    · exact nomatch ht
    · rw [← Option.some.inj ht, modCore_mem]
      exact (foldl_state_mem (fun _ _ => by simp) _ _).trans (makeRoomAll_mem _ hroom)
  · exact nomatch ht

@[simp] theorem placeRsv_mem (s : State) (part core num : Nat) : (placeRsv s part core num).1.mem = s.mem := by
  unfold placeRsv
  split
  · rfl
  · iterate 2 (split; · rfl)
    split
    · next ht => exact reserve_mem ht
    · rfl

@[simp] theorem bindCtx_mem (s : State) (g : Grid) (team idx : Nat) (core rank gran : Nat) :
    (bindCtx s g team idx core rank gran).mem = s.mem := by
  simp [bindCtx]

@[simp] theorem bindGroups_mem (s : State) (g : Grid) (team : Nat) (slots : List SlotAt) : (bindGroups s g team slots).mem = s.mem := by
  simp [bindGroups]

@[simp] theorem placeBind_wf {s : State} (h : s.mem.wf = true) (part core num idx : Nat) :
    (placeBind s part core num idx).1.mem.wf = true := by
  fun_cases placeBind <;> simp +zetaDelta [h]

@[simp] theorem placeFree_mem (s : State) (core : Nat) : (placeFree s core).1.mem = s.mem := by
  fun_cases placeFree <;> simp

@[simp] theorem execTplace_wf {s : State} (h : s.mem.wf = true) (f : FormR) : OutWf (execTplace f s) := by
  refine onceR_wf h _ f _ fun s x0 c w eff hs hx0 => ?_
  extract_lets x l core part num cores r
  have hx : x.m.wf = true := by simp [x, hx0]
  have hr : r.1.mem.wf = true := by
    unfold r
    split <;> simp [hx]
  split
  · simp [hs]
  · exact modGM_wf hr _ _ fun y hy => by simp [hy]

@[simp] theorem execGdec_wf {s : State} (h : s.mem.wf = true) (f : FormR) : OutWf (execGdec f s) := by simp [execGdec, h]

@[simp] theorem decNode_mem (s : State) (part num node : Nat) : (decNode s part num node).1.mem = s.mem := by
  fun_cases decNode <;> simp +zetaDelta

@[simp] theorem execQtake_wf {s : State} (h : s.mem.wf = true) (f : FormR) : OutWf (execQtake f s) := by
  refine onceR_wf h _ f _ fun s x c w eff hs hx => ?_
  dsimp only
  (repeat' split) <;> simp [hs, hx]

@[simp] theorem execQack_wf {s : State} (h : s.mem.wf = true) (f : FormR) : OutWf (execQack f s) := by simp [execQack, h]

@[simp] theorem takePkt_wf {s : State} (h : s.mem.wf = true) (part core : Nat) (loc : Loc) : (takePkt s part core loc).1.mem.wf = true := by
  fun_cases takePkt <;> simp +zetaDelta [h]

@[simp] theorem ackPkt_mem (s : State) (part core q seq : Nat) : (ackPkt s part core q seq).1.mem = s.mem := by
  fun_cases ackPkt <;> simp

@[simp] theorem execQtakeQackComplete_wf {s : State} (h : s.mem.wf = true) (op : Nat) : OutWf (execQtakeQackComplete op s) := by
  fun_cases execQtakeQackComplete <;> simp +zetaDelta [h]

@[simp] theorem execPoolLoadReturn_wf {s : State} (h : s.mem.wf = true) (op : Nat) (acc : LaneBytes) :
    OutWf (execPoolLoadReturn op acc s) := by
  fun_cases execPoolLoadReturn <;> simp [h]

@[simp] theorem execAtomicPerformed_wf {s : State} (h : s.mem.wf = true) (op : Nat) (lanes : Mask) :
    OutWf (execAtomicPerformed op lanes s) := by
  fun_cases execAtomicPerformed <;> simp +zetaDelta [h]

/-! ### Sys2Proof/Machine/Power.lean -/

@[simp] theorem modStack_mem (s : State) (k : Nat) (f : StackPower → StackPower) : (modStack s k f).mem = s.mem := by simp [modStack]

@[simp] theorem stacksNext_mem (env : PowerEnv) (rows : List GrantRow) (s : State) : (stacksNext env rows s).mem = s.mem :=
  foldl_state_mem (fun s k => by split <;> simp) _ s

@[simp] theorem slicesNext_mem (s : State) : (slicesNext s).mem = s.mem := by simp [slicesNext]

@[simp] theorem execControlInterval_wf {s : State} (h : s.mem.wf = true) (env : PowerEnv) : OutWf (execControlInterval env s) := by
  simp +contextual [execControlInterval, h]

@[simp] theorem execFcapWrite_wf {s : State} (h : s.mem.wf = true) (val : W64) : OutWf (execFcapWrite val s) := by simp [execFcapWrite, h]

@[simp] theorem execCurrentRatingReached_wf {s : State} (h : s.mem.wf = true) (stack : Nat) : OutWf (execCurrentRatingReached stack s) := by
  simp [execCurrentRatingReached, h]

@[simp] theorem execRatioChange_wf {s : State} (h : s.mem.wf = true) (stack : Nat) : OutWf (execRatioChange stack s) := by
  simp +contextual [execRatioChange, h]

@[simp] theorem execSquall_wf {s : State} (h : s.mem.wf = true) (core : Nat) : OutWf (execSquall core s) := by simp [execSquall, h]

@[simp] theorem execSquallStretchEnd_wf {s : State} (h : s.mem.wf = true) (core : Nat) : OutWf (execSquallStretchEnd core s) := by
  simp [execSquallStretchEnd, h]

@[simp] theorem capCore_mem (s : State) (core : Nat) : (capCore s core).mem = s.mem := by simp [capCore]

@[simp] theorem execClauseReexecute_wf {s : State} (h : s.mem.wf = true) (gid : Nat) : OutWf (execClauseReexecute gid s) := by
  fun_cases execClauseReexecute <;> simp +zetaDelta [h]

@[simp] theorem execPwrq_wf {s : State} (h : s.mem.wf = true) (f : FormR) : OutWf (execPwrq f s) := by
  refine onceR_wf h _ f _ fun s x c w eff hs hx => ?_
  simp [hx]

@[simp] theorem execPwrarm_wf {s : State} (h : s.mem.wf = true) (f : FormR) : OutWf (execPwrarm f s) := by
  refine onceR_wf h _ f _ fun s x c w eff hs hx => ?_
  simp [hx]

/-! ### Sys2Proof/Machine/Veer.lean -/

@[simp] theorem execVeerInstant_wf {s : State} (h : s.mem.wf = true) (stack : Nat) (heats : List Nat) :
    OutWf (execVeerInstant stack heats s) := by
  fun_cases execVeerInstant <;> simp +zetaDelta [h]

@[simp] theorem veerStop_wf {s : State} (h : s.mem.wf = true) (g : Group) : (veerStop s g).mem.wf = true := by
  unfold veerStop
  rw [dropWaiter_mem, allocDrop_mem]
  exact modGM_wf h _ _ fun x hx => ocRelease_wf _ (landAll_wf x hx)

@[simp] theorem stopUnits_wf {s : State} (h : s.mem.wf = true) (units : List Nat) : (stopUnits s units).mem.wf = true := by
  simp +contextual [stopUnits, h]

@[simp] theorem setVeer_mem (s : State) (stack : Nat) (v : Option Veer) : (setVeer s stack v).mem = s.mem := by simp [setVeer]

@[simp] theorem pauseUnits_mem (s : State) (units : List Nat) : (pauseUnits s units).mem = s.mem :=
  (throttleAll_mem _).trans (foldl_state_mem (fun _ _ => by simp) _ _)

@[simp] theorem exchange_mem (s : State) (a b : Nat) : (exchange s a b).mem = s.mem := by simp [exchange]
@[simp] theorem countVeers_mem (s : State) (units : List Nat) : (countVeers s units).mem = s.mem := by simp [countVeers]

@[simp] theorem moveUnits_wf {s : State} (h : s.mem.wf = true) (stack : Nat) (v : Veer) : (moveUnits s stack v).mem.wf = true := by
  unfold moveUnits
  (repeat' split) <;> simp [h]

@[simp] theorem execVeerStart_wf {s : State} (h : s.mem.wf = true) (stack : Nat) : OutWf (execVeerStart stack s) := by
  fun_cases execVeerStart <;> simp +zetaDelta [h]

@[simp] theorem execVeerPauseEnd_wf {s : State} (h : s.mem.wf = true) (stack : Nat) : OutWf (execVeerPauseEnd stack s) := by
  unfold execVeerPauseEnd
  split
  · exact h
  · extract_lets units s1 runs src s2 s3 halting
    have h1 : s1.mem = s.mem := foldl_state_mem (fun _ _ => by simp) units s
    have h2 : s2.mem = s1.mem := by simp [s2, src]
    have h3 : s3.mem = s2.mem := foldl_state_mem (fun t c => by simp) units s2
    clear_value s3 halting
    split
    · exact h
    · refine foldl_state_wf (fun s c hs => ?_) halting (by rw [h3, h2, h1, h])
      rw [haltDone_mem]
      exact foldl_state_wf (fun s g hs => by simp [hs]) _ hs

@[simp] theorem execVeerhold_wf {s : State} (h : s.mem.wf = true) (f : FormR) : OutWf (execVeerhold f s) := by
  refine onceR_wf h _ f _ fun s x c w eff hs hx => ?_
  simp [hx]

/-! ### Sys2Proof/Machine/Reset.lean -/

@[simp] theorem keepOutside_wf {s : State} (h : s.mem.wf = true) (t : State) : (keepOutside s t).mem.wf = true := hostMem_wf h
@[simp] theorem execModulePowerOn_wf {s : State} (h : s.mem.wf = true) : OutWf (execModulePowerOn s) := by simp [execModulePowerOn, h]
@[simp] theorem moduleReset_wf {s : State} (h : s.mem.wf = true) : (moduleReset s).mem.wf = true := by simp [moduleReset, h]
@[simp] theorem execBaseDieAError_wf {s : State} (h : s.mem.wf = true) : OutWf (execBaseDieAError s) := by simp [execBaseDieAError, h]
@[simp] theorem dieRestart_mem (s : State) (die : Nat) : (dieRestart s die).mem = s.mem := by simp [dieRestart]
@[simp] theorem coreRestart_mem (s : State) (core : Nat) : (coreRestart s core).mem = s.mem := by simp [coreRestart]

@[simp] theorem computeReset_wf {s : State} (h : s.mem.wf = true) (die : Nat) : (computeReset s die).mem.wf = true := by
  simp +contextual [computeReset, h]

@[simp] theorem partFault_mem (s : State) (part : Nat) : (partFault s part).mem = s.mem := by simp [partFault]

@[simp] theorem failLanes_wf {s : State} (h : s.mem.wf = true) (ls : List (Nat × Nat)) (sub : Nat) : (failLanes s ls sub).mem.wf = true :=
  foldl_state_wf (fun s x hs => by split <;> simp [hs]) ls h

@[simp] theorem baseBReset_wf {s : State} (h : s.mem.wf = true) : (baseBReset s).mem.wf = true := by
  unfold baseBReset
  extract_lets s1 s2 s3
  have h2 : s2.mem.wf = true := by simp [s2, s1, h]
  exact failLanes_wf h2 _ _

@[simp] theorem execBaseDieBError_wf {s : State} (h : s.mem.wf = true) : OutWf (execBaseDieBError s) := by simp [execBaseDieBError, h]

@[simp] theorem execDieReset_wf {s : State} (h : s.mem.wf = true) (die : Nat) : OutWf (execDieReset die s) := by
  unfold execDieReset
  (repeat' split) <;> simp [h]

@[simp] theorem execTargetResetCompletion_wf {s : State} (h : s.mem.wf = true) (die target : Nat) :
    OutWf (execTargetResetCompletion die target s) := by
  unfold execTargetResetCompletion
  (repeat' split) <;> simp +contextual [h]

@[simp] theorem execIncarnationTableLoad_wf {s : State} (h : s.mem.wf = true) (die : Nat) : OutWf (execIncarnationTableLoad die s) := by
  simp [execIncarnationTableLoad, h]

@[simp] theorem execIncarnationAnnounce_wf {s : State} (h : s.mem.wf = true) (die : Nat) : OutWf (execIncarnationAnnounce die s) := by
  simp [execIncarnationAnnounce, h]

/-! ### Sys2Proof/Machine/Regs.lean -/

@[simp] theorem nextOf_wf {s : State} (h : s.mem.wf = true) {o : Out} (ho : OutWf o) : (nextOf s o).mem.wf = true := by
  cases o with
  | next t => exact ho
  | fault _ | refused _ => exact h

@[simp] theorem partReg_wf {s : State} (h : s.mem.wf = true) (p off : Nat) (v : W64) : (partReg s p off v).mem.wf = true := by
  fun_cases partReg <;> simp [h]

@[simp] theorem hreqSubmit_wf {s : State} (h : s.mem.wf = true) (v : W64) : (hreqSubmit s v).mem.wf = true := by
  refine nextOf_wf h ?_
  split <;> simp [h]

@[simp] theorem powerReg_mem (s : State) (p off : Nat) (v : W64) : (powerReg s p off v).mem = s.mem := by
  fun_cases powerReg <;> simp

@[simp] theorem veerCtl_mem (s : State) (v : W64) : (veerCtl s v).mem = s.mem := by simp [veerCtl]

@[simp] theorem pfReg_wf {s : State} (h : s.mem.wf = true) (off : Nat) (v : W64) : (pfReg s off v).mem.wf = true := by
  fun_cases pfReg <;> simp +zetaDelta [h]

@[simp] theorem qwdogWrite_mem (s : State) (part q : Nat) (v : W64) : (qwdogWrite s part q v).mem = s.mem := by simp [qwdogWrite]

@[simp] theorem vfReg_wf {s : State} (h : s.mem.wf = true) (part off : Nat) (v : W64) : (vfReg s part off v).mem.wf = true := by
  unfold vfReg
  dsimp only
  iterate 2 (split; · simp [h])
  split <;> simp [h]

@[simp] theorem execRegisterWrite_wf {s : State} (h : s.mem.wf = true) (func off : Nat) (val : W64) :
    OutWf (execRegisterWrite func off val s) := by
  unfold execRegisterWrite
  (repeat' split) <;> simp [h]

@[simp] theorem putImport_mem (s : State) (part : Nat) (k : ObjKey) (len rights : Nat) : (putImport s part k len rights).mem = s.mem := by
  simp [putImport]

@[simp] theorem execMctpMessage_wf {s : State} (h : s.mem.wf = true) (msg : MctpMsg) : OutWf (execMctpMessage msg s) := by
  unfold execMctpMessage
  (repeat' split) <;> simp [h]

/-! ### Every instruction and event -/

theorem exec_wf (i : Instr) {s : State} (h : s.mem.wf = true) : OutWf (exec i s) := by
  cases i with
  | nop f => exact execNop_wf h f
  | mov f => exact (runLane_wf h _ f _ _ _ : OutWf (execMov f s))
  | movi f => exact (runLaneW_wf h _ _ _ _ _ : OutWf (execMovi f s))
  | movh f => exact (runLaneW_wf h _ _ _ _ _ : OutWf (execMovh f s))
  | sel f => exact (runLane_wf h _ f _ _ _ : OutWf (execSel f s))
  | iadd f => exact (runLane_wf h _ f _ _ _ : OutWf (execIadd f s))
  | isub f => exact (runLane_wf h _ f _ _ _ : OutWf (execIsub f s))
  | iaddc f => exact (runLane_wf h _ f _ _ _ : OutWf (execIaddc f s))
  | isubb f => exact (runLane_wf h _ f _ _ _ : OutWf (execIsubb f s))
  | ineg f => exact (runLane_wf h _ f _ _ _ : OutWf (execIneg f s))
  | iabs f => exact (runLane_wf h _ f _ _ _ : OutWf (execIabs f s))
  | imin f => exact (runLane_wf h _ f _ _ _ : OutWf (execImin f s))
  | imax f => exact (runLane_wf h _ f _ _ _ : OutWf (execImax f s))
  | imul f => exact (runLane_wf h _ f _ _ _ : OutWf (execImul f s))
  | imulh f => exact (runLane_wf h _ f _ _ _ : OutWf (execImulh f s))
  | imad f => exact (runLane_wf h _ f _ _ _ : OutWf (execImad f s))
  | imadw f => exact (runLane_wf h _ f _ _ _ : OutWf (execImadw f s))
  | idiv f => exact execIdiv_wf h f
  | irem f => exact execIrem_wf h f
  | icmp f => exact (runLane_wf h _ f _ _ _ : OutWf (execIcmp f s))
  | and f => exact (runLane_wf h _ f _ _ _ : OutWf (execAnd f s))
  | or f => exact (runLane_wf h _ f _ _ _ : OutWf (execOr f s))
  | xor f => exact (runLane_wf h _ f _ _ _ : OutWf (execXor f s))
  | not f => exact (runLane_wf h _ f _ _ _ : OutWf (execNot f s))
  | andn f => exact (runLane_wf h _ f _ _ _ : OutWf (execAndn f s))
  | shl f => exact (runLane_wf h _ f _ _ _ : OutWf (execShl f s))
  | shr f => exact (runLane_wf h _ f _ _ _ : OutWf (execShr f s))
  | sar f => exact (runLane_wf h _ f _ _ _ : OutWf (execSar f s))
  | rot f => exact (runLane_wf h _ f _ _ _ : OutWf (execRot f s))
  | funnel f => exact (runLane_wf h _ f _ _ _ : OutWf (execFunnel f s))
  | bfe f => exact (runLane_wf h _ f _ _ _ : OutWf (execBfe f s))
  | bfi f => exact (runLane_wf h _ f _ _ _ : OutWf (execBfi f s))
  | popc f => exact (runLane_wf h _ f _ _ _ : OutWf (execPopc f s))
  | clz f => exact (runLane_wf h _ f _ _ _ : OutWf (execClz f s))
  | ctz f => exact (runLane_wf h _ f _ _ _ : OutWf (execCtz f s))
  | brev f => exact (runLane_wf h _ f _ _ _ : OutWf (execBrev f s))
  | bperm f => exact (runLane_wf h _ f _ _ _ : OutWf (execBperm f s))
  | lea f => exact (runLane_wf h _ f _ _ _ : OutWf (execLea f s))
  | ptrmk f => exact (runWhole_wf h _ f _ _ _ : OutWf (execPtrmk f s))
  | ptradd f => exact (runWhole_wf h _ f _ _ _ : OutWf (execPtradd f s))
  | ptrget f => exact (runLane_wf h _ f _ _ _ : OutWf (execPtrget f s))
  | lshuf f => exact (runCross_wf h _ f _ _ _ : OutWf (execLshuf f s))
  | lbcast f => exact (runCross_wf h _ f _ _ _ : OutWf (execLbcast f s))
  | lvote f => exact (runCross_wf h _ f _ _ _ : OutWf (execLvote f s))
  | lscan f => exact (runCross_wf h _ f _ _ _ : OutWf (execLscan f s))
  | lreduce f => exact (runCross_wf h _ f _ _ _ : OutWf (execLreduce f s))
  | kop f => exact (runLane_wf h _ f _ _ _ : OutWf (execKop f s))
  | kmov f => exact execKmov_wf h f
  | fadd f => exact (runLane_wf h _ f _ _ _ : OutWf (execFadd f s))
  | fsub f => exact (runLane_wf h _ f _ _ _ : OutWf (execFsub f s))
  | fmul f => exact (runLane_wf h _ f _ _ _ : OutWf (execFmul f s))
  | ffma f => exact (runLane_wf h _ f _ _ _ : OutWf (execFfma f s))
  | fmin f => exact (runLane_wf h _ f _ _ _ : OutWf (execFmin f s))
  | fmax f => exact (runLane_wf h _ f _ _ _ : OutWf (execFmax f s))
  | fminnum f => exact (runLane_wf h _ f _ _ _ : OutWf (execFminnum f s))
  | fmaxnum f => exact (runLane_wf h _ f _ _ _ : OutWf (execFmaxnum f s))
  | fcmp f => exact (runLane_wf h _ f _ _ _ : OutWf (execFcmp f s))
  | fclass f => exact (runLane_wf h _ f _ _ _ : OutWf (execFclass f s))
  | frnd f => exact (runLane_wf h _ f _ _ _ : OutWf (execFrnd f s))
  | ffrac f => exact (runLane_wf h _ f _ _ _ : OutWf (execFfrac f s))
  | fscale f => exact (runLane_wf h _ f _ _ _ : OutWf (execFscale f s))
  | fgetexp f => exact (runLane_wf h _ f _ _ _ : OutWf (execFgetexp f s))
  | frcp f => exact (runLane_wf h _ f _ _ _ : OutWf (execFrcp f s))
  | frsq f => exact (runLane_wf h _ f _ _ _ : OutWf (execFrsq f s))
  | fsqrt f => exact (runLane_wf h _ f _ _ _ : OutWf (execFsqrt f s))
  | fdiv f => exact (runLane_wf h _ f _ _ _ : OutWf (execFdiv f s))
  | fexp2 f => exact (runLane_wf h _ f _ _ _ : OutWf (execFexp2 f s))
  | flog2 f => exact (runLane_wf h _ f _ _ _ : OutWf (execFlog2 f s))
  | fsin f => exact (runLane_wf h _ f _ _ _ : OutWf (execFsin f s))
  | fcos f => exact (runLane_wf h _ f _ _ _ : OutWf (execFcos f s))
  | ftanh f => exact (runLane_wf h _ f _ _ _ : OutWf (execFtanh f s))
  | fsigm f => exact (runLane_wf h _ f _ _ _ : OutWf (execFsigm f s))
  | cvtf f => exact (runLane_wf h _ f _ _ _ : OutWf (execCvtf f s))
  | cvti f => exact (runLane_wf h _ f _ _ _ : OutWf (execCvti f s))
  | cvtfi f => exact (runLane_wf h _ f _ _ _ : OutWf (execCvtfi f s))
  | fpack f => exact (runLane_wf h _ f _ _ _ : OutWf (execFpack f s))
  | funpack f => exact (runLane_wf h _ f _ _ _ : OutWf (execFunpack f s))
  | qnt f => exact (runCross_wf h _ f _ _ _ : OutWf (execQnt f s))
  | dqnt f => exact (runLane_wf h _ f _ _ _ : OutWf (execDqnt f s))
  | fdot2 f => exact (runLane_wf h _ f _ _ _ : OutWf (execFdot2 f s))
  | fdot4 f => exact (runLane_wf h _ f _ _ _ : OutWf (execFdot4 f s))
  | fdot8 f => exact (runLane_wf h _ f _ _ _ : OutWf (execFdot8 f s))
  | ld f => exact execLd_wf h f
  | st f => exact execSt_wf h f
  | ldnp f => exact execLdnp_wf h f
  | ldb f => exact execLdb_wf h f
  | atom f => exact execAtom_wf h f
  | acas f => exact execAcas_wf h f
  | red f => exact execRed_wf h f
  | fence f => exact execFence_wf h f
  | pgrow f => exact execPgrow_wf h f
  | pshrink f => exact execPshrink_wf h f
  | fgrow f => exact execFgrow_wf h f
  | fshrink f => exact execFshrink_wf h f
  | ocfill f => exact execOcfill_wf h f
  | ocdrop f => exact execOcdrop_wf h f
  | ocsync f => exact execOcsync_wf h f
  | lpin f => exact execLpin_wf h f
  | lunpin f => exact execLunpin_wf h f
  | linv f => exact execLinv_wf h f
  | lwb f => exact execLwb_wf h f
  | pres f => exact execPres_wf h f
  | objq f => exact execObjq_wf h f
  | ptrchk f => exact execPtrchk_wf h f
  | advise f => exact execAdvise_wf h f
  | bra f => exact execBra_wf h f
  | brc f => exact execBrc_wf h f
  | brx f => exact execBrx_wf h f
  | call f => exact execCall_wf h f
  | callx f => exact execCallx_wf h f
  | ret f => exact execRet_wf h f
  | loop f => exact execLoop_wf h f
  | fspawn f => exact execFspawn_wf h f
  | fend f => exact execFend_wf h f
  | fyield f => exact execFyield_wf h f
  | exit f => exact execExit_wf h f
  | sleep f => exact execSleep_wf h f
  | gets f => exact execGets_wf h f
  | sets f => exact execSets_wf h f
  | trap f => exact execTrap_wf h f
  | tret f => exact execTret_wf h f
  | tmask f => exact execTmask_wf h f
  | tinfo f => exact (runLaneG_wf h _ f _ _ _ : OutWf (execTinfo f s))
  | tsub f => exact execTsub_wf h f
  | ctxsave f => exact execCtxsave_wf h f
  | ctxload f => exact execCtxload_wf h f
  | halt f => exact execHalt_wf h f
  | preq f => exact execPreq_wf h f
  | binit f => exact execBinit_wf h f
  | barv f => exact execBarv_wf h f
  | bexp f => exact execBexp_wf h f
  | bwait f => exact execBwait_wf h f
  | bcont f => exact execBcont_wf h f
  | await f => exact execAwait_wf h f
  | watch f => exact execWatch_wf h f
  | pause f => exact execPause_wf h f
  | tbar f => exact execTbar_wf h f
  | sbar f => exact execSbar_wf h f
  | gbar f => exact execGbar_wf h f
  | cpy f => exact execCpy_wf h f
  | gath f => exact execGath_wf h f
  | scat f => exact execScat_wf h f
  | cfill f => exact execCfill_wf h f
  | orsv f => exact execOrsv_wf h f
  | orel f => exact execOrel_wf h f
  | oqry f => exact execOqry_wf h f
  | mma f => exact execMma_wf h f
  | azero f => exact execAzero_wf h f
  | amov f => exact execAmov_wf h f
  | ains f => exact execAins_wf h f
  | adrain f => exact execAdrain_wf h f
  | jst f => exact execJst_wf h f
  | jld f => exact execJld_wf h f
  | jldn f => exact execJldn_wf h f
  | jadd f => exact execJadd_wf h f
  | jtrade f => exact execJtrade_wf h f
  | jqry f => exact execJqry_wf h f
  | coll f => exact execColl_wf h f
  | xfence f => exact execXfence_wf h f
  | xqry f => exact execXqry_wf h f
  | pwrq f => exact execPwrq_wf h f
  | pwrarm f => exact execPwrarm_wf h f
  | veerhold f => exact execVeerhold_wf h f
  | tclaim f => exact execTclaim_wf h f
  | tplace f => exact execTplace_wf h f
  | gdec f => exact execGdec_wf h f
  | qtake f => exact execQtake_wf h f
  | qack f => exact execQack_wf h f
  | clauseStart g refetch => exact execClauseStart_wf h g refetch
  | clauseBoundary g => exact execClauseBoundary_wf h g
  | sliceIssue core slice => exact execSliceIssue_wf h core slice
  | groupUrgent g => exact execGroupUrgent_wf h g
  | fixedLatencyLanding g => exact execFixedLatencyLanding_wf h g
  | switchPoint g => exact execSwitchPoint_wf h g
  | entrySetAcquire g => exact execEntrySetAcquire_wf h g
  | operandCacheFillDone g => exact execOperandCacheFillDone_wf h g
  | ocdropComplete op => exact execOcdropComplete_wf h op
  | ocsyncComplete op => exact execOcsyncComplete_wf h op
  | poolLoadReturn op acc => exact execPoolLoadReturn_wf h op acc
  | storePerformed op acc => exact execStorePerformed_wf h op acc
  | atomicPerformed op lanes => exact execAtomicPerformed_wf h op lanes
  | parkedLoadWake op => exact execParkedLoadWake_wf h op
  | fenceDrainDone g => exact execFenceDrainDone_wf h g
  | objectCacheFill core obj => exact execObjectCacheFill_wf h core obj
  | lpinFillDone ctx line => exact execLpinFillDone_wf h ctx line
  | allocatorAnswer core => exact execAllocatorAnswer_wf h core
  | stallGrowRetry core => exact execStallGrowRetry_wf h core
  | stallGrowTimeout g => exact execStallGrowTimeout_wf h g
  | shrinkAfterCopies g => exact execShrinkAfterCopies_wf h g
  | sleepWake g => exact execSleepWake_wf h g
  | groupLeaveSlot g => exact execGroupLeaveSlot_wf h g
  | teamEnd team => exact execTeamEnd_wf h team
  | trapDelivery g => exact execTrapDelivery_wf h g
  | switchPointTrap g => exact execSwitchPointTrap_wf h g
  | throttleTrap team => exact execThrottleTrap_wf h team
  | haltRequest ctx => exact execHaltRequest_wf h ctx
  | groupHalted g => exact execGroupHalted_wf h g
  | gridKill grid => exact execGridKill_wf h grid
  | killComplete ctx => exact execKillComplete_wf h ctx
  | barrierUpdate upd => exact execBarrierUpdate_wf h upd
  | phaseWaiterWake g => exact execPhaseWaiterWake_wf h g
  | continuationFire g => exact execContinuationFire_wf h g
  | waitPoll g => exact execWaitPoll_wf h g
  | pauseWake g => exact execPauseWake_wf h g
  | pauseTimeout g => exact execPauseTimeout_wf h g
  | barrierInstanceComplete kind id share => exact execBarrierInstanceComplete_wf h kind id share
  | gustWaveRelease grid => exact execGustWaveRelease_wf h grid
  | streamerRequestActive req => exact execStreamerRequestActive_wf h req
  | streamerLineRead req => exact execStreamerLineRead_wf h req
  | streamerLineLand req line => exact execStreamerLineLand_wf h req line
  | streamerCredit req => exact execStreamerCredit_wf h req
  | gcountCredit req => exact execGcountCredit_wf h req
  | requestComplete req => exact execRequestComplete_wf h req
  | bulkHandoff req => exact execBulkHandoff_wf h req
  | bulkCreditArrival pkt => exact execBulkCreditArrival_wf h pkt
  | copyPageResume req => exact execCopyPageResume_wf h req
  | copyAbort req => exact execCopyAbort_wf h req
  | mmaStep cmd => exact execMmaStep_wf h cmd
  | mmaResults cmd => exact execMmaResults_wf h cmd
  | matrixCommandBegin cmd => exact execMatrixCommandBegin_wf h cmd
  | matrixCommandFinish cmd => exact execMatrixCommandFinish_wf h cmd
  | drainRow cmd => exact execDrainRow_wf h cmd
  | drainLinePerformed cmd line => exact execDrainLinePerformed_wf h cmd line
  | drainComplete cmd => exact execDrainComplete_wf h cmd
  | drainPageResume cmd => exact execDrainPageResume_wf h cmd
  | drainAbort cmd => exact execDrainAbort_wf h cmd
  | matrixStepReexecute cmd => exact execMatrixStepReexecute_wf h cmd
  | reservationFreed core rec => exact execReservationFreed_wf h core rec
  | latticeLanePerformed op => exact execLatticeLanePerformed_wf h op
  | latticeReply op => exact execLatticeReply_wf h op
  | thresholdReached op => exact execThresholdReached_wf h op
  | thresholdPoll op => exact execThresholdPoll_wf h op
  | cellCacheFill stack part region line => exact execCellCacheFill_wf h stack part region line
  | regionCacheFill core region => exact execRegionCacheFill_wf h core region
  | tradeInstant part region => exact execTradeInstant_wf h part region
  | tradePacketApply pkt => exact execTradePacketApply_wf h pkt
  | tradeAck pkt => exact execTradeAck_wf h pkt
  | starHubSend part region => exact execStarHubSend_wf h part region
  | jtradeComplete op => exact execJtradeComplete_wf h op
  | peerAccessReply op lane status value => exact execPeerAccessReply_wf h op lane status value
  | fabricPortAccept op => exact execFabricPortAccept_wf h op
  | peerWriteAck write ack => exact execPeerWriteAck_wf h write ack
  | multicastApply dlv => exact execMulticastApply_wf h dlv
  | inboundFabricAccess acc => exact execInboundFabricAccess_wf h acc
  | xfenceDone op => exact execXfenceDone_wf h op
  | collectiveComplete coll peers => exact execCollectiveComplete_wf h coll peers
  | collectiveTimeout coll => exact execCollectiveTimeout_wf h coll
  | peerResetLearned part member incarn => exact execPeerResetLearned_wf h part member incarn
  | ringPacketAdmit pkt => exact execRingPacketAdmit_wf h pkt
  | ringAdmissionStarved stop up => exact execRingAdmissionStarved_wf h stop up
  | ringPacketDelivery pkt => exact execRingPacketDelivery_wf h pkt
  | dieReset die => exact execDieReset_wf h die
  | incarnationTableLoad die => exact execIncarnationTableLoad_wf h die
  | incarnationAnnounce die => exact execIncarnationAnnounce_wf h die
  | targetResetCompletion die target => exact execTargetResetCompletion_wf h die target
  | baseDieBError => exact execBaseDieBError_wf h
  | baseDieAError => exact execBaseDieAError_wf h
  | modulePowerOn => exact execModulePowerOn_wf h
  | linkRetrain link => exact execLinkRetrain_wf h link
  | inboundPostedWrite req => exact execInboundPostedWrite_wf h req
  | inboundRead req => exact execInboundRead_wf h req
  | inboundAtomicop req => exact execInboundAtomicop_wf h req
  | inboundLineAck req line => exact execInboundLineAck_wf h req line
  | hostMemoryRequest op lanes => exact execHostMemoryRequest_wf h op lanes
  | hostCompletion op lane ok vals => exact execHostCompletion_wf h op lane ok vals
  | systemReleaseFlush g => exact execSystemReleaseFlush_wf h g
  | pageRequest part gran asker => exact execPageRequest_wf h part gran asker
  | prqptrHeadWrite part head => exact execPrqptrHeadWrite_wf h part head
  | pageAnswerZero ans => exact execPageAnswerZero_wf h ans
  | pageAnswerCopy ans => exact execPageAnswerCopy_wf h ans
  | pageAnswerMap ans => exact execPageAnswerMap_wf h ans
  | pageAnswerFail ans => exact execPageAnswerFail_wf h ans
  | hreqQuery part gran => exact execHreqQuery_wf h part gran
  | hreqPin part gran => exact execHreqPin_wf h part gran
  | hreqUnpin part gran => exact execHreqUnpin_wf h part gran
  | hreqTohost part gran hpa => exact execHreqTohost_wf h part gran hpa
  | hreqTodev part gran => exact execHreqTodev_wf h part gran
  | hreqDrop part gran => exact execHreqDrop_wf h part gran
  | otinvWrite part obj => exact execOtinvWrite_wf h part obj
  | otinvComplete part => exact execOtinvComplete_wf h part
  | partitionEnable part val grant => exact execPartitionEnable_wf h part val grant
  | partitionTeardown part => exact execPartitionTeardown_wf h part
  | teardownComplete part => exact execTeardownComplete_wf h part
  | epochEnd part => exact execEpochEnd_wf h part
  | pageMoveStep part gran => exact execPageMoveStep_wf h part gran
  | functionLevelReset func => exact execFunctionLevelReset_wf h func
  | mctpMessage msg => exact execMctpMessage_wf h msg
  | qinSubmission part queue bytes => exact execQinSubmission_wf h part queue bytes
  | qcfgEnable part queue val => exact execQcfgEnable_wf h part queue val
  | qstatusClear part queue val => exact execQstatusClear_wf h part queue val
  | cmdNop part queue => exact execCmdNop_wf h part queue
  | cmdBegin part queue => exact execCmdBegin_wf h part queue
  | cmdCommit part queue => exact execCmdCommit_wf h part queue
  | cmdGraph part queue => exact execCmdGraph_wf h part queue
  | cmdRcreate part queue => exact execCmdRcreate_wf h part queue
  | cmdRdestroy part queue => exact execCmdRdestroy_wf h part queue
  | cmdFence part queue => exact execCmdFence_wf h part queue
  | gridStart run node => exact execGridStart_wf h run node
  | gridComplete grid => exact execGridComplete_wf h grid
  | runComplete run => exact execRunComplete_wf h run
  | firmwareRestart => exact execFirmwareRestart_wf h
  | watchdogPreempt grid => exact execWatchdogPreempt_wf h grid
  | watchdogKill grid => exact execWatchdogKill_wf h grid
  | watchdogFence grid => exact execWatchdogFence_wf h grid
  | haltIdleWake core => exact execHaltIdleWake_wf h core
  | controlInterval env => exact execControlInterval_wf h env
  | fcapWrite val => exact execFcapWrite_wf h val
  | currentRatingReached stack => exact execCurrentRatingReached_wf h stack
  | ratioChange stack => exact execRatioChange_wf h stack
  | squall core => exact execSquall_wf h core
  | clauseReexecute g => exact execClauseReexecute_wf h g
  | veerInstant stack heats => exact execVeerInstant_wf h stack heats
  | veerStart stack => exact execVeerStart_wf h stack
  | veerPauseEnd stack => exact execVeerPauseEnd_wf h stack
  | registerWrite func off val => exact execRegisterWrite_wf h func off val
  | squallStretchEnd core => exact execSquallStretchEnd_wf h core
  | firmwareRestartEnd => exact execFirmwareRestartEnd_wf h
  | matrixQueryComplete op => exact execMatrixQueryComplete_wf h op
  | latticeQueryComplete op => exact execLatticeQueryComplete_wf h op
  | fabricQueryComplete op => exact execFabricQueryComplete_wf h op
  | qtakeQackComplete op => exact execQtakeQackComplete_wf h op

/-! ### The part's own steps -/

/-- A step of the part, taken on a state with canonical memory, keeps it so. -/
def Keeps (e : OwnStep) : Prop := ∀ s : State, s.mem.wf = true → OutWf (e s)

/-- Every step of a list keeps memory canonical. -/
def AllKeep (l : List OwnStep) : Prop := ∀ e ∈ l, Keeps e

@[simp] theorem allKeep_nil : AllKeep [] := List.forall_mem_nil _
@[simp] theorem allKeep_cons (e : OwnStep) (l : List OwnStep) : AllKeep (e :: l) ↔ Keeps e ∧ AllKeep l := List.forall_mem_cons
@[simp] theorem allKeep_append (l r : List OwnStep) : AllKeep (l ++ r) ↔ AllKeep l ∧ AllKeep r := List.forall_mem_append
@[simp] theorem allKeep_ite (p : Prop) [Decidable p] (l r : List OwnStep) :
    AllKeep (if p then l else r) ↔ (p → AllKeep l) ∧ (¬p → AllKeep r) := by
  split <;> simp [*]
@[simp] theorem allKeep_map {α : Type} (l : List α) (f : α → OwnStep) : AllKeep (l.map f) ↔ ∀ a ∈ l, Keeps (f a) := List.forall_mem_map
@[simp] theorem allKeep_flatMap {α : Type} (l : List α) (f : α → List OwnStep) : AllKeep (l.flatMap f) ↔ ∀ a ∈ l, AllKeep (f a) :=
  List.forall_mem_flatMap

@[simp] theorem parkSteps_keep (s : State) (g : Group) : AllKeep (parkSteps s g) := by
  unfold parkSteps
  split <;> simp +contextual [Keeps]

@[simp] theorem phaseSteps_keep (g : Group) : AllKeep (phaseSteps g) := by
  unfold phaseSteps
  split <;> simp +contextual [Keeps]

@[simp] theorem groupSteps_keep (s : State) (g : Group) : AllKeep (groupSteps s g) := by simp +contextual [groupSteps, Keeps]

@[simp] theorem cellFills_keep (s : State) (o : Op) : AllKeep (cellFills s o) := by
  unfold cellFills
  split
  · exact allKeep_nil
  · refine (allKeep_flatMap _ _).2 fun x _ => ?_
    split
    · split <;> simp +contextual [Keeps]
    all_goals exact allKeep_nil

@[simp] theorem opSteps_keep (s : State) (o : Op) : AllKeep (opSteps s o) := by simp +contextual [opSteps, Keeps]
@[simp] theorem reqSteps_keep (r : Req) : AllKeep (reqSteps r) := by simp +contextual [reqSteps, Keeps]
@[simp] theorem collSteps_keep (c : Coll) : AllKeep (collSteps c) := by simp +contextual [collSteps, Keeps]
@[simp] theorem cmdSteps_keep (c : MCmd) : AllKeep (cmdSteps c) := by simp +contextual [cmdSteps, Keeps]
@[simp] theorem pktSteps_keep (p : Pkt) : AllKeep (pktSteps p) := by simp +contextual [pktSteps, Keeps]
@[simp] theorem coreSteps_keep (c : Nat) (k : Core) : AllKeep (coreSteps c k) := by simp +contextual [coreSteps, Keeps]
@[simp] theorem growSteps_keep (s : State) : AllKeep (growSteps s) := by simp +contextual [growSteps, Keeps]
@[simp] theorem teamSteps_keep (s : State) (t : Team) : AllKeep (teamSteps s t) := by simp +contextual [teamSteps, Keeps]
@[simp] theorem ctxSteps_keep (c : Ctx) : AllKeep (ctxSteps c) := by simp +contextual [ctxSteps, Keeps]
@[simp] theorem gridSteps_keep (g : Grid) : AllKeep (gridSteps g) := by simp +contextual [gridSteps, Keeps]
@[simp] theorem runSteps_keep (r : Run) : AllKeep (runSteps r) := by simp +contextual [runSteps, Keeps]
@[simp] theorem queueSteps_keep (i : Nat) (p : Part) : AllKeep (queueSteps i p) := by simp +contextual [queueSteps, Keeps]
@[simp] theorem partSteps_keep (i : Nat) (p : Part) : AllKeep (partSteps i p) := by simp +contextual [partSteps, Keeps]
@[simp] theorem dieSteps_keep (i : Nat) (d : Die) : AllKeep (dieSteps i d) := by simp +contextual [dieSteps, Keeps]
@[simp] theorem stopSteps_keep (j : Nat) (x : Stop) : AllKeep (stopSteps j x) := by simp +contextual [stopSteps, Keeps]
@[simp] theorem stackSteps_keep (s : State) (k : Nat) : AllKeep (stackSteps s k) := by simp +contextual [stackSteps, Keeps]

@[simp] theorem sliceSteps_keep (s : State) : AllKeep (sliceSteps s) := by
  refine (allKeep_flatMap _ _).2 fun g _ => ?_
  split <;> simp +contextual [Keeps]

@[simp] theorem pageSteps_keep (s : State) : AllKeep (pageSteps s) := by
  have hreq (part gran : Nat) (a : PageAsker) : AllKeep [execPageRequest part gran a] := by simp +contextual [Keeps]
  unfold pageSteps
  extract_lets lane ask
  have hlane (o : Op) (x : LaneOp) : AllKeep (lane o x) := by
    unfold lane
    split
    · exact hreq _ _ _
    · exact allKeep_nil
  have hask (part : Nat) (a : PageAsker) (r : Option Nat) : AllKeep (ask part a r) := by
    cases r with
    | none => exact allKeep_nil
    | some n => exact hreq _ _ _
  simp [hlane, hask]

/-! ### Which instruction is next -/

/-- The state that an act starts from, or becomes, has its memory in canonical form. -/
def ActWf : Act → Prop
  | .run t _ | .become t | .idle t => t.mem.wf = true

@[simp] theorem actWf_run (t : State) (i : Instr) : ActWf (.run t i) ↔ t.mem.wf = true := Iff.rfl
@[simp] theorem actWf_become (t : State) : ActWf (.become t) ↔ t.mem.wf = true := Iff.rfl
@[simp] theorem actWf_idle (t : State) : ActWf (.idle t) ↔ t.mem.wf = true := Iff.rfl

theorem issueNext_wf {s : State} (h : s.mem.wf = true) (g : Group) (c : Clause) : ActWf (issueNext s g c) := by
  fun_cases issueNext <;> simp [h]

theorem groupTurn_wf {s : State} (h : s.mem.wf = true) (g : Group) : ActWf (groupTurn s g) := by
  fun_cases groupTurn
  · exact issueNext_wf h _ _
  · exact h

theorem choose_wf {s : State} (h : s.mem.wf = true) : ActWf (choose s) := by
  unfold choose
  split
  · split <;> exact h
  · split
    · exact h
    · next i rest _ =>
      dsimp only
      split
      · exact h
      · next g _ =>
        have ht := groupTurn_wf (s := { s with turn := rest, cur := some i }) h g
        cases hu : groupTurn { s with turn := rest, cur := some i } g <;> rw [hu] at ht <;> exact ht

/-! ### One step -/

@[simp] theorem retryStep_wf {s : State} (h : s.mem.wf = true) (g : Group) : OutWf (retryStep g s) := by
  have hturn := groupTurn_wf (s := { s with cur := some g.id }) h g
  unfold retryStep
  dsimp only
  split
  · exact h
  · split
    · next u i hu =>
      rw [hu, actWf_run] at hturn
      have hv := exec_wf i hturn
      split
      · next v hv' =>
        rw [hv', outWf_next] at hv
        split
        · simp [h, hv]
        · simp [h]
      · trivial
      · trivial
    · simp [h]
    · exact h

theorem ownSteps_keep (s : State) : AllKeep (ownSteps s) := by
  unfold ownSteps
  simp +contextual [Keeps]

theorem rotated_keep {l : List OwnStep} (h : AllKeep l) (n : Nat) : AllKeep (rotated l n) := fun e he =>
  (List.mem_append.1 he).elim (fun hd => h e (List.mem_of_mem_drop hd)) (fun ht => h e (List.mem_of_mem_take ht))

theorem firstDue_wf {s : State} (h : s.mem.wf = true) : ∀ {l : List OwnStep}, AllKeep l → ∀ t, firstDue s l = some t → t.mem.wf = true
  | [], _, _, ht => nomatch ht
  | e :: es, hl, t, ht => by
    obtain ⟨he, hes⟩ := (allKeep_cons e es).1 hl
    have hout := he s h
    unfold firstDue at ht
    split at ht
    · next u hu =>
      rw [hu, outWf_next] at hout
      split at ht
      · exact firstDue_wf h hes t ht
      · exact Option.some.inj ht ▸ hout
    all_goals exact firstDue_wf h hes t ht

theorem act_wf {a : Act} (h : ActWf a) : OutWf (act a) := by
  cases a with
  | run t i => exact exec_wf i h
  | become t => exact h
  | idle t =>
    have hdue := firstDue_wf h (rotated_keep (ownSteps_keep t) t.fresh)
    simp only [act, outWf_next]
    cases hd : firstDue t (rotated (ownSteps t) t.fresh) with
    | none => exact h
    | some u => exact hdue u hd

theorem step_wf {s : State} (h : s.mem.wf = true) : OutWf (step s) := act_wf (choose_wf (by rw [timePasses_mem]; exact h))

/-- Settles O60: time leaves memory as it is, and whatever is chosen then (an instruction, an event of the agenda, or one of the part's
own steps) writes memory only through operations that keep it canonical. -/
theorem stepKeepsMemCanonical : Obligations.StepKeepsMemCanonical := by
  intro s t h hst
  have hout := step_wf h
  rwa [hst, outWf_next] at hout

end Sys2Proof.Machine
end

section
/-! The values that the parts of the module hold at reset, and O56. A list of like parts is `List.replicate` of one part, so each
fact about all of them is a fact about that part. -/

namespace Sys2Proof.Machine

set_option Elab.async false

theorem all_replicate_of {α : Type} {p : α → Bool} {a : α} (h : p a = true) (n : Nat) : (List.replicate n a).all p = true :=
  List.all_eq_true.2 fun _ hx => List.eq_of_mem_replicate hx ▸ h

theorem reset_dies : State.reset.dies = List.replicate 18 Die.reset := rfl
theorem reset_parts : State.reset.parts = List.replicate 8 Part.reset := rfl
theorem reset_cores : State.reset.cores = (List.range 160).map Core.reset := rfl
theorem reset_core_slices (i : Nat) : (Core.reset i).slices = List.replicate 6 Slice.reset := rfl
theorem reset_slice_cycles : Slice.reset.cycles = 0 := rfl
theorem reset_part_queues : Part.reset.queues = List.replicate 64 Queue.reset := rfl

/-- Settles O56: the parts of each kind are as many as the module has, and one part of each kind holds the values of R22 (a die),
R417, R468 to R470 and R475 (a partition), and R443 and R465 (a queue). -/
theorem resetState : Obligations.ResetState := by
  refine ⟨by rw [reset_dies, List.length_replicate], reset_dies ▸ all_replicate_of rfl 18, rfl,
    by rw [reset_cores, List.length_map, List.length_range], ?cores,
    by rw [reset_parts, List.length_replicate], reset_parts ▸ all_replicate_of ?part 8,
    rfl, rfl, rfl, rfl, rfl, rfl, rfl, rfl, rfl, rfl, rfl, rfl, rfl⟩
  case cores =>
    rw [reset_cores, List.all_map, List.all_eq_true]
    intro i _
    simp [reset_core_slices, reset_slice_cycles]
  case part =>
    have hlen : (Part.reset.queues.length == 64) = true := by rw [reset_part_queues, List.length_replicate]; rfl
    rw [Bool.and_eq_true, Bool.and_eq_true]
    refine ⟨⟨?registers, hlen⟩, reset_part_queues ▸ all_replicate_of ?queue 64⟩
    case registers => rfl
    case queue => rfl

end Sys2Proof.Machine
end

section
/-! Rounding to F32, F16 and BF16 (R88, R91), and O55. Exact values are compared as whole multiples of a small enough power of two.
First what rounding to a multiple of a unit does (`roundAt`), then the values that codes have (`fdec`) and the gaps between them, then
the two results of `froundMag`. -/

namespace Sys2Proof.Machine

/-! ### Magnitudes at a common scale -/

/-- The magnitude m * 2^e in multiples of 2^j, for j at or below e. -/
def magAt (j : Int) (m : Nat) (e : Int) : Nat := m * 2 ^ (e - j).toNat

theorem scaled_eq (k : Int) (neg : Bool) (m : Nat) (e : Int) : Sys2Proof.scaled k neg m e = sgn neg (magAt k m e) := rfl

theorem magAt_le_iff {j e : Int} {m n : Nat} : magAt j m e ≤ magAt j n e ↔ m ≤ n :=
  Nat.mul_le_mul_right_iff (Nat.two_pow_pos _)

theorem magAt_lt_iff {j e : Int} {m n : Nat} : magAt j m e < magAt j n e ↔ m < n :=
  Nat.mul_lt_mul_right (Nat.two_pow_pos _)

theorem magAt_succ (j : Int) (m : Nat) (e : Int) : magAt j (m + 1) e = magAt j m e + 2 ^ (e - j).toNat := Nat.succ_mul ..

theorem magAt_add_nat {j e : Int} (h : j ≤ e) (m n : Nat) : magAt j m (e + n) = magAt j (m * 2 ^ n) e := by
  have hexp : (e + n - j).toNat = n + (e - j).toNat := by omega
  rw [magAt, magAt, hexp, Nat.pow_add, Nat.mul_assoc]

theorem magAt_two_pow (j : Int) (n : Nat) (e : Int) : magAt j (2 ^ n) e = 2 ^ (n + (e - j).toNat) := (Nat.pow_add ..).symm

/-- A finer scale multiplies every magnitude by the same power of two. -/
theorem magAt_finer {j k e : Int} (hjk : j ≤ k) (hke : k ≤ e) (m : Nat) : magAt j m e = magAt k m e * 2 ^ (k - j).toNat := by
  have hexp : (e - j).toNat = (e - k).toNat + (k - j).toNat := by omega
  rw [magAt, magAt, hexp, Nat.pow_add, Nat.mul_assoc]

theorem sgn_mul (neg : Bool) (x c : Nat) : sgn neg (x * c) = sgn neg x * (c : Int) := by
  cases neg with
  | false => exact Int.natCast_mul x c
  | true => exact (congrArg Neg.neg (Int.natCast_mul x c)).trans (Int.neg_mul ..).symm

theorem natAbs_sgn (neg : Bool) (x : Nat) : (sgn neg x).natAbs = x := by
  cases neg with
  | false => exact Int.natAbs_natCast x
  | true => exact (Int.natAbs_neg _).trans (Int.natAbs_natCast x)

theorem sgn_inj {neg : Bool} {x y : Nat} : sgn neg x = sgn neg y ↔ x = y :=
  ⟨fun h => by rw [← natAbs_sgn neg x, h, natAbs_sgn], fun h => h ▸ rfl⟩

/-! ### What a mode asks of a rounded value -/

/-- R91: w is a right rounding of v in the mode, as far as another value u of the format can tell. -/
def RoundsTo (md : RMode) (even : Prop) (v w u : Int) : Prop :=
  match md with
  | .rne => (v - w).natAbs ≤ (v - u).natAbs ∧ ((v - w).natAbs = (v - u).natAbs → u ≠ w → even)
  | .rz => w.natAbs ≤ v.natAbs ∧ (u.natAbs ≤ v.natAbs → u.natAbs ≤ w.natAbs)
  | .ru => v ≤ w ∧ (v ≤ u → w ≤ u)
  | .rd => w ≤ v ∧ (u ≤ v → u ≤ w)

/-- The scale at which values are compared does not matter. -/
theorem roundsTo_of_mul {md : RMode} {even : Prop} {v w u : Int} {c : Nat} (hc : 0 < c)
    (h : RoundsTo md even (v * c) (w * c) (u * c)) : RoundsTo md even v w u := by
  have hc' : (0 : Int) < c := Int.ofNat_lt.2 hc
  have hle : ∀ a b : Int, a * c ≤ b * c ↔ a ≤ b := fun a b => Int.mul_le_mul_iff_of_pos_right hc'
  have habs : ∀ a : Int, (a * c).natAbs = a.natAbs * c := fun a => by rw [Int.natAbs_mul, Int.natAbs_natCast]
  have hinj : ∀ a b : Int, a * c = b * c ↔ a = b := fun a b => Int.mul_eq_mul_right_iff (Int.ne_of_gt hc')
  cases md with
  | rne =>
    simpa only [RoundsTo, ← Int.sub_mul, habs, Nat.mul_le_mul_right_iff hc, Nat.mul_right_cancel_iff hc, ne_eq, hinj] using h
  | rz => simpa only [RoundsTo, habs, Nat.mul_le_mul_right_iff hc] using h
  | ru => simpa only [RoundsTo, hle] using h
  | rd => simpa only [RoundsTo, hle] using h

/-- Whether a mode may round a value of a sign away from zero. -/
def mayGrow (md : RMode) (neg : Bool) : Bool :=
  match md with
  | .rne => true
  | .rz => false
  | .ru => !neg
  | .rd => neg

theorem mayGrow_ru {neg : Bool} : mayGrow .ru neg = !neg := rfl
theorem mayGrow_rd {neg : Bool} : mayGrow .rd neg = neg := rfl

/-- A mode that may not grow a value takes the largest magnitude not above it. -/
theorem roundsTo_of_truncates {md : RMode} {neg : Bool} {even : Prop} {x y : Nat} {u : Int} (hmd : mayGrow md neg = false)
    (hyx : y ≤ x) (hgap : u.natAbs ≤ y ∨ x < u.natAbs) : RoundsTo md even (sgn neg x) (sgn neg y) u := by
  cases md with
  | rne => cases hmd
  | rz =>
    simp only [RoundsTo, natAbs_sgn]
    omega
  | ru =>
    obtain rfl : neg = true := by rwa [mayGrow_ru, Bool.not_eq_false'] at hmd
    simp only [RoundsTo, sgn, if_true]
    omega
  | rd =>
    obtain rfl : neg = false := hmd
    simp only [RoundsTo, sgn, Bool.false_eq_true, if_false]
    omega

/-- A directed mode that may grow a value takes the smallest magnitude not below it. -/
theorem roundsTo_of_grows {md : RMode} {neg : Bool} {even : Prop} {x y : Nat} {u : Int} (hne : md ≠ .rne) (hmd : mayGrow md neg = true)
    (hxy : x ≤ y) (hgap : u.natAbs < x ∨ y ≤ u.natAbs) : RoundsTo md even (sgn neg x) (sgn neg y) u := by
  cases md with
  | rne => exact absurd rfl hne
  | rz => cases hmd
  | ru =>
    obtain rfl : neg = false := by rwa [mayGrow_ru, Bool.not_eq_true'] at hmd
    simp only [RoundsTo, sgn, Bool.false_eq_true, if_false]
    omega
  | rd =>
    obtain rfl : neg = true := hmd
    simp only [RoundsTo, sgn, if_true]
    omega

/-- To nearest: of the two neighbours lo and hi of a value, the rounded one is no farther, and even where both are as near. -/
theorem roundsTo_rne_of_nearer {neg : Bool} {even : Prop} {lo x hi y : Nat} {u : Int} (hlo : lo ≤ x) (hhi : x < hi)
    (hgap : u.natAbs ≤ lo ∨ hi ≤ u.natAbs) (hy : (y = lo ∧ x - lo ≤ hi - x) ∨ (y = hi ∧ hi - x ≤ x - lo))
    (htie : x - lo = hi - x → even) : RoundsTo .rne even (sgn neg x) (sgn neg y) u := by
  cases neg with
  | false =>
    simp only [RoundsTo, sgn, Bool.false_eq_true, if_false]
    exact ⟨by omega, fun heq hne => htie (by omega)⟩
  | true =>
    simp only [RoundsTo, sgn, if_true]
    exact ⟨by omega, fun heq hne => htie (by omega)⟩

/-! ### Rounding to a multiple of a unit -/

/-- Whether a mode takes the next multiple of the unit, where `hi` units and a rest `lo` below one are to be rounded. -/
def roundsUp (md : RMode) (neg : Bool) (hi lo unit : Nat) : Bool :=
  match md with
  | .rne => decide (unit < 2 * lo) || (decide (2 * lo = unit) && hi % 2 == 1)
  | .rz => false
  | .ru => !neg && lo != 0
  | .rd => neg && lo != 0

theorem roundsUp_rne_iff {neg : Bool} {hi lo unit : Nat} :
    roundsUp .rne neg hi lo unit = true ↔ unit < 2 * lo ∨ (2 * lo = unit ∧ hi % 2 = 1) := by
  simp only [roundsUp, Bool.or_eq_true, Bool.and_eq_true, decide_eq_true_eq, beq_iff_eq]

theorem roundsUp_of_not_mayGrow {md : RMode} {neg : Bool} (h : mayGrow md neg = false) (hi lo unit : Nat) :
    roundsUp md neg hi lo unit = false := by
  cases md with
  | rne => cases h
  | rz => rfl
  | ru =>
    rw [mayGrow_ru] at h
    rw [roundsUp, h, Bool.false_and]
  | rd =>
    rw [mayGrow_rd] at h
    rw [roundsUp, h, Bool.false_and]

theorem roundsUp_of_mayGrow {md : RMode} {neg : Bool} (hne : md ≠ .rne) (h : mayGrow md neg = true) (hi lo unit : Nat) :
    roundsUp md neg hi lo unit = (lo != 0) := by
  cases md with
  | rne => exact absurd rfl hne
  | rz => cases h
  | ru =>
    rw [mayGrow_ru] at h
    rw [roundsUp, h, Bool.true_and]
  | rd =>
    rw [mayGrow_rd] at h
    rw [roundsUp, h, Bool.true_and]

/-- Without a rest no mode takes the next multiple. -/
theorem ne_zero_of_roundsUp {md : RMode} {neg : Bool} {hi lo unit : Nat} (hlt : lo < unit) (h : roundsUp md neg hi lo unit = true) :
    lo ≠ 0 := by
  cases md with
  | rne =>
    rw [roundsUp_rne_iff] at h
    omega
  | rz => cases h
  | ru => exact bne_iff_ne.1 (Bool.and_eq_true_iff.1 h).2
  | rd => exact bne_iff_ne.1 (Bool.and_eq_true_iff.1 h).2

theorem b2n_true : b2n true = 1 := rfl
theorem b2n_false : b2n false = 0 := rfl
theorem b2n_le_one (b : Bool) : b2n b ≤ 1 := by cases b <;> decide

/-- Half a unit rounds to the even one of the two neighbours. -/
theorem even_of_half {neg : Bool} {hi lo unit : Nat} (h : 2 * lo = unit) : (hi + b2n (roundsUp .rne neg hi lo unit)) % 2 = 0 := by
  cases hup : roundsUp .rne neg hi lo unit with
  | false =>
    rw [← Bool.not_eq_true, roundsUp_rne_iff] at hup
    rw [b2n_false]
    omega
  | true =>
    rw [roundsUp_rne_iff] at hup
    rw [b2n_true]
    omega

/-- The multiple taken is a right rounding against every value that does not lie between the two neighbouring multiples. -/
theorem roundsTo_of_roundsUp {md : RMode} {neg : Bool} {j q : Int} {hi lo x : Nat} {u : Int} (hx : x = magAt j hi q + lo)
    (hlt : lo < 2 ^ (q - j).toNat) (hgap : u.natAbs ≤ magAt j hi q ∨ magAt j (hi + 1) q ≤ u.natAbs) :
    let r := hi + b2n (roundsUp md neg hi lo (2 ^ (q - j).toNat))
    RoundsTo md (r % 2 = 0) (sgn neg x) (sgn neg (magAt j r q)) u := by
  intro r
  have hnext := magAt_succ j hi q
  by_cases hne : md = .rne
  · subst hne
    refine roundsTo_rne_of_nearer (hx ▸ Nat.le_add_right _ _) (hx ▸ by omega) hgap ?_ fun htie => even_of_half (by omega)
    cases hup : roundsUp .rne neg hi lo (2 ^ (q - j).toNat) with
    | false =>
      have hr : r = hi := by simp only [r, hup, b2n_false, Nat.add_zero]
      rw [← Bool.not_eq_true, roundsUp_rne_iff] at hup
      exact .inl ⟨by rw [hr], by omega⟩
    | true =>
      have hr : r = hi + 1 := by simp only [r, hup, b2n_true]
      rw [roundsUp_rne_iff] at hup
      exact .inr ⟨by rw [hr], by omega⟩
  cases hgrow : mayGrow md neg with
  | false =>
    have hr : r = hi := by simp only [r, roundsUp_of_not_mayGrow hgrow, b2n_false, Nat.add_zero]
    rw [hr]
    exact roundsTo_of_truncates hgrow (by omega) (by omega)
  | true =>
    by_cases hlo : lo = 0
    · have hr : r = hi := by simp only [r, roundsUp_of_mayGrow hne hgrow, hlo, bne_self_eq_false, b2n_false, Nat.add_zero]
      rw [hr]
      exact roundsTo_of_grows hne hgrow (by omega) (by omega)
    · have hr : r = hi + 1 := by simp only [r, roundsUp_of_mayGrow hne hgrow, bne_iff_ne.2 hlo, b2n_true]
      rw [hr]
      exact roundsTo_of_grows hne hgrow (by omega) (by omega)

/-- There is a rest exactly where the multiple taken differs from the exact value. -/
theorem rest_iff_ne (md : RMode) (neg : Bool) {j q : Int} {hi lo x : Nat} (hx : x = magAt j hi q + lo) (hlt : lo < 2 ^ (q - j).toNat) :
    (lo != 0) = true ↔ x ≠ magAt j (hi + b2n (roundsUp md neg hi lo (2 ^ (q - j).toNat))) q := by
  have hnext := magAt_succ j hi q
  rw [bne_iff_ne]
  cases hup : roundsUp md neg hi lo (2 ^ (q - j).toNat) with
  | false =>
    rw [b2n_false, Nat.add_zero]
    omega
  | true =>
    have hlo := ne_zero_of_roundsUp hlt hup
    rw [b2n_true]
    omega

/-- The shift's cap is harmless: where it takes effect, everything is below half. -/
theorem capped_shift (m n : Nat) :
    let k := min n (Nat.log2 m + 2)
    m >>> k = m / 2 ^ n ∧ m % 2 ^ k = m % 2 ^ n ∧ (2 ^ k < 2 * (m % 2 ^ n) ↔ 2 ^ n < 2 * (m % 2 ^ n)) ∧
      (2 * (m % 2 ^ n) = 2 ^ k ↔ 2 * (m % 2 ^ n) = 2 ^ n) := by
  intro k
  rw [Nat.shiftRight_eq_div_pow]
  rcases Nat.le_total n (Nat.log2 m + 2) with hle | hle
  · have hk : k = n := Nat.min_eq_left hle
    rw [hk]
    exact ⟨rfl, rfl, Iff.rfl, Iff.rfl⟩
  · have hk : k = Nat.log2 m + 2 := Nat.min_eq_right hle
    have hm : 2 * m < 2 ^ k := by
      have hlog := Nat.lt_log2_self (n := m)
      rw [hk, Nat.pow_succ]
      omega
    have hkn : 2 ^ k ≤ 2 ^ n := Nat.pow_le_pow_right (by decide) (hk ▸ hle)
    rw [Nat.div_eq_of_lt (by omega), Nat.div_eq_of_lt (by omega), Nat.mod_eq_of_lt (by omega), Nat.mod_eq_of_lt (by omega)]
    omega

/-- `roundAt` takes the whole units or one more, as the mode says of the rest, and is inexact where there is a rest. -/
theorem roundAt_spec (md : RMode) (neg : Bool) (m : Nat) {j e q : Int} (hje : j ≤ e) (hjq : j ≤ q) : ∃ hi lo : Nat,
    magAt j m e = magAt j hi q + lo ∧ lo < 2 ^ (q - j).toNat ∧
      roundAt md neg m e q = (hi + b2n (roundsUp md neg hi lo (2 ^ (q - j).toNat)), lo != 0) := by
  rcases Int.lt_or_le e q with hq | hq
  · obtain ⟨n, rfl⟩ := Int.le.dest (Int.le_of_lt hq)
    obtain ⟨hhi, hlo, hgt, heq⟩ := capped_shift m n
    have hn : (e + n - e).toNat = n := by omega
    have hs : 0 < 2 ^ (e - j).toNat := Nat.two_pow_pos _
    have hunit : 2 ^ (e + n - j).toNat = 2 ^ n * 2 ^ (e - j).toNat := by
      rw [← Nat.pow_add]
      congr 1
      omega
    have hz : (m % 2 ^ n * 2 ^ (e - j).toNat != 0) = (m % 2 ^ n != 0) := by
      rw [Bool.eq_iff_iff, bne_iff_ne, bne_iff_ne, ne_eq, ne_eq, Nat.mul_eq_zero, or_iff_left (Nat.ne_of_gt hs)]
    refine ⟨m / 2 ^ n, m % 2 ^ n * 2 ^ (e - j).toNat, ?value, ?rest, ?result⟩
    case value => rw [magAt_add_nat hje, magAt, magAt, ← Nat.add_mul, Nat.div_add_mod']
    case rest =>
      rw [hunit]
      exact Nat.mul_lt_mul_of_pos_right (Nat.mod_lt _ (Nat.two_pow_pos n)) hs
    case result =>
      rw [hunit, hz]
      have hgt' : 2 ^ n * 2 ^ (e - j).toNat < 2 * (m % 2 ^ n * 2 ^ (e - j).toNat) ↔ 2 ^ n < 2 * (m % 2 ^ n) := by
        rw [← Nat.mul_assoc, Nat.mul_lt_mul_right hs]
      have heq' : 2 * (m % 2 ^ n * 2 ^ (e - j).toNat) = 2 ^ n * 2 ^ (e - j).toNat ↔ 2 * (m % 2 ^ n) = 2 ^ n := by
        rw [← Nat.mul_assoc, Nat.mul_right_cancel_iff hs]
      cases md <;> simp only [roundAt, hn, if_neg (Int.not_le.2 hq), roundsUp, hhi, hlo, hgt, heq, hz, hgt', heq']
  · obtain ⟨n, rfl⟩ := Int.le.dest hq
    refine ⟨m <<< n, 0, ?value, Nat.two_pow_pos _, ?result⟩
    case value => rw [magAt_add_nat hjq, Nat.shiftLeft_eq, Nat.add_zero]
    case result =>
      have hn : (q + n - q).toNat = n := by omega
      have hup : roundsUp md neg (m <<< n) 0 (2 ^ (q - j).toNat) = false := by
        rw [← Bool.not_eq_true]
        exact fun h => ne_zero_of_roundsUp (Nat.two_pow_pos _) h rfl
      rw [hup, roundAt, if_pos hq, hn, b2n_false, Nat.add_zero, bne_self_eq_false]

/-! ### Codes and their values (R88) -/

theorem two_pow_ffE (f : FF) : 2 ^ ffE f = 2 * ffBias f + 2 := by cases f <;> rfl
theorem ffBias_pos (f : FF) : 0 < ffBias f := by cases f <;> decide
theorem two_dvd_two_pow_ffM (f : FF) : 2 ∣ 2 ^ ffM f := by cases f <;> decide
theorem two_pow_ffM_succ (f : FF) : 2 ^ (ffM f + 1) = 2 ^ ffM f * 2 := Nat.pow_succ ..

/-- The three fields of a code laid out by hand. -/
theorem fields_of_code (f : FF) (neg : Bool) {a b : Nat} (ha : a < 2 ^ ffE f) (hb : b < 2 ^ ffM f) :
    let x := ffZero f neg + (a * 2 ^ ffM f + b)
    x % 2 ^ ffM f = b ∧ (x >>> ffM f) % 2 ^ ffE f = a ∧ bit x (ffSign f) = neg := by
  intro x
  have hx : x = (b2n neg * 2 ^ ffE f + a) * 2 ^ ffM f + b := by
    simp only [x, ffZero, ffSign, Nat.pow_add, Nat.add_mul, Nat.mul_assoc, Nat.add_assoc]
  have hlow : a * 2 ^ ffM f + b < 2 ^ ffSign f := by
    calc a * 2 ^ ffM f + b < (a + 1) * 2 ^ ffM f := by rw [Nat.succ_mul]; omega
      _ ≤ 2 ^ ffE f * 2 ^ ffM f := Nat.mul_le_mul_right _ ha
      _ = 2 ^ ffSign f := (Nat.pow_add ..).symm
  have hdiv : x / 2 ^ ffM f = b2n neg * 2 ^ ffE f + a := by
    rw [hx, Nat.mul_comm, Nat.mul_add_div (Nat.two_pow_pos _), Nat.div_eq_of_lt hb, Nat.add_zero]
  refine ⟨?mantissa, ?exponent, ?sign⟩
  case mantissa => rw [hx, Nat.mul_add_mod', Nat.mod_eq_of_lt hb]
  case exponent => rw [Nat.shiftRight_eq_div_pow, hdiv, Nat.mul_add_mod', Nat.mod_eq_of_lt ha]
  case sign =>
    rw [bit, show x = 2 ^ ffSign f * b2n neg + (a * 2 ^ ffM f + b) by rw [Nat.mul_comm, ← ffZero], Nat.testBit_two_pow_mul_add _ hlow,
      if_neg (Nat.lt_irrefl _), Nat.sub_self]
    cases neg <;> rfl

theorem fdec_inf (f : FF) (neg : Bool) : fdec f (ffInf f neg) = .inf neg := by
  obtain ⟨hm, he, hs⟩ := fields_of_code f neg (a := 2 ^ ffE f - 1) (b := 0) (Nat.sub_lt (Nat.two_pow_pos _) Nat.one_pos) (Nat.two_pow_pos _)
  rw [Nat.add_zero] at hm he hs
  rw [ffInf, ← ffZero]
  simp only [fdec, hm, he, hs, if_true]

theorem fdec_subnormal (f : FF) (neg : Bool) {b : Nat} (hb : b < 2 ^ ffM f) :
    fdec f (ffZero f neg + b) = .fin neg b (ffEmin f - ffM f) := by
  obtain ⟨hm, he, hs⟩ := fields_of_code f neg (a := 0) (Nat.two_pow_pos _) hb
  have hE := two_pow_ffE f
  rw [Nat.zero_mul, Nat.zero_add] at hm he hs
  simp only [fdec, hm, he, hs, if_true]
  exact if_neg (by omega)

/-- The codes of exponent field n + 1. -/
theorem fdec_normal (f : FF) (neg : Bool) {n b : Nat} (hn : n < 2 * ffBias f) (hb : b < 2 ^ ffM f) :
    fdec f (ffZero f neg + ((n + 1) * 2 ^ ffM f + b)) = .fin neg (2 ^ ffM f + b) (ffEmin f - ffM f + n) := by
  have hE := two_pow_ffE f
  obtain ⟨hm, he, hs⟩ := fields_of_code f neg (a := n + 1) (by omega) hb
  have hexp : ((n + 1 : Nat) : Int) - ffBias f - ffM f = ffEmin f - ffM f + n := by
    simp only [ffEmin]
    omega
  simp only [fdec, hm, he, hs]
  rw [if_neg (by omega), if_neg n.succ_ne_zero, hexp, Nat.add_comm b]

/-- Codes in order are values in order: the code n * 2^M + r is r units of the n-th exponent, also where r carries into the next. -/
theorem fdec_code (f : FF) (neg : Bool) {n r : Nat} (hn : n = 0 ∨ 2 ^ ffM f ≤ r) (hr : r ≤ 2 ^ (ffM f + 1))
    (hfit : (if r = 2 ^ (ffM f + 1) then n + 1 else n) < 2 * ffBias f) :
    ∃ mr er, fdec f (ffZero f neg + (n * 2 ^ ffM f + r)) = .fin neg mr er ∧
      ∀ j : Int, j ≤ ffEmin f - ffM f → magAt j mr er = magAt j r (ffEmin f - ffM f + n) := by
  have hpow := two_pow_ffM_succ f
  rcases Nat.lt_or_ge r (2 ^ ffM f) with hsub | hge
  · obtain rfl : n = 0 := hn.resolve_right (Nat.not_le.2 hsub)
    refine ⟨r, ffEmin f - ffM f, ?_, fun j _ => ?_⟩
    · rw [Nat.zero_mul, Nat.zero_add, fdec_subnormal f neg hsub]
    · rw [Int.natCast_zero, Int.add_zero]
  rcases Nat.lt_or_eq_of_le hr with hlt | rfl
  · rw [if_neg (Nat.ne_of_lt hlt)] at hfit
    obtain ⟨b, rfl⟩ := Nat.exists_eq_add_of_le hge
    refine ⟨2 ^ ffM f + b, ffEmin f - ffM f + n, ?_, fun _ _ => rfl⟩
    rw [← Nat.add_assoc (n * _), ← Nat.succ_mul]
    exact fdec_normal f neg hfit (by omega)
  · rw [if_pos rfl] at hfit
    refine ⟨2 ^ ffM f + 0, ffEmin f - ffM f + (n + 1 : Nat), ?_, fun j hj => ?_⟩
    · rw [← fdec_normal f neg hfit (Nat.two_pow_pos _), hpow]
      congr 2
      simp only [Nat.succ_mul]
      omega
    · rw [Int.natCast_succ, ← Int.add_assoc, Nat.add_zero, hpow]
      exact magAt_add_nat (by omega) _ 1

/-- A code is even where its units are. -/
theorem code_mod_two (f : FF) (neg : Bool) (n r : Nat) : (ffZero f neg + (n * 2 ^ ffM f + r)) % 2 = r % 2 := by
  have hsign : 2 ∣ ffZero f neg := by
    rw [ffZero, ffSign, Nat.pow_add]
    exact Nat.dvd_mul_left_of_dvd (Nat.dvd_mul_left_of_dvd (two_dvd_two_pow_ffM f) _) _
  have hexp : 2 ∣ n * 2 ^ ffM f := Nat.dvd_mul_left_of_dvd (two_dvd_two_pow_ffM f) n
  omega

/-- The largest finite magnitude of a format (R88). -/
def maxMag (f : FF) (j : Int) : Nat := magAt j (2 ^ (ffM f + 1) - 1) (ffBias f - ffM f)

theorem fdec_max (f : FF) (neg : Bool) : ∃ mr er, fdec f (ffMax f neg) = .fin neg mr er ∧
    ∀ j : Int, j ≤ ffEmin f - ffM f → magAt j mr er = maxMag f j := by
  have hE := two_pow_ffE f
  have hbias := ffBias_pos f
  have hp : 0 < 2 ^ ffM f := Nat.two_pow_pos _
  have hpow := two_pow_ffM_succ f
  have hcode : ffMax f neg = ffZero f neg + ((2 * ffBias f - 1) * 2 ^ ffM f + (2 ^ (ffM f + 1) - 1)) := by
    obtain ⟨c, hc⟩ : ∃ c, 2 * ffBias f = c + 1 := ⟨2 * ffBias f - 1, by omega⟩
    rw [ffMax, ffInf, ← ffZero, hE, hc, hpow, Nat.add_sub_cancel, show c + 1 + 2 - 1 = c + 1 + 1 from rfl, Nat.succ_mul, Nat.succ_mul]
    omega
  have hexp : ffEmin f - ffM f + (2 * ffBias f - 1 : Nat) = (ffBias f : Int) - ffM f := by
    simp only [ffEmin]
    omega
  obtain ⟨mr, er, hdec, hmag⟩ := fdec_code f neg (n := 2 * ffBias f - 1) (r := 2 ^ (ffM f + 1) - 1) (.inr (by omega))
    (Nat.sub_le _ _) (by rw [if_neg (by omega)]; omega)
  rw [hexp] at hmag
  exact ⟨mr, er, hcode ▸ hdec, hmag⟩

theorem fin_bounds {f : FF} {x m : Nat} {s : Bool} {e : Int} (h : fdec f x = .fin s m e) :
    m < 2 ^ (ffM f + 1) ∧ ffEmin f - ffM f ≤ e ∧ e ≤ ffBias f - ffM f := by
  have hE := two_pow_ffE f
  have hbias := ffBias_pos f
  have hpow := two_pow_ffM_succ f
  have hm : x % 2 ^ ffM f < 2 ^ ffM f := Nat.mod_lt _ (Nat.two_pow_pos _)
  have he : (x >>> ffM f) % 2 ^ ffE f < 2 ^ ffE f := Nat.mod_lt _ (Nat.two_pow_pos _)
  simp only [fdec, ffEmin] at h ⊢
  split at h
  next => split at h <;> cases h
  next htop =>
    split at h
    next => cases h; omega
    next => cases h; omega

theorem fin_le_maxMag {f : FF} {x m : Nat} {s : Bool} {j e : Int} (h : fdec f x = .fin s m e) (hj : j ≤ ffEmin f - ffM f) :
    magAt j m e ≤ maxMag f j := by
  obtain ⟨hm, hmin, he⟩ := fin_bounds h
  obtain ⟨n, hn⟩ := Int.le.dest he
  rw [maxMag, ← hn, magAt_add_nat (Int.le_trans hj hmin), magAt_le_iff]
  exact Nat.le_trans (Nat.le_sub_one_of_lt hm) (Nat.le_mul_of_pos_right _ (Nat.two_pow_pos n))

/-- No finite value lies strictly between two neighbouring multiples of a unit that the format's precision reaches. -/
theorem fin_outside_gap {f : FF} {x m : Nat} {s : Bool} {j e : Int} (h : fdec f x = .fin s m e) {hi : Nat} {q : Int}
    (hj : j ≤ ffEmin f - ffM f) (hjq : j ≤ q) (hq : q = ffEmin f - ffM f ∨ 2 ^ ffM f ≤ hi) :
    magAt j m e ≤ magAt j hi q ∨ magAt j (hi + 1) q ≤ magAt j m e := by
  obtain ⟨hm, hmin, -⟩ := fin_bounds h
  rcases Int.lt_or_le e q with hqe | hqe
  · obtain ⟨n, rfl⟩ := Int.le.dest (Int.add_one_le_of_lt hqe)
    left
    rw [Int.add_assoc, ← Int.natCast_one, ← Int.natCast_add, magAt_add_nat (Int.le_trans hj hmin), magAt_le_iff]
    calc m ≤ 2 ^ ffM f * 2 ^ 1 := by rw [← Nat.pow_add]; omega
      _ ≤ hi * 2 ^ (1 + n) := Nat.mul_le_mul (hq.resolve_left (by omega)) (Nat.pow_le_pow_right (by decide) (Nat.le_add_right 1 n))
  · obtain ⟨n, rfl⟩ := Int.le.dest hqe
    rw [magAt_add_nat hjq, magAt_le_iff, magAt_le_iff]
    omega

/-! ### The two results of `froundMag` -/

/-- The unit's exponent: the lowest bit that the format's precision, or its smallest exponent, leaves of a value (R88). -/
def unitExp (f : FF) (m : Nat) (e : Int) : Int := max ((bitLen m : Int) - 1 + e - ffM f) (ffEmin f - ffM f)

theorem bitLen_bounds {m : Nat} (hm : m ≠ 0) : 2 ^ (bitLen m - 1) ≤ m ∧ m < 2 ^ bitLen m := by
  rw [bitLen, if_neg hm, Nat.add_sub_cancel]
  exact ⟨Nat.log2_self_le hm, Nat.lt_log2_self⟩

theorem bitLen_pos {m : Nat} (hm : m ≠ 0) : 0 < bitLen m := by
  rw [bitLen, if_neg hm]
  exact Nat.succ_pos _

theorem ffEmin_le_unitExp (f : FF) (m : Nat) (e : Int) : ffEmin f - ffM f ≤ unitExp f m e := Int.le_max_right ..

/-- The whole units of a value fit the format's precision, and have all of it above the smallest exponent. -/
theorem unit_bounds {f : FF} {m hi : Nat} {j e : Int} (hm : m ≠ 0) (hje : j ≤ e) (hj : j ≤ ffEmin f - ffM f)
    (hlo : magAt j hi (unitExp f m e) ≤ magAt j m e) (hhi : magAt j m e < magAt j (hi + 1) (unitExp f m e)) :
    hi < 2 ^ (ffM f + 1) ∧ (unitExp f m e = ffEmin f - ffM f ∨ 2 ^ ffM f ≤ hi) := by
  obtain ⟨hge, hlt⟩ := bitLen_bounds hm
  have hpos := bitLen_pos hm
  constructor
  · have hbin : magAt j (2 ^ bitLen m) e ≤ magAt j (2 ^ (ffM f + 1)) (unitExp f m e) := by
      rw [magAt_two_pow, magAt_two_pow]
      exact Nat.pow_le_pow_right (by decide) (by unfold unitExp; omega)
    exact magAt_lt_iff.1 (Nat.lt_of_le_of_lt hlo (Nat.lt_of_lt_of_le (magAt_lt_iff.2 hlt) hbin))
  · refine Decidable.or_iff_not_imp_left.2 fun hne => Nat.le_of_lt_succ ?_
    have hbin : magAt j (2 ^ ffM f) (unitExp f m e) = magAt j (2 ^ (bitLen m - 1)) e := by
      rw [magAt_two_pow, magAt_two_pow]
      congr 1
      unfold unitExp at hne ⊢
      omega
    exact magAt_lt_iff.1 (Nat.lt_of_le_of_lt (Nat.le_trans (Nat.le_of_eq hbin) (magAt_le_iff.2 hge)) hhi)

/-- What `roundAt` answers at the format's unit. -/
theorem roundAt_unit {f : FF} (md : RMode) (neg : Bool) {m : Nat} {j e : Int} (hm : m ≠ 0) (hje : j ≤ e) (hj : j ≤ ffEmin f - ffM f) :
    ∃ hi lo : Nat, magAt j m e = magAt j hi (unitExp f m e) + lo ∧ lo < 2 ^ (unitExp f m e - j).toNat ∧
      hi < 2 ^ (ffM f + 1) ∧ (unitExp f m e = ffEmin f - ffM f ∨ 2 ^ ffM f ≤ hi) ∧
      roundAt md neg m e (unitExp f m e) = (hi + b2n (roundsUp md neg hi lo (2 ^ (unitExp f m e - j).toNat)), lo != 0) := by
  obtain ⟨hi, lo, hx, hlt, hr⟩ := roundAt_spec md neg m hje (Int.le_trans hj (ffEmin_le_unitExp f m e))
  obtain ⟨hfit, hprec⟩ := unit_bounds hm hje hj (hx ▸ Nat.le_add_right _ _) (by rw [magAt_succ, hx]; omega)
  exact ⟨hi, lo, hx, hlt, hfit, hprec, hr⟩

/-- The rounded units still fit the format's precision, or carry to the next power of two. -/
theorem roundAt_unit_bounds (f : FF) (md : RMode) (neg : Bool) {m : Nat} (e : Int) (hm : m ≠ 0) :
    (roundAt md neg m e (unitExp f m e)).1 ≤ 2 ^ (ffM f + 1) ∧
      (unitExp f m e = ffEmin f - ffM f ∨ 2 ^ ffM f ≤ (roundAt md neg m e (unitExp f m e)).1) := by
  obtain ⟨hi, lo, -, -, hfit, hprec, hr⟩ := roundAt_unit md neg hm (Int.min_le_left e (ffEmin f - ffM f)) (Int.min_le_right ..)
  have hb := b2n_le_one (roundsUp md neg hi lo (2 ^ (unitExp f m e - min e (ffEmin f - ffM f)).toNat))
  rw [hr]
  exact ⟨by omega, hprec.imp_right fun h => Nat.le_trans h (Nat.le_add_right _ _)⟩

/-- The exponent of the leading bit of r units, where a rounding that carried is one above the precision. -/
def topExp (f : FF) (r : Nat) (q : Int) : Int := if r = 2 ^ (ffM f + 1) then q + ffM f + 1 else q + ffM f

theorem froundMag_overflow {f : FF} {md : RMode} {neg : Bool} {m : Nat} {e : Int} (hm : m ≠ 0)
    (h : (ffBias f : Int) < topExp f (roundAt md neg m e (unitExp f m e)).1 (unitExp f m e)) :
    froundMag f md false neg m e = (if mayGrow md neg then ffInf f neg else ffMax f neg, fOF ||| fIX) := by
  unfold topExp unitExp at h
  simp only [froundMag, if_neg hm, Bool.and_false, Bool.false_eq_true, if_false, if_pos h]
  rfl

theorem inexact_flag : ∀ uf ix : Bool, (((if uf && ix then fUF else 0) ||| if ix then fIX else 0) &&& fIX != 0) = ix := by decide
theorem overflow_inexact : ((fOF ||| fIX) &&& fIX != 0) = true := by decide

theorem froundMag_inRange {f : FF} {md : RMode} {neg : Bool} {m n : Nat} {e : Int} (hm : m ≠ 0)
    (h : topExp f (roundAt md neg m e (unitExp f m e)).1 (unitExp f m e) ≤ ffBias f) (hu : unitExp f m e = ffEmin f - ffM f + n) :
    let r := roundAt md neg m e (unitExp f m e)
    (froundMag f md false neg m e).1 = ffZero f neg + (n * 2 ^ ffM f + r.1) ∧ ((froundMag f md false neg m e).2 &&& fIX != 0) = r.2 := by
  intro r
  have hexp : (unitExp f m e - (ffEmin f - ffM f) + 1).toNat = n + 1 := by omega
  have hcode : (if r.1 < 2 ^ ffM f then r.1 else (n + 1) * 2 ^ ffM f + (r.1 - 2 ^ ffM f)) = n * 2 ^ ffM f + r.1 := by
    split
    next hr =>
      obtain rfl : n = 0 := by
        have hunit := (roundAt_unit_bounds f md neg e hm).2.resolve_right (Nat.not_le.2 hr)
        omega
      rw [Nat.zero_mul, Nat.zero_add]
    next hr =>
      rw [Nat.succ_mul]
      omega
  rw [← hcode, ← hexp]
  rw [← Int.not_lt] at h
  unfold topExp unitExp at h
  simp only [froundMag, if_neg hm, Bool.and_false, Bool.false_eq_true, if_false, if_neg h]
  exact ⟨rfl, inexact_flag _ _⟩

/-- A rounding whose leading bit is above the largest exponent comes from a value above every finite one. -/
theorem maxMag_lt_of_overflow {f : FF} {md : RMode} {neg : Bool} {m : Nat} {j e : Int} (hm : m ≠ 0)
    (h : (ffBias f : Int) < topExp f (roundAt md neg m e (unitExp f m e)).1 (unitExp f m e))
    (hje : j ≤ e) (hj : j ≤ ffEmin f - ffM f) : maxMag f j < magAt j m e := by
  obtain ⟨hi, lo, hx, hlt, hfit, hprec, hr⟩ := roundAt_unit md neg hm hje hj
  have hbias := ffBias_pos f
  have hle : magAt j hi (unitExp f m e) ≤ magAt j m e := hx ▸ Nat.le_add_right _ _
  rw [hr, topExp] at h
  rcases Int.lt_or_le (ffBias f : Int) (unitExp f m e + ffM f) with hexp | hexp
  · have hhi : 2 ^ ffM f ≤ hi := hprec.resolve_left (by unfold ffEmin; omega)
    calc maxMag f j < magAt j (2 ^ (ffM f + 1)) (ffBias f - ffM f) := magAt_lt_iff.2 (Nat.sub_lt (Nat.two_pow_pos _) Nat.one_pos)
      _ ≤ magAt j (2 ^ ffM f) (unitExp f m e) := by
        rw [magAt_two_pow, magAt_two_pow]
        exact Nat.pow_le_pow_right (by decide) (by unfold ffEmin at hj; omega)
      _ ≤ magAt j hi (unitExp f m e) := magAt_le_iff.2 hhi
      _ ≤ magAt j m e := hle
  · split at h
    next hcarry =>
      have hunit : unitExp f m e = ffBias f - ffM f := by omega
      cases hup : roundsUp md neg hi lo (2 ^ (unitExp f m e - j).toNat) with
      | false =>
        rw [hup, b2n_false] at hcarry
        omega
      | true =>
        have hlo := ne_zero_of_roundsUp hlt hup
        rw [hup, b2n_true] at hcarry
        have hhi : hi = 2 ^ (ffM f + 1) - 1 := by omega
        rw [maxMag, ← hhi, ← hunit]
        omega
    next => omega

/-- R91: the answer r is a finite value, inexact where it differs from the exact one, and right against every finite value. -/
def RoundsToFinite (f : FF) (md : RMode) (neg : Bool) (m : Nat) (e : Int) (r : Nat × Flags) : Prop :=
  ∃ mr er, fdec f r.1 = .fin neg mr er ∧ ∀ j, j ≤ e → j ≤ ffEmin f - ffM f →
    ((r.2 &&& fIX != 0) = true ↔ magAt j m e ≠ magAt j mr er) ∧
    ∀ x sx mx ex, fdec f x = .fin sx mx ex →
      RoundsTo md (r.1 % 2 = 0) (sgn neg (magAt j m e)) (sgn neg (magAt j mr er)) (sgn sx (magAt j mx ex))

/-- R91: the answer r is the infinity of a value above every finite one. -/
def RoundsToInf (f : FF) (md : RMode) (neg : Bool) (m : Nat) (e : Int) (r : Nat × Flags) : Prop :=
  fdec f r.1 = .inf neg ∧ mayGrow md neg = true ∧ r.2 = (fOF ||| fIX) ∧ ∀ j, j ≤ e → j ≤ ffEmin f - ffM f → maxMag f j < magAt j m e

theorem ffMax_roundsToFinite {f : FF} {md : RMode} {neg : Bool} {m : Nat} {e : Int} (hgrow : mayGrow md neg = false)
    (hmax : ∀ j, j ≤ e → j ≤ ffEmin f - ffM f → maxMag f j < magAt j m e) :
    RoundsToFinite f md neg m e (ffMax f neg, fOF ||| fIX) := by
  obtain ⟨mr, er, hdec, hmag⟩ := fdec_max f neg
  refine ⟨mr, er, hdec, fun j hje hj => ?_⟩
  rw [hmag j hj]
  refine ⟨iff_of_true overflow_inexact (Nat.ne_of_gt (hmax j hje hj)), fun x sx mx ex hx => ?_⟩
  refine roundsTo_of_truncates hgrow (Nat.le_of_lt (hmax j hje hj)) (.inl ?_)
  rw [natAbs_sgn]
  exact fin_le_maxMag hx hj

theorem froundMag_roundsToFinite {f : FF} {md : RMode} {neg : Bool} {m : Nat} {e : Int} (hm : m ≠ 0)
    (hfit : topExp f (roundAt md neg m e (unitExp f m e)).1 (unitExp f m e) ≤ ffBias f) :
    RoundsToFinite f md neg m e (froundMag f md false neg m e) := by
  obtain ⟨n, hn⟩ := Int.le.dest (ffEmin_le_unitExp f m e)
  obtain ⟨hr, hprec⟩ := roundAt_unit_bounds f md neg e hm
  obtain ⟨hcode, hflag⟩ := froundMag_inRange hm hfit hn.symm
  have hn0 : n < 2 * ffBias f ∧ ((roundAt md neg m e (unitExp f m e)).1 = 2 ^ (ffM f + 1) → n + 1 < 2 * ffBias f) := by
    simp only [topExp, ffEmin] at hfit hn
    split at hfit <;> omega
  have hnorm : n = 0 ∨ 2 ^ ffM f ≤ (roundAt md neg m e (unitExp f m e)).1 := hprec.imp_left (by omega)
  obtain ⟨mr, er, hdec, hmag⟩ := fdec_code f neg hnorm hr (by
    split
    next h => exact hn0.2 h
    next => exact hn0.1)
  rw [hn] at hmag
  refine ⟨mr, er, by rw [hcode]; exact hdec, fun j hje hj => ?_⟩
  obtain ⟨hi, lo, hx, hlt, -, hprec', hround⟩ := roundAt_unit md neg hm hje hj
  rw [hflag, hcode, code_mod_two, hmag j hj, hround]
  refine ⟨rest_iff_ne md neg hx hlt, fun x sx mx ex hfin => roundsTo_of_roundsUp hx hlt ?_⟩
  rw [natAbs_sgn]
  exact fin_outside_gap hfin hj (Int.le_trans hj (ffEmin_le_unitExp f m e)) hprec'

/-- R91: what `froundMag` answers, without flush-to-zero. -/
theorem froundMag_finite_or_inf (f : FF) (md : RMode) (neg : Bool) {m : Nat} (e : Int) (hm : m ≠ 0) :
    RoundsToFinite f md neg m e (froundMag f md false neg m e) ∨ RoundsToInf f md neg m e (froundMag f md false neg m e) := by
  rcases Int.lt_or_le (ffBias f : Int) (topExp f (roundAt md neg m e (unitExp f m e)).1 (unitExp f m e)) with hover | hfit
  · have hmax := fun j => maxMag_lt_of_overflow (j := j) hm hover
    rw [froundMag_overflow hm hover]
    cases hgrow : mayGrow md neg with
    | true => exact .inr ⟨fdec_inf f neg, hgrow, rfl, hmax⟩
    | false => exact .inl (ffMax_roundsToFinite hgrow hmax)
  · exact .inl (froundMag_roundsToFinite hm hfit)

/-- Settles O55: a value in range is rounded to a multiple of its unit, and no finite value lies between the two multiples around
it; a value out of range is above every finite one. The claim at the scale k follows from the one at a scale below all values. -/
theorem floatRounding : Obligations.FloatRounding := by
  intro f md neg m e hm
  rcases froundMag_finite_or_inf f md neg e hm with ⟨mr, er, hdec, hround⟩ | ⟨hdec, hgrow, hflags, hmax⟩
  · simp only [hdec, scaled_eq]
    refine ⟨trivial, fun k hke hkr => ?_⟩
    have hjk := Int.min_le_left k (ffEmin f - ffM f)
    have hc := Nat.two_pow_pos (k - min k (ffEmin f - ffM f)).toNat
    obtain ⟨hix, hnear⟩ := hround _ (Int.le_trans hjk hke) (Int.min_le_right ..)
    rw [magAt_finer hjk hke, magAt_finer hjk hkr] at hix hnear
    refine ⟨?inexact, fun x sx mx ex hx hkx => ?nearest⟩
    case inexact => rw [Bool.eq_iff_iff, hix, bne_iff_ne, ne_eq, ne_eq, sgn_inj, Nat.mul_right_cancel_iff hc]
    case nearest =>
      have h := hnear x sx mx ex hx
      rw [magAt_finer hjk hkx, sgn_mul, sgn_mul, sgn_mul] at h
      have h' := roundsTo_of_mul hc h
      cases md <;> exact h'
  · simp only [hdec, scaled_eq]
    refine ⟨trivial, ?notTruncating, ?positive, ?negative, hflags, fun k hke _ x sx mx ex hx hkx => ?above⟩
    case notTruncating => rintro rfl; cases hgrow
    case positive => rintro rfl; rwa [mayGrow_ru, Bool.not_eq_true'] at hgrow
    case negative => rintro rfl; exact hgrow
    case above =>
      have hjk := Int.min_le_left k (ffEmin f - ffM f)
      have hlt := Nat.lt_of_le_of_lt (fin_le_maxMag hx (Int.min_le_right ..)) (hmax _ (Int.le_trans hjk hke) (Int.min_le_right ..))
      rw [magAt_finer hjk hke, magAt_finer hjk hkx, Nat.mul_lt_mul_right (Nat.two_pow_pos _)] at hlt
      rwa [natAbs_sgn, natAbs_sgn]

end Sys2Proof.Machine
end

section
/-! The lane ALU's words as bit vectors: the model's integers `wrap`, `sext` and `elemInt` and its packed lists (R85, R159) in terms of
`BitVec`, the elements of an element-by-element result, and what a lane instruction that always completes answers. -/

namespace Sys2Proof.Machine

/-! ### Integers of a word -/

theorem wrap_eq_toNat (x : Int) (n : Nat) : wrap x n = (BitVec.ofInt n x).toNat := rfl

@[simp] theorem ofNat_wrap (x : Int) (n : Nat) : BitVec.ofNat n (wrap x n) = BitVec.ofInt n x := by
  rw [wrap_eq_toNat, BitVec.ofNat_toNat, BitVec.setWidth_eq]

/-- R85: sign extension reads the word as a two's-complement number. -/
theorem sext_eq_toInt (x n : Nat) : sext x n = (BitVec.ofNat n x).toInt := by
  have hmsb : (BitVec.ofNat n x).msb = (bit x (n - 1) && n != 0) := by
    have hn : decide (n - 1 < n) = (n != 0) := by
      rw [Bool.eq_iff_iff, decide_eq_true_eq, bne_iff_ne]
      omega
    rw [BitVec.msb_eq_getLsbD_last, BitVec.getLsbD_ofNat, Bool.and_comm, hn, bit]
  rw [BitVec.toInt_eq_msb_cond, hmsb, BitVec.toNat_ofNat, sext]

theorem ofInt_sub (n : Nat) (x y : Int) : BitVec.ofInt n (x - y) = BitVec.ofInt n x - BitVec.ofInt n y := by
  rw [Int.sub_eq_add_neg, BitVec.ofInt_add, BitVec.ofInt_neg, BitVec.sub_eq_add_neg]

/-! ### The value of an element under a type -/

/-- An element read under a type's signedness (R159). -/
def elemVal (ty : Ty) {w : Nat} (x : BitVec w) : Int := if tySigned ty then x.toInt else x.toNat

section
variable {ty : Ty} {w : Nat} {x y : BitVec w}

theorem elemVal_of_signed (h : tySigned ty = true) (x : BitVec w) : elemVal ty x = x.toInt := if_pos h

theorem elemVal_of_unsigned (h : tySigned ty = false) (x : BitVec w) : elemVal ty x = x.toNat := if_neg (ne_true_of_eq_false h)

theorem elemInt_eq_elemVal (ty : Ty) (w x : Nat) : elemInt ty w x = elemVal ty (BitVec.ofNat w x) := by
  rw [elemInt, elemVal, sext_eq_toInt, BitVec.toNat_ofNat]

@[simp] theorem ofInt_elemVal (ty : Ty) (x : BitVec w) : BitVec.ofInt w (elemVal ty x) = x := by
  unfold elemVal
  split
  · exact BitVec.ofInt_toInt
  · rw [BitVec.ofInt_natCast, BitVec.ofNat_toNat, BitVec.setWidth_eq]

theorem elemVal_eq_zero_iff : elemVal ty x = 0 ↔ x = 0 := by
  constructor
  · intro h
    rw [← ofInt_elemVal ty x, h]; rfl
  · rintro rfl
    simp [elemVal]

theorem elemVal_neg_iff : elemVal ty x < 0 ↔ (tySigned ty && x.msb) = true := by
  cases h : tySigned ty
  · simp [elemVal_of_unsigned h]
  · simp [elemVal_of_signed h, BitVec.msb_eq_toInt]

theorem elemVal_le_iff : elemVal ty x ≤ elemVal ty y ↔ (if tySigned ty then x.sle y else x.ule y) = true := by
  cases h : tySigned ty
  · simp [elemVal_of_unsigned h, BitVec.ule_iff_toNat_le]
  · simp [elemVal_of_signed h, BitVec.sle_iff_toInt_le]

end

/-! ### Packed elements -/

theorem tyElems_width_pos (ty : Ty) : 0 < (tyElems ty).1 := by cases ty <;> decide

theorem packElems_shiftRight_mod (w : Nat) (l : List Nat) (e : Nat) (h : e < l.length) :
    (packElems w l >>> (e * w)) % 2 ^ w = l[e] % 2 ^ w := by
  induction l generalizing e with
  | nil => cases h
  | cons x xs ih =>
    cases e with
    | zero => simp [packElems, Nat.add_mul_mod_self_left]
    | succ e =>
      have htail : packElems w (x :: xs) >>> w = packElems w xs := by
        rw [packElems, Nat.shiftRight_eq_div_pow, Nat.add_mul_div_left _ _ (Nat.two_pow_pos w),
          Nat.div_eq_of_lt (Nat.mod_lt _ (Nat.two_pow_pos w)), Nat.zero_add]
      rw [Nat.succ_mul, Nat.add_comm, Nat.shiftRight_add, htail, List.getElem_cons_succ]
      exact ih e (Nat.lt_of_succ_lt_succ h)

theorem elemAt_packElems (ty : Ty) {l : List Nat} {e : Nat} (h : e < l.length) :
    elemAt ty (packElems (tyElems ty).1 l) e = BitVec.ofNat (tyElems ty).1 l[e] :=
  BitVec.eq_of_toNat_eq (packElems_shiftRight_mod _ l e h)

@[simp] theorem length_elems (w n x : Nat) : (elems w n x).length = n := by simp [elems]

theorem getElem_elems (ty : Ty) (n x : Nat) {e : Nat} (h : e < (elems (tyElems ty).1 n x).length) :
    (elems (tyElems ty).1 n x)[e] = (elemAt ty x e).toNat := by
  simp [elems, elemAt]

/-- Element e of a packed list of results is made from the elements e of the two operands. -/
theorem elemAt_packElems_zipWith (ty : Ty) (f : Nat → Nat → Nat) (a b : Nat) {e : Nat} (h : e < (tyElems ty).2) :
    elemAt ty (packElems (tyElems ty).1 (List.zipWith f (elems (tyElems ty).1 (tyElems ty).2 a) (elems (tyElems ty).1 (tyElems ty).2 b))) e =
      BitVec.ofNat _ (f (elemAt ty a e).toNat (elemAt ty b e).toNat) := by
  rw [elemAt_packElems ty (by simpa using h), List.getElem_zipWith, getElem_elems, getElem_elems]

/-! ### Completion -/

/-- An instruction whose meaning is `runLane` without a rule of its own completes with its body's results. -/
theorem laneResult_of_runLane {mk : FormR → Instr} {op : Nat} {sp : FormR → LaneSpec} {body : FormR → LaneIn → LaneOut}
    (h : ∀ f s, exec (mk f) s = runLane s op f noDyn (fun _ => sp f) (body f)) : LaneResult mk op sp body :=
  fun _ _ _ f hissue hframe => (h f _).trans (Laws.runLane_next hissue op f (fun _ => sp f) (body f) hframe)

end Sys2Proof.Machine
end

section
/-! R159: addition, subtraction, negation, absolute value, minimum and maximum element by element, and O32. -/

namespace Sys2Proof.Machine

open Sys2Proof.Laws

/-- An element's result brought into the range of the type where the instruction saturates. -/
def satIf (ty : Ty) (w : Nat) (saturate : Bool) (r : Int) : Int := if saturate then sat r (elemRange ty w).1 (elemRange ty w).2 else r

theorem elemOp2_eq (ty : Ty) (saturate : Bool) (f : Int → Int → Int) (a b : Nat) :
    elemOp2 ty saturate f a b = packElems (tyElems ty).1 (List.zipWith
      (fun x y => wrap (satIf ty (tyElems ty).1 saturate (f (elemInt ty (tyElems ty).1 x) (elemInt ty (tyElems ty).1 y))) (tyElems ty).1)
      (elems (tyElems ty).1 (tyElems ty).2 a) (elems (tyElems ty).1 (tyElems ty).2 b)) := rfl

theorem elemAt_elemOp2 {ty : Ty} (saturate : Bool) (f : Int → Int → Int) (a b : Nat) {e : Nat} (he : e < (tyElems ty).2) :
    elemAt ty (elemOp2 ty saturate f a b) e =
      BitVec.ofInt _ (satIf ty (tyElems ty).1 saturate (f (elemVal ty (elemAt ty a e)) (elemVal ty (elemAt ty b e)))) := by
  rw [elemOp2_eq, elemAt_packElems_zipWith ty _ a b he]
  simp only [ofNat_wrap, elemInt_eq_elemVal, BitVec.ofNat_toNat, BitVec.setWidth_eq]

/-! ### Saturation -/

theorem sat_eq_max_min {lo hi : Int} (h : lo ≤ hi) (r : Int) : sat r lo hi = max lo (min hi r) := by
  rw [sat]
  split
  next => omega
  next => split <;> omega

theorem satIf_of_signed {ty : Ty} (h : tySigned ty = true) (w : Nat) (r : Int) :
    satIf ty w true r = max (-2 ^ (w - 1)) (min (2 ^ (w - 1) - 1) r) := by
  have hpos : (0 : Int) < 2 ^ (w - 1) := Int.pow_pos (by decide)
  have hcast : ((2 ^ (w - 1) : Nat) : Int) = 2 ^ (w - 1) := Int.natCast_pow 2 (w - 1)
  simp only [satIf, elemRange, h, if_true, hcast]
  exact sat_eq_max_min (by omega) r

theorem satIf_of_unsigned {ty : Ty} (h : tySigned ty = false) (w : Nat) (r : Int) :
    satIf ty w true r = (min (2 ^ w - 1) r.toNat : Nat) := by
  have hpos := Nat.two_pow_pos w
  simp only [satIf, elemRange, h, if_true, Bool.false_eq_true, if_false]
  rw [sat_eq_max_min] <;> omega

/-- A saturated result is in range, so the element holds it unchanged. -/
theorem toInt_ofInt_satIf {ty : Ty} (h : tySigned ty = true) {w : Nat} (hw : 0 < w) (r : Int) :
    (BitVec.ofInt w (satIf ty w true r)).toInt = max (-2 ^ (w - 1)) (min (2 ^ (w - 1) - 1) r) := by
  have hpos : (0 : Int) < 2 ^ (w - 1) := Int.pow_pos (by decide)
  rw [satIf_of_signed h]
  exact BitVec.toInt_ofInt_eq_self hw (by omega) (by omega)

theorem toNat_ofInt_satIf {ty : Ty} (h : tySigned ty = false) (w : Nat) (r : Int) :
    (BitVec.ofInt w (satIf ty w true r)).toNat = min (2 ^ w - 1) r.toNat := by
  have hpos := Nat.two_pow_pos w
  rw [satIf_of_unsigned h, BitVec.ofInt_natCast, BitVec.toNat_ofNat, Nat.mod_eq_of_lt (by omega)]

/-! ### O32 -/

section
variable {ty : Ty} {e : Nat} (he : e < (tyElems ty).2)
include he

/-- R159 without `.sat`: the results modulo 2^w. -/
theorem elemAt_wrapping (a b : Nat) :
    let x := elemAt ty a e
    let y := elemAt ty b e
    elemAt ty (iaddVal ty false a b) e = x + y ∧ elemAt ty (isubVal ty false a b) e = x - y ∧ elemAt ty (inegVal ty false a) e = -x ∧
    elemAt ty (iabsVal ty false a) e = (if tySigned ty && x.msb then -x else x) ∧
    elemAt ty (iminVal ty a b) e = (if (if tySigned ty then x.sle y else x.ule y) then x else y) ∧
    elemAt ty (imaxVal ty a b) e = (if (if tySigned ty then x.sle y else x.ule y) then y else x) := by
  have hop (f) (a b : Nat) : elemAt ty (elemOp2 ty false f a b) e = BitVec.ofInt _ (f (elemVal ty (elemAt ty a e)) (elemVal ty (elemAt ty b e))) :=
    elemAt_elemOp2 false f a b he
  simp only [iaddVal, isubVal, inegVal, iabsVal, iminVal, imaxVal, hop, apply_ite (BitVec.ofInt _), BitVec.ofInt_add, ofInt_sub,
    BitVec.ofInt_neg, ofInt_elemVal, elemVal_neg_iff, elemVal_le_iff, and_self]

/-- R159 with `.sat`, signed types. -/
theorem elemAt_saturating_signed (h : tySigned ty = true) (f : Int → Int → Int) (a b : Nat) :
    (elemAt ty (elemOp2 ty true f a b) e).toInt =
      max (-2 ^ ((tyElems ty).1 - 1)) (min (2 ^ ((tyElems ty).1 - 1) - 1) (f (elemAt ty a e).toInt (elemAt ty b e).toInt)) := by
  rw [elemAt_elemOp2 true f a b he, toInt_ofInt_satIf h (tyElems_width_pos ty), elemVal_of_signed h, elemVal_of_signed h]

/-- R159 with `.sat`, unsigned types. -/
theorem elemAt_saturating_unsigned (h : tySigned ty = false) (f : Int → Int → Int) (a b : Nat) :
    (elemAt ty (elemOp2 ty true f a b) e).toNat =
      min (2 ^ (tyElems ty).1 - 1) (f (elemAt ty a e).toNat (elemAt ty b e).toNat).toNat := by
  rw [elemAt_elemOp2 true f a b he, toNat_ofInt_satIf h, elemVal_of_unsigned h, elemVal_of_unsigned h]

end

/-- Settles O32: each instruction is `runLane` with its value function, whose element e is the operation on the elements e, brought into
range by `satIf` and then taken modulo 2^w. -/
theorem elementArithmetic : Obligations.ElementArithmetic := by
  refine ⟨laneResult_of_runLane exec_iadd, laneResult_of_runLane exec_isub, laneResult_of_runLane exec_ineg,
    laneResult_of_runLane exec_iabs, laneResult_of_runLane exec_imin, laneResult_of_runLane exec_imax,
    fun ty a b e he => elemAt_wrapping he a b, fun ty a b e he hs => ?signed, fun ty a b e he hs => ?unsigned⟩
  case signed =>
    have hop := elemAt_saturating_signed he hs
    refine ⟨hop _ a b, hop _ a b, hop _ a 0, (hop _ a 0).trans ?_⟩
    have habs (x : Int) : (if x < 0 then -x else x) = x.natAbs := by omega
    rw [habs]
  case unsigned =>
    have hop := elemAt_saturating_unsigned he hs
    have hx := (elemAt ty a e).isLt
    refine ⟨(hop _ a b).trans ?_, (hop _ a b).trans ?_, BitVec.eq_of_toNat_eq ((hop _ a 0).trans ?_), (hop _ a 0).trans ?_⟩
    · omega
    · omega
    · simp
    · split <;> omega

end Sys2Proof.Machine
end

section
/-! R160: addition and subtraction with a carry, and O33. -/

namespace Sys2Proof.Machine

open Sys2Proof.Laws

theorem toNat_ofNat_carry {w : Nat} (hw : 0 < w) (c : Bool) : (BitVec.ofNat w (if c then 1 else 0)).toNat = b2n c := by
  have hone : 1 < 2 ^ w := Nat.one_lt_two_pow (Nat.ne_of_gt hw)
  cases c
  · simp [b2n]
  · simp [b2n, Nat.mod_eq_of_lt hone]

section
variable {w : Nat} (hw : 0 < w) (a b : Nat) (c : Bool)
include hw

theorem addCarry_eq :
    let x := BitVec.ofNat w a
    let y := BitVec.ofNat w b
    let k := BitVec.ofNat w (if c then 1 else 0)
    addCarry w a b c = ((x + y + k).toNat, decide (2 ^ w ≤ x.toNat + y.toNat + k.toNat)) := by
  intro x y k
  rw [BitVec.toNat_add, BitVec.toNat_add, Nat.mod_add_mod, toNat_ofNat_carry hw]; rfl

theorem subBorrow_eq :
    let x := BitVec.ofNat w a
    let y := BitVec.ofNat w b
    let k := BitVec.ofNat w (if c then 1 else 0)
    subBorrow w a b c = ((x - y - k).toNat, decide (x.toNat < y.toNat + k.toNat)) := by
  intro x y k
  have hdiff : subBorrow w a b c = (wrap ((x.toNat : Int) - y.toNat - k.toNat) w, decide ((x.toNat : Int) - y.toNat - k.toNat < 0)) := by
    rw [toNat_ofNat_carry hw]; rfl
  rw [hdiff, wrap_eq_toNat, ofInt_sub, ofInt_sub, Prod.mk.injEq, decide_eq_decide]
  simp only [BitVec.ofInt_natCast, BitVec.ofNat_toNat, BitVec.setWidth_eq, true_and]
  omega

end

/-- Settles O33: the sum and the difference are those of `BitVec` at the width, with the carry where the exact sum reaches 2^w and the
borrow where the exact difference is negative; mask register 0 is constant by its own reading rule (R154). -/
theorem carryArithmetic : Obligations.CarryArithmetic := by
  refine ⟨laneResult_of_runLane exec_iaddc, laneResult_of_runLane exec_isubb, fun w a b c hw => ?_, fun g l bs => ⟨rfl, rfl⟩⟩
  have hpos : 0 < w := by omega
  simp only [addCarry_eq hpos, subBorrow_eq hpos, BitVec.ofNat_toNat, BitVec.setWidth_eq, decide_eq_true_eq, BitVec.isLt, and_self]

end Sys2Proof.Machine
end

section
/-! R162: division, the trap on a zero divisor, and O34. -/

namespace Sys2Proof.Machine

open Sys2Proof.Laws

/-! ### Quotient and remainder -/

section
variable {ty : Ty} {a b : Nat}

theorem idivremVal_eq (ty : Ty) (a b : Nat) :
    let x := elemVal ty (BitVec.ofNat (tyElems ty).1 a)
    let y := elemVal ty (BitVec.ofNat (tyElems ty).1 b)
    idivremVal ty a b = if y = 0 then (2 ^ (tyElems ty).1 - 1, (BitVec.ofNat (tyElems ty).1 a).toNat)
      else ((BitVec.ofInt (tyElems ty).1 (x.tdiv y)).toNat, (BitVec.ofInt (tyElems ty).1 (x.tmod y)).toNat) := by
  intro x y
  have hx : elemInt ty (tyElems ty).1 a = x := elemInt_eq_elemVal ..
  have hy : elemInt ty (tyElems ty).1 b = y := elemInt_eq_elemVal ..
  rw [Int.tmod_def, Int.mul_comm y, ← hx, ← hy]; rfl

theorem idivremVal_of_zero (hy : BitVec.ofNat (tyElems ty).1 b = 0) :
    idivremVal ty a b = (2 ^ (tyElems ty).1 - 1, (BitVec.ofNat (tyElems ty).1 a).toNat) :=
  (idivremVal_eq ty a b).trans (if_pos (elemVal_eq_zero_iff.2 hy))

theorem idivremVal_of_ne_zero (hy : BitVec.ofNat (tyElems ty).1 b ≠ 0) :
    let x := elemVal ty (BitVec.ofNat (tyElems ty).1 a)
    let y := elemVal ty (BitVec.ofNat (tyElems ty).1 b)
    idivremVal ty a b = ((BitVec.ofInt (tyElems ty).1 (x.tdiv y)).toNat, (BitVec.ofInt (tyElems ty).1 (x.tmod y)).toNat) :=
  (idivremVal_eq ty a b).trans (if_neg (mt elemVal_eq_zero_iff.1 hy))

/-- Signed division: the most negative value by -1 wraps to itself, as `BitVec.sdiv` does. -/
theorem idivremVal_of_signed (hs : tySigned ty = true) (hy : BitVec.ofNat (tyElems ty).1 b ≠ 0) :
    let x := BitVec.ofNat (tyElems ty).1 a
    let y := BitVec.ofNat (tyElems ty).1 b
    idivremVal ty a b = ((x.sdiv y).toNat, (x.srem y).toNat) := by
  intro x y
  rw [idivremVal_of_ne_zero hy, elemVal_of_signed hs, elemVal_of_signed hs, ← BitVec.toInt_srem, BitVec.ofInt_toInt]
  congr 2
  exact BitVec.eq_of_toInt_eq (by rw [BitVec.toInt_sdiv, BitVec.toInt_ofInt])

theorem idivremVal_of_unsigned (hs : tySigned ty = false) (hy : BitVec.ofNat (tyElems ty).1 b ≠ 0) :
    let x := BitVec.ofNat (tyElems ty).1 a
    let y := BitVec.ofNat (tyElems ty).1 b
    idivremVal ty a b = (x.toNat / y.toNat, x.toNat % y.toNat) := by
  intro x y
  have hq : x.toNat / y.toNat < 2 ^ (tyElems ty).1 := Nat.lt_of_le_of_lt (Nat.div_le_self ..) x.isLt
  have hr : x.toNat % y.toNat < 2 ^ (tyElems ty).1 := Nat.lt_of_le_of_lt (Nat.mod_le ..) x.isLt
  rw [idivremVal_of_ne_zero hy, elemVal_of_unsigned hs, elemVal_of_unsigned hs, ← Int.ofNat_tdiv, ← Int.ofNat_tmod, BitVec.ofInt_natCast,
    BitVec.ofInt_natCast]
  exact Prod.ext (Nat.mod_eq_of_lt hq) (Nat.mod_eq_of_lt hr)

end

/-! ### The two instructions -/

/-- The trap of a division under `.trap`: its lanes are those whose divisor is zero. -/
def divideTrap (ty : Ty) (is : List LaneIn) : Option (Cause × List Nat × W64) :=
  let z := (is.filter (fun i => i.b % 2 ^ (tyElems ty).1 == 0)).map LaneIn.l
  if z.isEmpty then none else some (.intDivide, z, 0)

theorem divideTrap_of_all {ty : Ty} {is : List LaneIn} (h : is.all (fun i => i.b % 2 ^ (tyElems ty).1 != 0) = true) :
    divideTrap ty is = none := by
  have hz : is.filter (fun i => i.b % 2 ^ (tyElems ty).1 == 0) = [] :=
    List.filter_eq_nil_iff.2 fun i hi => by simpa using List.all_eq_true.1 h i hi
  rw [divideTrap, hz]; rfl

theorem divideTrap_of_ne_nil {ty : Ty} {is : List LaneIn} {z : List Nat} (hz : z ≠ [])
    (h : (is.filter (fun i => i.b % 2 ^ (tyElems ty).1 == 0)).map LaneIn.l = z) : divideTrap ty is = some (.intDivide, z, 0) := by
  rw [divideTrap, h]
  exact if_neg (by simpa using hz)

/-- How IDIV and IREM are performed: under `.trap` as a whole, else pass by pass. -/
def Divides (mk : FormR → Instr) (op : Nat) (body : FormR → LaneIn → LaneOut) : Prop :=
  ∀ f s, exec (mk f) s = if variant f then runWhole s op f (spAB f.ty (divLat f.ty)) (divideTrap f.ty) (body f)
    else runLane s op f noDyn (fun _ => spAB f.ty (divLat f.ty)) (body f)

theorem divides_idiv : Divides .idiv 0x11 (fun f i => outV (idivremVal f.ty i.a i.b).1) := exec_idiv

theorem divides_irem : Divides .irem 0x12 (fun f i => outV (idivremVal f.ty i.a i.b).2) := exec_irem

section
variable {mk : FormR → Instr} {op : Nat} {body : FormR → LaneIn → LaneOut} (hd : Divides mk op body)
include hd

theorem Divides.laneResult : LaneResultIf mk op (fun f _ => !variant f) (fun f _ => spAB f.ty (divLat f.ty)) (fun f _ => body f) := by
  intro s g c f hissue hvar hframe
  rw [hd f s, if_neg (by simpa using hvar)]
  exact runLane_next hissue op f (fun _ => spAB f.ty (divLat f.ty)) (body f) hframe

theorem Divides.wholeResult :
    WholeResultIf mk op variant (fun f => spAB f.ty (divLat f.ty)) (fun f i => i.b % 2 ^ (tyElems f.ty).1 != 0) body := by
  intro s g c f hissue hvar hframe hfine
  rw [hd f s, if_pos hvar, runWhole_out hissue, hframe, divideTrap_of_all hfine, ite_self]

/-- R162, R487: the lanes of the trap are those whose divisor is zero, read at the first issued pass. -/
theorem Divides.trap {s : State} {g : Group} {c : Clause} {f : FormR} (hissue : Issues s g c) (hvar : variant f = true)
    (hframe : frameFail g (laneOpds f (spAB f.ty (divLat f.ty))) = none) :
    let x := touchSrc (due s g) f (spAB f.ty (divLat f.ty))
    let z := (lanesOf (effFirst s g f.gd)).filter (fun l => rdOpd x f.b f.ty l % 2 ^ (tyElems f.ty).1 == 0)
    z ≠ [] → exec (mk f) s = .next (takeTrap (putGM s x) x.g.id 0x08 0 (maskOf z) 0 (wordR op f) (pcOf c) (pcOf c) (some c)) := by
  intro x z hz
  have heff : effFirst s g f.gd ≠ 0 := fun h0 => hz (by simp [z, h0, lanesOf])
  have hlanes : ((wholeIns (due s g) f (spAB f.ty (divLat f.ty)) (effFirst s g f.gd)).filter
      (fun i => i.b % 2 ^ (tyElems f.ty).1 == 0)).map LaneIn.l = z := by
    rw [wholeIns, List.filter_map, List.map_map]
    exact List.map_id _
  rw [hd f s, if_pos hvar, runWhole_out hissue, hframe, if_neg heff, divideTrap_of_ne_nil hz hlanes]
  rfl

end

/-- Settles O34: both instructions are of the form `Divides`, and the quotient and remainder are those of `BitVec` division. -/
theorem divisionResults : Obligations.DivisionResults := by
  refine ⟨divides_idiv.laneResult, divides_irem.laneResult, divides_idiv.wholeResult, divides_irem.wholeResult, ?trap,
    fun ty a b _ => ⟨idivremVal_of_zero, fun hy hs => idivremVal_of_signed hs hy, fun hy hs => idivremVal_of_unsigned hs hy⟩⟩
  case trap =>
    intro mk op hmk s g c f hissue hvar hframe
    simp only [List.mem_cons, Prod.mk.injEq, List.not_mem_nil, or_false] at hmk
    obtain ⟨rfl, rfl⟩ | ⟨rfl, rfl⟩ := hmk
    · exact divides_idiv.trap hissue hvar hframe
    · exact divides_irem.trap hissue hvar hframe

end Sys2Proof.Machine
end

section
/-! R165: the shifts of each element, FUNNEL, and O35. -/

namespace Sys2Proof.Machine

open Sys2Proof.Laws

/-! ### One element -/

theorem shlBits_eq_toNat (w a n : Nat) : shlBits w a n = (BitVec.ofNat w a <<< n).toNat := by
  rw [BitVec.toNat_shiftLeft, BitVec.toNat_ofNat, Nat.shiftLeft_eq, Nat.mod_mul_mod, shlBits]
  split
  next => rfl
  next h => exact (Nat.mod_eq_zero_of_dvd (Nat.dvd_mul_left_of_dvd (Nat.pow_dvd_pow 2 (Nat.not_lt.1 h)) a)).symm

theorem shrBits_eq_toNat (w a n : Nat) : shrBits w a n = (BitVec.ofNat w a >>> n).toNat := by
  rw [BitVec.toNat_ushiftRight, BitVec.toNat_ofNat, Nat.shiftRight_eq_div_pow, shrBits]
  split
  next => rfl
  next h =>
    have hlt : a % 2 ^ w < 2 ^ n := Nat.lt_of_lt_of_le (Nat.mod_lt _ (Nat.two_pow_pos w)) (Nat.pow_le_pow_right (by decide) (Nat.not_lt.1 h))
    exact (Nat.div_eq_of_lt hlt).symm

/-- Shifting by the width leaves the sign in every bit, and so does shifting by more. -/
theorem sshiftRight_min {w : Nat} (x : BitVec w) (n : Nat) : x.sshiftRight (min n w) = x.sshiftRight n := by
  ext i hi
  have hsame : min n w + i < w ↔ n + i < w := by omega
  simp only [BitVec.getElem_sshiftRight, hsame]
  split
  next h => simp only [Nat.min_eq_left (show n ≤ w by omega)]
  next => rfl

theorem sarBits_eq_toNat (w a n : Nat) : sarBits w a n = ((BitVec.ofNat w a).sshiftRight n).toNat := by
  rw [sarBits, wrap_eq_toNat, sext_eq_toInt, ← sshiftRight_min]; rfl

/-- The two parts of a rotated word do not overlap, so their sum is their union. -/
theorem rotBits_eq_toNat {w : Nat} (hw : 0 < w) (a n : Nat) : rotBits w a n = ((BitVec.ofNat w a).rotateLeft n).toNat := by
  have hk := Nat.mod_lt n hw
  have hpow : 2 ^ w = 2 ^ (w - n % w) * 2 ^ (n % w) := by rw [← Nat.pow_add, Nat.sub_add_cancel (Nat.le_of_lt hk)]
  have hhigh : a % 2 ^ w * 2 ^ (n % w) % 2 ^ w = (a % 2 ^ w % 2 ^ (w - n % w)) <<< (n % w) := by
    rw [Nat.shiftLeft_eq, ← Nat.mul_mod_mul_right (2 ^ (n % w)) (a % 2 ^ w), ← hpow]
  have hlow : a % 2 ^ w / 2 ^ (w - n % w) < 2 ^ (n % w) := Nat.div_lt_of_lt_mul (hpow ▸ Nat.mod_lt _ (Nat.two_pow_pos w))
  rw [BitVec.toNat_rotateLeft, BitVec.toNat_ofNat, Nat.shiftLeft_eq, Nat.shiftRight_eq_div_pow, hhigh,
    ← Nat.shiftLeft_add_eq_or_of_lt hlow, ← hhigh]; rfl

/-! ### FUNNEL -/

theorem funnelVal_eq (l : Bool) (a b c : Nat) :
    funnelVal l a b c = (let v := BitVec.ofNat 32 a ++ BitVec.ofNat 32 b
      if l then ((v <<< (c % 64)) >>> 32).toNat else (BitVec.setWidth 32 (v >>> (c % 64))).toNat) := by
  have hv : (BitVec.ofNat 32 a ++ BitVec.ofNat 32 b).toNat = (a % 2 ^ 32) * 2 ^ 32 + b % 2 ^ 32 := by
    rw [BitVec.toNat_append, ← Nat.shiftLeft_add_eq_or_of_lt (BitVec.isLt _), Nat.shiftLeft_eq, BitVec.toNat_ofNat, BitVec.toNat_ofNat]
  cases l
  · simp [funnelVal, hv, Nat.shiftRight_eq_div_pow]
  · simp [funnelVal, hv, Nat.shiftRight_eq_div_pow, Nat.shiftLeft_eq]

/-! ### Every element -/

theorem ofNat_mod_two_pow (w a : Nat) : BitVec.ofNat w (a % 2 ^ w) = BitVec.ofNat w a := BitVec.eq_of_toNat_eq (Nat.mod_mod ..)

/-- A shift looks at the low w bits of its element alone. -/
theorem shift_mod_two_pow {f : Nat → Nat → Nat → Nat} (hf : f ∈ [shlBits, shrBits, sarBits, rotBits]) {w : Nat} (hw : 0 < w) (a n : Nat) :
    f w (a % 2 ^ w) n = f w a n := by
  simp only [List.mem_cons, List.not_mem_nil, or_false] at hf
  obtain rfl | rfl | rfl | rfl := hf
  · rw [shlBits_eq_toNat, ofNat_mod_two_pow, ← shlBits_eq_toNat]
  · rw [shrBits_eq_toNat, ofNat_mod_two_pow, ← shrBits_eq_toNat]
  · rw [sarBits_eq_toNat, ofNat_mod_two_pow, ← sarBits_eq_toNat]
  · rw [rotBits_eq_toNat hw, ofNat_mod_two_pow, ← rotBits_eq_toNat hw]

theorem shiftVal_eq (f : Nat → Nat → Nat → Nat) (ty : Ty) (a b : Nat) :
    shiftVal f ty a b = if (tyElems ty).2 = 1 then f (tyElems ty).1 a (b % 2 ^ 32)
      else packElems (tyElems ty).1 (List.zipWith (f (tyElems ty).1) (elems (tyElems ty).1 (tyElems ty).2 a) (elems (tyElems ty).1 (tyElems ty).2 b)) := rfl

theorem elemAt_zero (ty : Ty) (x : Nat) : elemAt ty x 0 = BitVec.ofNat _ x := by simp [elemAt]

theorem elemAt_shiftVal {f : Nat → Nat → Nat → Nat} (hf : f ∈ [shlBits, shrBits, sarBits, rotBits]) {ty : Ty} (a b : Nat) {e : Nat}
    (he : e < (tyElems ty).2) :
    elemAt ty (shiftVal f ty a b) e =
      BitVec.ofNat _ (f (tyElems ty).1 (elemAt ty a e).toNat (if (tyElems ty).2 = 1 then b % 2 ^ 32 else (elemAt ty b e).toNat)) := by
  rw [shiftVal_eq]
  split
  next hone =>
    obtain rfl : e = 0 := by omega
    rw [elemAt_zero, elemAt_zero, BitVec.toNat_ofNat, shift_mod_two_pow hf (tyElems_width_pos ty)]
  next => exact elemAt_packElems_zipWith ty _ a b he

/-- Settles O35: each shift of an element is that of `BitVec`, for every count; the packed result holds the shifted elements. -/
theorem shiftResults : Obligations.ShiftResults := by
  refine ⟨laneResult_of_runLane exec_shl, laneResult_of_runLane exec_shr, laneResult_of_runLane exec_sar, laneResult_of_runLane exec_rot,
    laneResult_of_runLane exec_funnel, fun w a n hw => ?_, fun f ty a b e hf he => elemAt_shiftVal hf a b he, funnelVal_eq⟩
  have hpos : 0 < w := by
    rcases w with _ | w
    · simp at hw
    · exact w.succ_pos
  simp only [shlBits_eq_toNat, shrBits_eq_toNat, sarBits_eq_toNat, rotBits_eq_toNat hpos, BitVec.ofNat_toNat, BitVec.setWidth_eq,
    BitVec.isLt, and_self]

end Sys2Proof.Machine
end

section
/-! Traps to the user handler and the return from them (R281 to R286, R292): what the landing of the scheduled writes leaves unchanged,
the handler's group, what a return restores, O40 and O41. -/

namespace Sys2Proof.Machine

/-! ### What landing leaves unchanged -/

/-- A group without what the landing of a scheduled write may change (R56, R58). -/
def landRest (g : Group) : Group :=
  { g with scal := [], masks := [], pend := [], flags := 0, trapen := 0, scopeflag := false, hintmiss := 0, oc := none, regPast := [] }

theorem kput_rest (g : Group) (n : Nat) (bs : List (Nat × Bool)) : landRest (kput g n bs) = landRest g := by
  unfold kput
  split <;> rfl

theorem regNote_rest (x : GM) (r l : Nat) : landRest (regNote x r l).g = landRest x.g := by
  unfold regNote
  split <;> rfl

theorem putReg_rest (x : GM) (r l : Nat) (v : W32) (through : Bool) : landRest (putReg x r l v through).g = landRest x.g := by
  refine Eq.trans ?_ (regNote_rest x r l)
  unfold putReg
  dsimp only
  split
  · rfl
  · split <;> rfl

theorem landWrite_rest (x : GM) (w : RegWrite) : landRest (landWrite x w).g = landRest x.g := by
  cases w with
  | vreg r vs t => exact List.foldlRecOn vs _ (motive := fun y => landRest y.g = landRest x.g) rfl fun y hy v _ => (putReg_rest y r v.1 v.2 t).trans hy
  | kreg n bs => exact kput_rest x.g n bs
  | sreg | flagsOr | flagsSet | trapenSet | scopeflagSet | hintmissSet => rfl

theorem landList_rest (x : GM) (ps : List Pend) : landRest (landList x ps).g = landRest x.g :=
  List.foldlRecOn ps _ (motive := fun y => landRest y.g = landRest x.g) rfl fun y hy p _ => (landWrite_rest y p.w).trans hy

/-- Landing changes scalars, masks, float state and the entry set alone. -/
theorem landAll_rest (x : GM) : landRest (landAll x).g = landRest x.g := landList_rest _ _

section
variable (x : GM)

@[simp] theorem landAll_id : (landAll x).g.id = x.g.id := (congrArg Group.id (landAll_rest x) :)
@[simp] theorem landAll_cur : (landAll x).g.cur = x.g.cur := (congrArg Group.cur (landAll_rest x) :)
@[simp] theorem landAll_fibres : (landAll x).g.fibres = x.g.fibres := (congrArg Group.fibres (landAll_rest x) :)
@[simp] theorem landAll_exited : (landAll x).g.exited = x.g.exited := (congrArg Group.exited (landAll_rest x) :)
@[simp] theorem landAll_conts : (landAll x).g.conts = x.g.conts := (congrArg Group.conts (landAll_rest x) :)
@[simp] theorem landAll_rets : (landAll x).g.rets = x.g.rets := (congrArg Group.rets (landAll_rest x) :)
@[simp] theorem landAll_hEntry : (landAll x).g.hEntry = x.g.hEntry := (congrArg Group.hEntry (landAll_rest x) :)
@[simp] theorem landAll_hShift : (landAll x).g.hShift = x.g.hShift := (congrArg Group.hShift (landAll_rest x) :)
@[simp] theorem landAll_trapCount : (landAll x).g.trapCount = x.g.trapCount := (congrArg Group.trapCount (landAll_rest x) :)
@[simp] theorem landAll_pendTraps : (landAll x).g.pendTraps = x.g.pendTraps := (congrArg Group.pendTraps (landAll_rest x) :)
@[simp] theorem predOf_landAll : predOf (landAll x).g = predOf x.g := by simp [predOf]
@[simp] theorem wbaseOf_landAll : wbaseOf (landAll x).g = wbaseOf x.g := by simp [wbaseOf]
@[simp] theorem contLanes_landAll : contLanes (landAll x).g = contLanes x.g := by simp [contLanes]

end

@[simp] theorem gmOf_g (s : State) (g : Group) : (gmOf s g).g = g := rfl

/-! ### One group put back -/

theorem map_num_modBy {α : Type} (num : α → Nat) (l : List α) (i : Nat) (f : α → α) (hf : ∀ a, num a = i → num (f a) = i) :
    (modBy num l i f).map num = l.map num := by
  rw [modBy, List.map_map]
  refine List.map_congr_left fun a _ => ?_
  rw [Function.comp_apply]
  split
  next h => exact (hf a h).trans h.symm
  next => rfl

/-- A group put back with memory is the only group that has changed. -/
theorem putGM_onlyGroup {s : State} {g : Group} {x : GM} (hg : getG s g.id = some g) (hid : x.g.id = g.id) :
    OnlyGroup s (putGM s x) g x.g := by
  rw [← hid] at hg
  rw [OnlyGroup, ← hid]
  exact ⟨map_num_modBy Group.id s.groups x.g.id _ fun _ _ => rfl, fun i hi => getG_putGM_ne s x i hi, getG_putGM s x g hg⟩

/-! ### The trap (R284) -/

/-- R284: the group once its handler fibre has taken over from the trapped one, with its trap record. -/
def handlerGroup (g : Group) (r : TrapRec) (resume : Nat) (rem : Option Clause) : Group :=
  { g with
    trec := r, trapCount := g.trapCount + 1, hMode := true, trapDue := none, pos := 0, phase := .header, park := .none
    pendTraps := g.pendTraps.map (fun p => { p with kept := true })
    trapped := g.cur.map (fun f => { f with pc := resume, rem := rem }), trapRets := g.rets
    cur := some { pc := g.hEntry, pred := predOf g, wbase := wbaseOf g + g.hShift, waitc := 0, wake := none, hnd := true, rem := none } }

section
variable (g : Group) (r : TrapRec) (resume : Nat) (rem : Option Clause)

@[simp] theorem handlerGroup_fibres : (handlerGroup g r resume rem).fibres = g.fibres := rfl
@[simp] theorem handlerGroup_exited : (handlerGroup g r resume rem).exited = g.exited := rfl
@[simp] theorem contLanes_handlerGroup : contLanes (handlerGroup g r resume rem) = contLanes g := rfl
@[simp] theorem handlerGroup_rets : (handlerGroup g r resume rem).rets = g.rets := rfl
theorem handlerGroup_trapRets : (handlerGroup g r resume rem).trapRets = (handlerGroup g r resume rem).rets := rfl
@[simp] theorem handlerGroup_trapped :
    (handlerGroup g r resume rem).trapped = g.cur.map (fun f => { f with pc := resume, rem := rem }) := rfl

end

section
variable {s : State} {g : Group} {cause sub : Nat}

/-- A trap that its handler receives puts back the group as `handlerGroup` has it, the scheduled writes landed. -/
theorem takeTrap_toUser (lanes : Mask) (addr word : W64) (pc resume : Nat) (rem : Option Clause) (hg : getG s g.id = some g)
    (hu : toUser s (landAll (gmOf s g)).g cause sub = true) :
    let x := landAll (gmOf s g)
    takeTrap s g.id cause sub lanes addr word pc resume rem =
      putGM s { x with g := handlerGroup x.g (trapRec x.g cause sub lanes addr word pc resume false true) resume rem } := by
  obtain ⟨hnone, -⟩ | ⟨k, hk, ⟨-, ht⟩ | ⟨hsys, -⟩⟩ := takeTrap_cases s g.id cause sub lanes addr word pc resume rem
  · cases hg.symm.trans hnone
  · cases hg.symm.trans hk
    exact ht
  · cases hg.symm.trans hk
    cases hu.symm.trans hsys

theorem takeTrap_toUser_onlyGroup (lanes : Mask) (addr word : W64) (pc resume : Nat) (rem : Option Clause) (hg : getG s g.id = some g)
    (hu : toUser s (landAll (gmOf s g)).g cause sub = true) :
    let x := landAll (gmOf s g)
    OnlyGroup s (takeTrap s g.id cause sub lanes addr word pc resume rem) g
      (handlerGroup x.g (trapRec x.g cause sub lanes addr word pc resume false true) resume rem) := by
  rw [takeTrap_toUser lanes addr word pc resume rem hg hu]
  exact putGM_onlyGroup hg (landAll_id _)

end

/-- Settles O40: the trap puts back `handlerGroup` of the landed group, whose fibre, return stacks and trap state the landing left alone. -/
theorem trapToHandler : Obligations.TrapToHandler := by
  intro s g cause sub lanes addr word pc resume rem hg x hu h t
  have hh : handlerGroup x.g (trapRec x.g cause sub lanes addr word pc resume false true) resume rem = h := by
    simp [handlerGroup, h, x]
  refine ⟨hh ▸ takeTrap_toUser_onlyGroup lanes addr word pc resume rem hg hu, ?_⟩
  simp only [t, takeTrap_toUser lanes addr word pc resume rem hg hu]
  rfl

/-! ### The return (R286, R292) -/

theorem and_not_eq_self {w : Nat} {x y : BitVec w} (h : x &&& y = 0) : x &&& ~~~y = x := by
  calc x &&& ~~~y = x &&& y ||| x &&& ~~~y := by rw [h, BitVec.ofNat_eq_ofNat, BitVec.zero_or]
    _ = x := by rw [← BitVec.and_or_distrib_left]; simp

/-- Lanes whose stacks at the trap are those they have now keep them. -/
theorem restoreRets_of_eq {g : Group} (h : g.trapRets = g.rets) (pred : Mask) : restoreRets g pred = g.rets := by
  rw [restoreRets, h]
  refine List.ext_getElem (by simp) fun i hi _ => ?_
  have hlt : i < g.rets.length := by simpa using hi
  simp [nth, hlt]

section
variable (g : Group) (resume : Nat) (rem : Option Clause)

theorem returnTrap_pos : (returnTrap g resume rem).pos = 0 := rfl
theorem returnTrap_hMode : (returnTrap g resume rem).hMode = false := rfl
theorem returnTrap_trapped : (returnTrap g resume rem).trapped = none := rfl
@[simp] theorem returnTrap_fibres : (returnTrap g resume rem).fibres = g.fibres.filter (fun h => !h.hnd) := rfl
theorem returnTrap_scal : (returnTrap g resume rem).scal = g.scal := rfl
theorem returnTrap_masks : (returnTrap g resume rem).masks = g.masks := rfl
theorem returnTrap_trec : (returnTrap g resume rem).trec = g.trec := rfl
@[simp] theorem returnTrap_exited : (returnTrap g resume rem).exited = g.exited := rfl

variable {g}

theorem returnTrap_rets (h : g.trapRets = g.rets) : (returnTrap g resume rem).rets = g.rets := restoreRets_of_eq h _

/-- The fibre that a return leaves goes on in the remainder of its clause where there is one, else at a header. -/
theorem returnTrap_phase {k : Fibre} (h : (returnTrap g resume rem).cur = some k) :
    (returnTrap g resume rem).phase = rem.elim .header .inClause := by
  have hphase : (returnTrap g resume rem).phase = match (generalizing := false) (returnTrap g resume rem).cur, rem with
      | none, _ => .boundary false false
      | some _, some c => .inClause c
      | some _, none => .header := rfl
  rw [hphase, h]
  cases rem <;> rfl

/-- A trapped fibre with lanes, none of which has exited or registered, goes on with its predicate word. -/
theorem returnTrap_cur {f : Fibre} (hf : g.trapped = some f) (hpred : f.pred ≠ 0) (hexited : f.pred &&& g.exited = 0)
    (hconts : f.pred &&& contLanes g = 0) : (returnTrap g resume rem).cur = some { f with pc := resume, rem := none } := by
  have hkeep : f.pred &&& ~~~g.exited &&& ~~~(contLanes g) = f.pred := by rw [and_not_eq_self hexited, and_not_eq_self hconts]
  rw [(returnTrap_live g f resume rem hf (hkeep.symm ▸ hpred)).1, hkeep]

end

/-- Settles O41: the return finds in the handler's group the trapped fibre, whose lanes all resume, and the return stacks that the trap
kept; the rest of the group is as the trap left it. -/
theorem trapThenReturn : Obligations.TrapThenReturn := by
  intro s g f cause sub lanes addr word pc resume rem hg hu hcur hpred hexited hconts
  obtain ⟨-, -, hget⟩ := takeTrap_toUser_onlyGroup lanes addr word pc resume rem hg hu
  refine ⟨_, hget, ?_⟩
  intro r
  have hback : r.cur = some { f with pc := resume, rem := none } :=
    returnTrap_cur (f := { f with pc := resume, rem := rem }) resume rem (by simp [hcur]) hpred (by simpa using hexited) (by simpa using hconts)
  have hrets : r.rets = g.rets := (returnTrap_rets resume rem (handlerGroup_trapRets ..)).trans (by simp)
  refine ⟨hback, returnTrap_hMode .., returnTrap_trapped .., returnTrap_pos .., ?phase, by simp [r], returnTrap_scal ..,
    returnTrap_masks .., hrets, returnTrap_trec .., by simp [r]⟩
  case phase =>
    rw [returnTrap_phase resume rem hback]
    cases rem <;> rfl

end Sys2Proof.Machine
end

section
/-! R310: the fields of a barrier object as the barrier unit writes it, what an update makes of them, the object read back from memory,
and O53. -/

namespace Sys2Proof.Machine

/-! ### The fields of an object (R308) -/

theorem bits_mod_two_pow {h lo n : Nat} (x : Nat) (hn : h + 1 - lo = n) : bits x h lo % 2 ^ n = bits x h lo := by
  rw [← hn]
  exact Nat.mod_mod _ _

theorem b2n_bit (x i : Nat) : b2n (bit x i) = bits x i i := by
  rw [bits, Nat.add_sub_cancel_left, Nat.shiftRight_eq_div_pow, Nat.pow_one, bit, ← Nat.toNat_testBit]
  cases Nat.testBit x i <;> rfl

theorem bit_eq_of_bits {x i : Nat} {b : Bool} (h : bits x i i = b2n b) : bit x i = b := by
  rw [← b2n_bit] at h
  revert h
  cases bit x i <;> cases b <;> decide

/-- A packed object holds each field at its place and 0 in the reserved ones. -/
theorem objPack_fields {phase expa penda pendb expb errcnt : Nat} {err over' init : Bool} {chead p : Nat}
    (hp : p = objPack phase expa penda pendb expb errcnt err over' init chead) :
    p < 2 ^ 256 ∧ bits p 31 0 = phase % 2 ^ 32 ∧ bits p 47 32 = expa % 2 ^ 16 ∧ bits p 63 48 = penda % 2 ^ 16 ∧
    bits p 111 64 = pendb % 2 ^ 48 ∧ bits p 159 112 = expb % 2 ^ 48 ∧ bits p 175 160 = errcnt % 2 ^ 16 ∧ bits p 176 176 = b2n err ∧
    bits p 177 177 = b2n over' ∧ bits p 178 178 = b2n init ∧ bits p 191 179 = 0 ∧ bits p 207 192 = chead % 2 ^ 16 ∧ bits p 255 208 = 0 := by
  have herr := Laws.b2n_lt err
  have hover := Laws.b2n_lt over'
  have hinit := Laws.b2n_lt init
  subst hp
  simp only [objPack, bits, Nat.shiftRight_eq_div_pow]
  refine ⟨?_, ?_, ?_, ?_, ?_, ?_, ?_, ?_, ?_, ?_, ?_, ?_, ?_⟩ <;> omega

theorem ite_mod (p : Prop) [Decidable p] (a b n : Nat) : (if p then a else b) % n = if p then a % n else b % n := apply_ite (· % n) p a b

/-! ### An update (R310) -/

/-- PENDA after the update's arrival, before a completion. -/
def updPenda (o : Nat) (u : UpdItem) : Nat := if u.a && bits o 63 48 != 0 then bits o 63 48 - 1 else bits o 63 48

/-- PENDB after the update's bytes, before a completion. -/
def updPendb (o : Nat) (u : UpdItem) : Nat := (((bits o 111 64 : Int) + u.e - u.c) % 2 ^ 48).toNat

/-- The update completes the object's phase. -/
def updFin (o : Nat) (u : UpdItem) : Bool := bit o 178 && updPenda o u == 0 && updPendb o u == 0

/-- ERRCNT after the update. -/
def updErrcnt (o : Nat) (u : UpdItem) : Nat := min ((if u.clr then 0 else bits o 175 160) + u.z) 0xFFFF

theorem updPenda_lt (o : Nat) (u : UpdItem) : updPenda o u < 2 ^ 16 := by
  have : bits o 63 48 < 2 ^ 16 := Nat.mod_lt _ (Nat.two_pow_pos 16)
  unfold updPenda
  split <;> omega

theorem updPendb_lt (o : Nat) (u : UpdItem) : updPendb o u < 2 ^ 48 := by
  unfold updPendb
  omega

theorem updErrcnt_lt (o : Nat) (u : UpdItem) : updErrcnt o u < 2 ^ 16 := by
  unfold updErrcnt
  omega

/-- An arrival at PENDA 0 leaves it 0. -/
theorem penda_sub_eq_updPenda (o : Nat) (u : UpdItem) : (if u.a then bits o 63 48 - 1 else bits o 63 48) = updPenda o u := by
  unfold updPenda
  cases u.a
  · rfl
  · by_cases hpenda : bits o 63 48 = 0 <;> simp [hpenda]

/-- The object that an update makes: its fields, chosen by whether the phase completes. -/
def updObj (o : Nat) (u : UpdItem) : Nat :=
  objPack (if updFin o u then bits o 31 0 + 1 else bits o 31 0) (bits o 47 32) (if updFin o u then bits o 47 32 else updPenda o u)
    (if updFin o u then bits o 159 112 else updPendb o u) (bits o 159 112) (updErrcnt o u) ((!u.clr && bit o 176) || u.err)
    ((!u.clr && bit o 177) || (u.a && bits o 63 48 == 0)) (bit o 178) (if updFin o u then 0 else bits o 207 192)

/-- An update answers the object it makes, the phase before it, and whether that phase completed. -/
theorem objApply_eq (o : Nat) (u : UpdItem) : objApply o u = (updObj o u, bits o 31 0, updFin o u) := by
  have hclr (b : Bool) : (if u.clr then false else b) = (!u.clr && b) := by cases u.clr <;> rfl
  have hfin : (objInit o && updPenda o u == 0 && wrap ((bits o 111 64 : Int) + u.e - u.c) 48 == 0) = updFin o u := rfl
  unfold objApply updObj
  simp only [penda_sub_eq_updPenda, hclr, hfin]
  cases hf : updFin o u
  · rfl
  · have hinit : bit o 178 = true := by
      rw [updFin, Bool.and_assoc, Bool.and_eq_true] at hf
      exact hf.1
    rw [hinit]
    rfl

/-! ### The object in memory -/

@[simp] theorem length_leBytes : ∀ n x : Nat, (leBytes n x).length = n
  | 0, _ => rfl
  | n + 1, x => congrArg (· + 1) (length_leBytes n (x / 256))

theorem leValue_leBytes : ∀ n x : Nat, leValue (leBytes n x) = x % 256 ^ n
  | 0, x => (Nat.mod_one x).symm
  | n + 1, x => by
    rw [leBytes, leValue, leValue_leBytes n, BitVec.toNat_ofNat, (Nat.pow_succ' : 256 ^ (n + 1) = _), Nat.mod_mul]

theorem memRdN_memWrN {m : Memory} (k : Nat) (bs : List Byte) (h : m.wf = true) : memRdN (memWrN m k bs) k bs.length = bs := by
  refine List.ext_getElem (by simp [memRdN]) fun i _ hi => ?_
  simp [memRdN, memRd_memWrN_same bs k i h hi, hi]

theorem memRdV_memWrV {m : Memory} (k n x : Nat) (h : m.wf = true) : memRdV (memWrV m k n x) k n = x % 256 ^ n := by
  have hbytes := memRdN_memWrN k (leBytes n x) h
  rw [length_leBytes] at hbytes
  rw [memRdV, memWrV, hbytes, leValue_leBytes]

theorem poolWr_mem (s : State) (k : Nat) (bs : List Byte) : (poolWr s k bs).mem = memWrN s.mem k bs := rfl

theorem objUpdate_mem (s : State) (ctx k : Nat) (u : UpdItem) (src : StrongRec) :
    (objUpdate s ctx k u src).1.mem = memWrV s.mem k 32 (objApply (objRd s k) u).1 := by
  simp only [objUpdate, ite_mem, fireChain_mem, noteStrong_mem, ite_self, poolWr_mem, memWrV]

/-! ### O53 -/

/-- Settles O53: an update packs the fields that R310 computes, each within its width, and writes the object's 32 bytes alone. -/
theorem objectUpdate : Obligations.ObjectUpdate := by
  refine ⟨fun o u _ => ?fields, fun s ctx k u src hwf => ⟨?holds, ?phase, fun a ha => ?frame⟩⟩
  case fields =>
    obtain ⟨hlt, hphase, hexpa, hpenda, hpendb, hexpb, herrcnt, herr, hover, hinit, hlow, hchead, hhigh⟩ :=
      objPack_fields (p := updObj o u) rfl
    rw [objApply_eq]
    refine ⟨rfl, rfl, hlt, hphase.trans ?_, hexpa.trans ?_, hpenda.trans ?_, hpendb.trans ?_, hexpb.trans ?_, herrcnt.trans ?_,
      bit_eq_of_bits herr, bit_eq_of_bits hover, bit_eq_of_bits hinit, hlow, hchead.trans ?_, hhigh⟩
    · rw [ite_mod, bits_mod_two_pow o rfl]; rfl
    · exact bits_mod_two_pow o rfl
    · rw [ite_mod, bits_mod_two_pow o rfl, Nat.mod_eq_of_lt (updPenda_lt o u)]; rfl
    · rw [ite_mod, bits_mod_two_pow o rfl, Nat.mod_eq_of_lt (updPendb_lt o u)]; rfl
    · exact bits_mod_two_pow o rfl
    · exact Nat.mod_eq_of_lt (updErrcnt_lt o u)
    · rw [ite_mod, bits_mod_two_pow o rfl]; rfl
  case holds =>
    obtain ⟨hlt, -⟩ := objPack_fields (p := updObj (objRd s k) u) rfl
    rw [objRd, objUpdate_mem, memRdV_memWrV k 32 _ hwf, objApply_eq]
    exact Nat.mod_eq_of_lt hlt
  case phase =>
    have hanswer : (objUpdate s ctx k u src).2 = (objApply (objRd s k) u).2.1 := rfl
    rw [hanswer, objApply_eq]
    rfl
  case frame =>
    rw [objUpdate_mem, memWrV, memRd_memWrN_other _ _ (by simpa using ha)]

end Sys2Proof.Machine
end

section
/-! R374 to R377, R384, R385: the joins of the region types as maxima, the cells of a region's replicas under a change, and O54. -/

namespace Sys2Proof.Machine

/-! ### Joins as maxima -/

/-- A reading of a region type's cells as families of integers: it tells the values that a cell may hold apart, a join reads the greater
of the two at each place, and thresholds look at the order alone. -/
structure JoinReading (ty : Nat) {ι : Type} (rd : Nat → ι → Int) : Prop where
  ok : ∀ {c x}, CellOk ty c → CellOk ty x → CellOk ty (latJoin ty c x)
  join : ∀ {c x}, CellOk ty c → CellOk ty x → ∀ b, rd (latJoin ty c x) b = max (rd c b) (rd x b)
  inj : ∀ {c x}, CellOk ty c → CellOk ty x → (∀ b, rd c b = rd x b) → c = x
  reached : ∀ {c x}, (∀ b, rd c b ≤ rd x b) → ∀ t, latReached ty (latValue ty c) t = true → latReached ty (latValue ty x) t = true

namespace JoinReading

variable {ty : Nat} {ι : Type} {rd : Nat → ι → Int} {c x y : Nat}

theorem join_eq_right (h : JoinReading ty rd) (hc : CellOk ty c) (hx : CellOk ty x) (hle : ∀ b, rd c b ≤ rd x b) : latJoin ty c x = x :=
  h.inj (h.ok hc hx) hx fun b => (h.join hc hx b).trans (Int.max_eq_right (hle b))

theorem join_self (h : JoinReading ty rd) (hc : CellOk ty c) : latJoin ty c c = c := h.join_eq_right hc hc fun _ => Int.le_refl _

theorem join_comm (h : JoinReading ty rd) (hc : CellOk ty c) (hx : CellOk ty x) : latJoin ty c x = latJoin ty x c :=
  h.inj (h.ok hc hx) (h.ok hx hc) fun b => by rw [h.join hc hx, h.join hx hc, Int.max_comm]

theorem join_assoc (h : JoinReading ty rd) (hc : CellOk ty c) (hx : CellOk ty x) (hy : CellOk ty y) :
    latJoin ty c (latJoin ty x y) = latJoin ty (latJoin ty c x) y :=
  h.inj (h.ok hc (h.ok hx hy)) (h.ok (h.ok hc hx) hy) fun b => by
    rw [h.join hc (h.ok hx hy), h.join hx hy, h.join (h.ok hc hx) hy, h.join hc hx, Int.max_assoc]

theorem le_join_left (h : JoinReading ty rd) (hc : CellOk ty c) (hx : CellOk ty x) (b : ι) : rd c b ≤ rd (latJoin ty c x) b :=
  h.join hc hx b ▸ Int.le_max_left ..

theorem le_join_right (h : JoinReading ty rd) (hc : CellOk ty c) (hx : CellOk ty x) (b : ι) : rd x b ≤ rd (latJoin ty c x) b :=
  h.join hc hx b ▸ Int.le_max_right ..

end JoinReading

/-- What O54 says of the joins of one region type. -/
def JoinLaws (ty : Nat) : Prop :=
  ∀ c x y, CellOk ty c → CellOk ty x → CellOk ty y →
    let j := latJoin ty
    CellOk ty (j c x) ∧ j c c = c ∧ j c x = j x c ∧ j c (j x y) = j (j c x) y ∧ j c (j c x) = j c x ∧ j x (j c x) = j c x ∧
    ∀ t, latReached ty (latValue ty c) t = true → latReached ty (latValue ty (j c x)) t = true

theorem JoinReading.laws {ty : Nat} {ι : Type} {rd : Nat → ι → Int} (h : JoinReading ty rd) : JoinLaws ty := by
  intro c x y hc hx hy
  have hcx := h.ok hc hx
  exact ⟨hcx, h.join_self hc, h.join_comm hc hx, h.join_assoc hc hx hy, h.join_eq_right hc hcx (h.le_join_left hc hx),
    h.join_eq_right hx hcx (h.le_join_right hc hx), h.reached (h.le_join_left hc hx)⟩

/-! ### The types that keep the greatest or the least value (R374, R376) -/

/-- How high a value stands in the order of its type; a type whose cells fall counts downwards, a NaN stands above every number. -/
def cellRank (ty c : Nat) : Int :=
  match ty with
  | 0 | 1 => c
  | 2 => -sext c 32
  | 3 => if isNan32 c then 2 ^ 32 else -ord32 c
  | _ => -(c : Int)

theorem sext_inj {w c x : Nat} (hc : c < 2 ^ w) (hx : x < 2 ^ w) (h : sext c w = sext x w) : c = x := by
  rw [sext_eq_toInt, sext_eq_toInt, BitVec.toInt_inj] at h
  have hnat := congrArg BitVec.toNat h
  rwa [BitVec.toNat_ofNat, BitVec.toNat_ofNat, Nat.mod_eq_of_lt hc, Nat.mod_eq_of_lt hx] at hnat

/-- R376: the order of numbers runs down through the patterns that have the sign set. -/
theorem ord32_eq {x : Nat} (h : x < 2 ^ 32) : ord32 x = if x < 2 ^ 31 then (x : Int) else 2 ^ 31 - 1 - x := by
  have hsign : bit x 31 = decide (2 ^ 31 ≤ x) := by
    rw [bit, Nat.testBit_eq_decide_div_mod_eq, decide_eq_decide]
    omega
  have hlow : bits x 30 0 = x % 2 ^ 31 := rfl
  simp only [ord32, hsign, hlow, decide_eq_true_eq]
  split <;> split <;> omega

theorem ord32_inj {c x : Nat} (hc : c < 2 ^ 32) (hx : x < 2 ^ 32) (h : ord32 c = ord32 x) : c = x := by
  rw [ord32_eq hc, ord32_eq hx] at h
  split at h <;> split at h <;> omega

/-- Every number's rank is below that of a NaN. -/
theorem neg_ord32_lt (x : Nat) : -ord32 x < 2 ^ 32 := by
  have hlow : bits x 30 0 < 2 ^ 31 := Nat.mod_lt _ (Nat.two_pow_pos 31)
  unfold ord32
  split <;> omega

/-- R376: the join of floats answers one of the two, or the one NaN. -/
theorem minF32Join_cases {c x : Nat} (hc : CellOk 3 c) (hx : CellOk 3 x) : minF32Join c x = c ∨ minF32Join c x = x := by
  obtain ⟨-, hcnan⟩ := hc
  obtain ⟨-, hxnan⟩ := hx
  unfold minF32Join
  split
  next h =>
    obtain h | h := (Bool.or_eq_true ..).mp h
    · exact .inl (hcnan rfl h).symm
    · exact .inr (hxnan rfl h).symm
  next => split <;> simp

theorem cellRank_of_nan {x : Nat} (h : isNan32 x = true) : cellRank 3 x = 2 ^ 32 := if_pos h

theorem cellRank_of_number {x : Nat} (h : isNan32 x = false) : cellRank 3 x = -ord32 x := if_neg (ne_true_of_eq_false h)

theorem cellRank_float_le (x : Nat) : cellRank 3 x ≤ 2 ^ 32 := by
  cases h : isNan32 x with
  | false => exact cellRank_of_number h ▸ Int.le_of_lt (neg_ord32_lt x)
  | true => exact Int.le_of_eq (cellRank_of_nan h)

theorem cellRank_minF32Join (c x : Nat) : cellRank 3 (minF32Join c x) = max (cellRank 3 c) (cellRank 3 x) := by
  have hnan : cellRank 3 0x7FC00000 = 2 ^ 32 := cellRank_of_nan (by decide)
  unfold minF32Join
  cases hc : isNan32 c with
  | true => rw [Bool.true_or, if_pos rfl, hnan, cellRank_of_nan hc, Int.max_eq_left (cellRank_float_le x)]
  | false =>
    cases hx : isNan32 x with
    | true => rw [Bool.or_true, if_pos rfl, hnan, cellRank_of_nan hx, Int.max_eq_right (cellRank_float_le c)]
    | false =>
      rw [Bool.or_self, if_neg Bool.false_ne_true, apply_ite (cellRank 3), cellRank_of_number hc, cellRank_of_number hx]
      split <;> omega

theorem cellRank_float_inj {c x : Nat} (hc : CellOk 3 c) (hx : CellOk 3 x) (h : cellRank 3 c = cellRank 3 x) : c = x := by
  obtain ⟨hclt, hcnan⟩ := hc
  obtain ⟨hxlt, hxnan⟩ := hx
  have hcord := neg_ord32_lt c
  have hxord := neg_ord32_lt x
  simp only [cellRank] at h
  split at h <;> split at h
  next hc hx => exact (hcnan rfl hc).trans (hxnan rfl hx).symm
  next => omega
  next => omega
  next => exact ord32_inj hclt hxlt (Int.neg_inj.mp h)

/-- R376: a number reaches no threshold that is a NaN, and a NaN reaches every threshold. -/
theorem latReached_float (v t : Nat) : latReached 3 v t = decide (cellRank 3 t ≤ cellRank 3 v) := by
  have hv := neg_ord32_lt v
  have ht := neg_ord32_lt t
  simp only [latReached, cellRank]
  cases isNan32 v <;> cases isNan32 t
  case false.false => simp
  case false.true => simpa using hv
  case true.false => simpa using Int.le_of_lt ht
  case true.true => simp

section
variable {ty : Nat} (h : ty = 0 ∨ ty = 1 ∨ ty = 2 ∨ ty = 3 ∨ ty = 4 ∨ ty = 7)
include h

theorem latJoin_ranked_cases {c x : Nat} (hc : CellOk ty c) (hx : CellOk ty x) : latJoin ty c x = c ∨ latJoin ty c x = x := by
  have hmax : max c x = c ∨ max c x = x := by omega
  have hmin : min c x = c ∨ min c x = x := by omega
  have hsigned : (if sext x 32 < sext c 32 then x else c) = c ∨ (if sext x 32 < sext c 32 then x else c) = x := by
    split
    · exact .inr rfl
    · exact .inl rfl
  obtain rfl | rfl | rfl | rfl | rfl | rfl := h
  · exact hmax
  · exact hmax
  · exact hsigned
  · exact minF32Join_cases hc hx
  · exact hmin
  · exact hmin

theorem cellRank_latJoin (c x : Nat) : cellRank ty (latJoin ty c x) = max (cellRank ty c) (cellRank ty x) := by
  have hmax : ((max c x : Nat) : Int) = max (c : Int) (x : Int) := by omega
  have hmin : (-((min c x : Nat) : Int)) = max (-(c : Int)) (-(x : Int)) := by omega
  obtain rfl | rfl | rfl | rfl | rfl | rfl := h
  · exact hmax
  · exact hmax
  · simp only [latJoin, cellRank, apply_ite (sext · 32)]
    split <;> omega
  · exact cellRank_minF32Join c x
  · exact hmin
  · exact hmin

theorem cellRank_inj {c x : Nat} (hc : CellOk ty c) (hx : CellOk ty x) (hrank : cellRank ty c = cellRank ty x) : c = x := by
  obtain rfl | rfl | rfl | rfl | rfl | rfl := h
  · exact Int.ofNat.inj hrank
  · exact Int.ofNat.inj hrank
  · exact sext_inj hc.1 hx.1 (Int.neg_inj.mp hrank)
  · exact cellRank_float_inj hc hx hrank
  · exact Int.ofNat.inj (Int.neg_inj.mp hrank)
  · exact Int.ofNat.inj (Int.neg_inj.mp hrank)

/-- R374: a threshold is reached by the values that rank as high. -/
theorem latReached_ranked (c t : Nat) : latReached ty (latValue ty c) t = decide (cellRank ty t ≤ cellRank ty c) := by
  obtain rfl | rfl | rfl | rfl | rfl | rfl := h
  · simp [latReached, latValue, cellRank]
  · simp [latReached, latValue, cellRank]
  · simp [latReached, latValue, cellRank]
  · exact latReached_float c t
  · simp [latReached, latValue, cellRank]
  · simp [latReached, latValue, cellRank]

theorem joinReading_ranked : JoinReading ty (fun c (_ : Unit) => cellRank ty c) where
  ok {c x} hc hx := by
    obtain heq | heq := latJoin_ranked_cases h hc hx
    · rwa [heq]
    · rwa [heq]
  join {c x} _ _ _ := cellRank_latJoin h c x
  inj hc hx hrank := cellRank_inj h hc hx (hrank ())
  reached {c x} hle t := by
    rw [latReached_ranked h, latReached_ranked h, decide_eq_true_eq, decide_eq_true_eq]
    exact fun ht => Int.le_trans ht (hle ())

end

/-! ### LOR (R374) -/

/-- A bit of a value as an integer. -/
def bitRank (c i : Nat) : Int := (c.testBit i).toNat

theorem bitRank_or (c x i : Nat) : bitRank (c ||| x) i = max (bitRank c i) (bitRank x i) := by
  rw [bitRank, bitRank, bitRank, Nat.testBit_or]
  cases c.testBit i <;> cases x.testBit i <;> decide

theorem testBit_of_bitRank_eq {c x i : Nat} (h : bitRank c i = bitRank x i) : c.testBit i = x.testBit i := by
  revert h
  rw [bitRank, bitRank]
  cases c.testBit i <;> cases x.testBit i <;> decide

/-- A threshold of an LOR cell is a set of bits, reached when the value has them all. -/
theorem latReached_lor_iff (v t : Nat) : latReached 5 v t = true ↔ ∀ i, bitRank t i ≤ bitRank v i := by
  have hand : latReached 5 v t = true ↔ v &&& t = t := beq_iff_eq
  have hbits : v &&& t = t ↔ ∀ i, (v &&& t).testBit i = t.testBit i := ⟨fun h _ => h.symm ▸ rfl, Nat.eq_of_testBit_eq⟩
  rw [hand, hbits]
  refine forall_congr' fun i => ?_
  rw [Nat.testBit_and, bitRank, bitRank]
  cases v.testBit i <;> cases t.testBit i <;> decide

theorem joinReading_lor : JoinReading 5 bitRank where
  ok hc hx := ⟨Nat.or_lt_two_pow hc.1 hx.1, nofun⟩
  join {c x} _ _ := bitRank_or c x
  inj _ _ h := Nat.eq_of_testBit_eq fun i => testBit_of_bitRank_eq (h i)
  reached hle t ht := (latReached_lor_iff _ t).mpr fun i => Int.le_trans ((latReached_lor_iff _ t).mp ht i) (hle i)

/-! ### GCOUNT (R377, R385) -/

/-- The slot of a stack in a GCOUNT cell. -/
def cellSlot (c b : Nat) : Nat := (c >>> (b * 64)) % 2 ^ 64

theorem cellSlot_lt (c b : Nat) : cellSlot c b < 2 ^ 64 := Nat.mod_lt _ (Nat.two_pow_pos 64)

theorem elems_eq_slots (c : Nat) : elems 64 8 c = (List.range 8).map (cellSlot c) := rfl

theorem nth_elems {b : Nat} (c : Nat) (h : b < 8) : nth (elems 64 8 c) b 0 = cellSlot c b := by
  simp [nth, elems_eq_slots, h]

theorem packElems_lt (w : Nat) : ∀ l : List Nat, packElems w l < 2 ^ (l.length * w)
  | [] => by simp [packElems]
  | a :: l => by
    have ha := Nat.mod_lt a (Nat.two_pow_pos w)
    have hl := Nat.mul_le_mul_left (2 ^ w) (packElems_lt w l)
    rw [List.length_cons, Nat.succ_mul, Nat.add_comm, Nat.pow_add, packElems]
    rw [Nat.mul_succ] at hl
    omega

/-- Packing the elements of a value gives its low bits back. -/
theorem packElems_elems (w : Nat) : ∀ n x : Nat, packElems w (elems w n x) = x % 2 ^ (n * w)
  | 0, x => by simp [elems, packElems, Nat.mod_one]
  | n + 1, x => by
    have hcons : elems w (n + 1) x = x % 2 ^ w :: elems w n (x >>> w) := by
      simp [elems, List.range_succ_eq_map, Nat.succ_mul, ← Nat.shiftRight_add, Nat.add_comm]
    rw [hcons, packElems, packElems_elems w n, Nat.mod_mod, Nat.shiftRight_eq_div_pow, Nat.succ_mul, Nat.add_comm (n * w), Nat.pow_add,
      Nat.mod_mul]

theorem cellBytes_gcount : cellBytes 6 = 64 := rfl

theorem cellOk_packElems {l : List Nat} (h : l.length = 8) : CellOk 6 (packElems 64 l) := by
  refine ⟨?_, nofun⟩
  rw [cellBytes_gcount, ← h]
  exact packElems_lt 64 l

theorem packElems_slots {c : Nat} (h : CellOk 6 c) : packElems 64 (elems 64 8 c) = c := by
  obtain ⟨hlt, -⟩ := h
  rw [cellBytes_gcount] at hlt
  rw [packElems_elems, Nat.mod_eq_of_lt hlt]

theorem cellSlot_packElems {l : List Nat} {b : Nat} (h : b < l.length) : cellSlot (packElems 64 l) b = l[b] % 2 ^ 64 :=
  packElems_shiftRight_mod 64 l b h

theorem cellSlot_join (c x : Nat) {b : Nat} (h : b < 8) : cellSlot (latJoin 6 c x) b = max (cellSlot c b) (cellSlot x b) := by
  have hmax : max (cellSlot c b) (cellSlot x b) < 2 ^ 64 := Nat.max_lt.mpr ⟨cellSlot_lt c b, cellSlot_lt x b⟩
  refine (cellSlot_packElems (by simpa using h)).trans ?_
  simpa [elems_eq_slots] using hmax

/-- The value of a GCOUNT cell is the saturated sum of its slots. -/
theorem latValue_gcount (c : Nat) : latValue 6 c = min ((List.range 8).map (cellSlot c)).sum (2 ^ 64 - 1) :=
  congrArg (min · _) List.sum_eq_foldl.symm

theorem sum_map_le {f g : Nat → Nat} : ∀ {l : List Nat}, (∀ b ∈ l, f b ≤ g b) → (l.map f).sum ≤ (l.map g).sum
  | [], _ => Nat.le_refl _
  | a :: l, h => by
    obtain ⟨ha, hl⟩ := List.forall_mem_cons.mp h
    exact Nat.add_le_add ha (sum_map_le hl)

theorem joinReading_gcount : JoinReading 6 (fun c (b : Fin 8) => (cellSlot c b : Int)) where
  ok _ _ := cellOk_packElems (by simp)
  join {c x} _ _ b := by
    rw [cellSlot_join c x b.isLt]
    omega
  inj {c x} hc hx h := by
    have helems : elems 64 8 c = elems 64 8 x := List.map_congr_left fun b hb => Int.ofNat.inj (h ⟨b, List.mem_range.1 hb⟩)
    rw [← packElems_slots hc, helems, packElems_slots hx]
  reached {c x} hle t ht := by
    have hsum : ((List.range 8).map (cellSlot c)).sum ≤ ((List.range 8).map (cellSlot x)).sum :=
      sum_map_le fun b hb => Int.ofNat_le.mp (hle ⟨b, List.mem_range.1 hb⟩)
    have hvalue : latValue 6 c ≤ latValue 6 x := by
      rw [latValue_gcount, latValue_gcount]
      omega
    exact decide_eq_true (Nat.le_trans (of_decide_eq_true ht) hvalue)

/-! ### Every type -/

theorem joinLaws {ty : Nat} (h : ty < 8) : JoinLaws ty := by
  by_cases hor : ty = 5
  · exact hor ▸ joinReading_lor.laws
  by_cases hcount : ty = 6
  · exact hcount ▸ joinReading_gcount.laws
  · exact (joinReading_ranked (by omega)).laws

/-! ### A cell of a replica changed (R384) -/

/-- R384: a replica with the value v in its cell i, the cell's line marked. -/
def putCell (r : Region) (i v : Nat) (p : Replica) : Replica :=
  { p with vals := (if v = bottomOf r.ty then [] else [(i, v)]) ++ p.vals.filter (fun c => c.1 != i),
           changed := (cellLine r i, p.snaps) :: p.changed.filter (fun l => l.1 != cellLine r i) }

section
variable (r : Region) {k m i n : Nat} (v : Nat)

theorem find_cellPut : (cellPut r k i v).reps.find? (fun p => p.stack == m) =
    (r.reps.find? (fun p => p.stack == m)).map (fun p => if p.stack != k then p else putCell r i v p) := by
  have hkeep : (fun p : Replica => p.stack == m) ∘ (fun p => if p.stack != k then p else putCell r i v p) = fun p => p.stack == m := by
    funext p
    simp only [Function.comp_apply, apply_ite (Replica.stack), putCell, ite_self]
  rw [← hkeep, ← List.find?_map, hkeep]; rfl

theorem replicaAt_cellPut_ne (h : m ≠ k) : replicaAt (cellPut r k i v) m = replicaAt r m := by
  rw [replicaAt, find_cellPut, replicaAt]
  cases hp : r.reps.find? (fun p => p.stack == m) with
  | none => rfl
  | some p =>
    have hstack : (p.stack == m) = true := List.find?_some (p := fun p : Replica => p.stack == m) hp
    simp [beq_iff_eq.mp hstack, h]

variable (hrep : r.reps.any (fun p => p.stack == k) = true)
include hrep

theorem replicaAt_cellPut : replicaAt (cellPut r k i v) k = putCell r i v (replicaAt r k) := by
  obtain ⟨p, hp⟩ := Option.isSome_iff_exists.mp (List.find?_isSome.mpr (List.any_eq_true.mp hrep))
  have hstack : (p.stack == k) = true := List.find?_some (p := fun p : Replica => p.stack == k) hp
  simp [replicaAt, find_cellPut, hp, beq_iff_eq.mp hstack]

theorem cellRd_cellPut : cellRd (cellPut r k i v) k i = v := by
  have hgone : ((replicaAt r k).vals.filter (fun c => c.1 != i)).find? (fun c => c.1 == i) = none := by simp
  rw [cellRd, replicaAt_cellPut r v hrep, putCell, List.find?_append, hgone]
  by_cases hv : v = bottomOf r.ty
  · simp [hv, cellPut]
  · simp [hv]

theorem cellRd_cellPut_ne (h : m ≠ k ∨ n ≠ i) : cellRd (cellPut r k i v) m n = cellRd r m n := by
  by_cases hm : m = k
  · subst hm
    have hn : n ≠ i := by simpa using h
    have hkept : ((replicaAt r m).vals.filter (fun c => c.1 != i)).find? (fun c => c.1 == n) =
        (replicaAt r m).vals.find? (fun c => c.1 == n) := by
      rw [List.find?_filter]
      congr 1
      funext c
      by_cases hc : c.1 = n <;> simp [hc, hn]
    have hhead : (if v = bottomOf r.ty then [] else [(i, v)]).find? (fun c => c.1 == n) = none := by
      split <;> simp [hn.symm]
    rw [cellRd, replicaAt_cellPut r v hrep, putCell, List.find?_append, hkept, hhead]; rfl
  · rw [cellRd, replicaAt_cellPut_ne r v hm]; rfl

/-- A change of one cell, left out where the cell holds the value already. -/
theorem cellRd_put_unless_same :
    let q := if v = cellRd r k i then r else cellPut r k i v
    cellRd q k i = v ∧ ∀ m n, m ≠ k ∨ n ≠ i → cellRd q m n = cellRd r m n := by
  intro q
  by_cases hv : v = cellRd r k i
  · simp [q, ← hv]
  · simp only [q, if_neg hv]
    exact ⟨cellRd_cellPut r v hrep, fun _ _ => cellRd_cellPut_ne r v hrep⟩

end

/-! ### An addition to a slot (R385) -/

/-- R385: a GCOUNT cell after an addition to the slot of a stack. -/
def addedCell (c k a : Nat) : Nat :=
  packElems 64 ((elems 64 8 c).set k (min (nth (elems 64 8 c) k 0 + a) (2 ^ 64 - 1)))

theorem cellOk_addedCell (c k a : Nat) : CellOk 6 (addedCell c k a) := cellOk_packElems (by simp)

theorem cellSlot_addedCell (c a : Nat) {k b : Nat} (hk : k < 8) (hb : b < 8) :
    cellSlot (addedCell c k a) b = if b = k then min (cellSlot c k + a) (2 ^ 64 - 1) else cellSlot c b := by
  have hc := cellSlot_lt c b
  rw [addedCell, cellSlot_packElems (by simpa using hb), List.getElem_set, nth_elems c hk]
  by_cases h : k = b
  · have hsat : min (cellSlot c b + a) (2 ^ 64 - 1) < 2 ^ 64 := by omega
    rw [if_pos h, if_pos h.symm, h, Nat.mod_eq_of_lt hsat]
  · rw [if_neg h, if_neg (Ne.symm h)]
    simpa [elems_eq_slots] using hc

/-- Settles O54: in the readings that `JoinReading` names a join is the greater of the two; a cell changed holds the join, or the cell with the
slot grown, and no other cell changes. -/
theorem latticeJoins : Obligations.LatticeJoins := by
  refine ⟨fun ty c x y hty hc hx hy => ?laws, fun r k i x hty hc hx hrep => ?join, fun r k i a hty hk hc hrep => ?add⟩
  case laws =>
    obtain ⟨hok, hself, hcomm, hassoc, hleft, hright, hreached⟩ := joinLaws hty c x y hc hx hy
    exact ⟨hok, hself, hcomm, hassoc, hleft, hright, fun t _ _ => hreached t⟩
  case join =>
    obtain ⟨-, -, -, -, habsorb, -⟩ := joinLaws hty _ _ x hc hx hx
    obtain ⟨hcell, hother⟩ := cellRd_put_unless_same r (latJoin r.ty (cellRd r k i) x) hrep
    exact ⟨hcell, (congrArg _ hcell).trans (habsorb.trans hcell.symm), hother⟩
  case add =>
    have hle (b : Fin 8) : (cellSlot (cellRd r k i) b : Int) ≤ cellSlot (addedCell (cellRd r k i) k a) b := by
      have hlt := cellSlot_lt (cellRd r k i) k
      rw [cellSlot_addedCell _ a hk b.isLt]
      split
      next h => rw [h]; omega
      next => exact Int.le_refl _
    have hrises := joinReading_gcount.join_eq_right hc (cellOk_addedCell (cellRd r k i) k a) hle
    obtain ⟨hcell, hother⟩ := cellRd_put_unless_same r (addedCell (cellRd r k i) k a) hrep
    refine ⟨(congrArg _ hcell).trans (hrises.trans hcell.symm), fun b hb => ?_, hother⟩
    rw [nth_elems _ hb, nth_elems _ hb, nth_elems _ hk, ← cellSlot_addedCell _ a hk hb]
    exact congrArg (cellSlot · b) hcell

end Sys2Proof.Machine
end

section
/-! The command front (R443, R444, R461): what a packet does to its queue by its distance from LAST and by FILL, what enabling a queue
leaves in it, what a claim answers, and O36 and O37. -/

namespace Sys2Proof.Machine

open Sys2Proof.Laws

/-! ### A queue changed -/

theorem nth_modify {α : Type} (l : List α) (i : Nat) (f : α → α) (d : α) :
    nth (l.modify i f) i d = if i < l.length then f (nth l i d) else d := by
  simp only [nth, List.getD_eq_getElem?_getD, List.getElem?_modify_eq]
  by_cases hi : i < l.length
  · rw [if_pos hi, List.getElem?_eq_getElem hi]
    rfl
  · rw [if_neg hi, List.getElem?_eq_none (Nat.le_of_not_lt hi)]
    rfl

/-- Two changes that agree on the element change the list alike. -/
theorem modify_congr_nth {α : Type} {l : List α} {i : Nat} {f g : α → α} {d : α} (h : f (nth l i d) = g (nth l i d)) :
    l.modify i f = l.modify i g := by
  refine List.ext_getElem? fun j => ?_
  by_cases hj : i = j
  · subst hj
    rw [List.getElem?_modify_eq, List.getElem?_modify_eq]
    rw [nth, List.getD_eq_getElem?_getD] at h
    cases hl : l[i]? with
    | none => rfl
    | some a =>
      rw [hl] at h
      exact congrArg some h
  · rw [List.getElem?_modify_ne f l hj, List.getElem?_modify_ne g l hj]

/-- Beyond the last queue `queueAt` reads the queue after reset, and a change leaves it so. -/
theorem queueAt_modQ (s : State) (part queue : Nat) (f : Queue → Queue) :
    queueAt (modQ s part queue f) part queue = f (queueAt s part queue) ∨ queueAt (modQ s part queue f) part queue = Queue.reset := by
  have hreset : nth Part.reset.queues queue Queue.reset = Queue.reset := by
    rw [reset_part_queues, nth, List.getD_eq_getElem?_getD, List.getElem?_replicate]
    split <;> rfl
  simp only [queueAt, partAt, modQ, modP_parts, nth_modify]
  split
  next =>
    rw [nth_modify]
    split
    · exact .inl rfl
    · exact .inr rfl
  next => exact .inr hreset

/-- A change of a queue is settled by what it makes of the queue as it is. -/
theorem modQ_congr {s : State} {part queue : Nat} {f g : Queue → Queue} (h : f (queueAt s part queue) = g (queueAt s part queue)) :
    modQ s part queue f = modQ s part queue g := by
  have hqueues : (partAt s part).queues.modify queue f = (partAt s part).queues.modify queue g := modify_congr_nth h
  have hparts := modify_congr_nth (l := s.parts) (i := part) (d := Part.reset)
    (f := fun p => { p with queues := p.queues.modify queue f }) (g := fun p => { p with queues := p.queues.modify queue g })
    (congrArg (fun qs => { partAt s part with queues := qs }) hqueues)
  exact congrArg (fun ps => { s with parts := ps }) hparts

theorem modQ_eq_self {s : State} {part queue : Nat} {f : Queue → Queue} (h : f (queueAt s part queue) = queueAt s part queue) :
    modQ s part queue f = s := by
  have hpart : (fun p : Part => { p with queues := p.queues.modify queue id }) = id :=
    funext fun p => congrArg (fun qs => { p with queues := qs }) (List.modify_id queue p.queues)
  rw [modQ_congr (g := id) h, modQ, hpart]
  exact congrArg (fun ps => { s with parts := ps }) (List.modify_id part s.parts)

/-! ### The table of R444 -/

/-- The distance of a packet's SEQ from LAST modulo 2^32. -/
def seqDist (q : Queue) (bytes : List Byte) : Nat := (BitVec.ofNat 32 (cmdPkt bytes).seq - BitVec.ofNat 32 q.last).toNat

section
variable {q : Queue} {bytes : List Byte}

theorem submit_eq_self (h : seqDist q bytes = 0 ∨ 2 ^ 31 ≤ seqDist q bytes) : submit q bytes = q := if_pos h

theorem submit_eq_gap (h2 : 2 ≤ seqDist q bytes) (h : seqDist q bytes < 2 ^ 31) : submit q bytes = { q with gap := true } := by
  have hahead : ¬(seqDist q bytes = 0 ∨ 2 ^ 31 ≤ seqDist q bytes) := by omega
  have hskips : seqDist q bytes ≠ 1 := by omega
  exact (if_neg hahead).trans (if_pos hskips)

theorem submit_eq_of_next (h : seqDist q bytes = 1) : submit q bytes =
    if 256 ≤ q.intake.length then { q with overf := true }
    else { q with last := (cmdPkt bytes).seq, intake := q.intake ++ [{ raw := bytes, taken := none, started := false }] } := by
  have hahead : ¬(seqDist q bytes = 0 ∨ 2 ^ 31 ≤ seqDist q bytes) := by omega
  exact (if_neg hahead).trans (if_neg (not_not_intro h))

end

section
variable {s : State} {part queue : Nat} (hup : funcUp s part = true) (hen : (partAt s part).enable = true)
include hup hen

theorem exec_qinSubmission_dropped {bytes : List Byte} (h : bytes.length ≠ 64 ∨ (queueAt s part queue).enable = false) :
    exec (.qinSubmission part queue bytes) s = .next (logUr s) := by
  rw [exec_qinSubmission, execQinSubmission]
  rcases h with h | h <;> simp [hup, hen, h]

/-- A submission that is not dropped: the queue becomes what the table makes of it, and of the rest only cores change, which note a
doorbell (R302). -/
theorem exec_qinSubmission_taken {bytes : List Byte} (hlen : bytes.length = 64) (hq : (queueAt s part queue).enable = true)
    {f : Queue → Queue} (hf : submit (queueAt s part queue) bytes = f (queueAt s part queue)) :
    ∃ cores, exec (.qinSubmission part queue bytes) s = .next { modQ s part queue f with cores := cores } := by
  have hexec : exec (.qinSubmission part queue bytes) s = .next (partEvent (modQ s part queue (submit · bytes)) part) := by
    rw [exec_qinSubmission, execQinSubmission]
    simp [hup, hen, hlen, hq]
  rw [hexec, modQ_congr hf]
  exact ⟨_, rfl⟩

/-- R443, R444: a queue that was not enabled is enabled with LAST and QCSEQ 0. -/
theorem exec_qcfgEnable_restarts {val : W64} (hval : val.getLsbD 2 = true) (hq : (queueAt s part queue).enable = false) :
    ∃ t, exec (.qcfgEnable part queue val) s = .next t ∧ (queueAt t part queue).last = 0 ∧ (queueAt t part queue).qcseq = 0 := by
  rw [exec_qcfgEnable, execQcfgEnable]
  simp only [hup, hen, Bool.not_true, Bool.false_eq_true, if_false]
  refine ⟨_, rfl, ?_⟩
  rcases queueAt_modQ s part queue _ with h | h <;> rw [h]
  · simp [hval, hq]
  · exact ⟨rfl, rfl⟩

end

/-- Settles O36: an accepted submission makes of the queue what `submit` does, whose branches are the lines of the table; enabling a
queue that was not enabled writes 0 to LAST and QCSEQ. -/
theorem submissionTable : Obligations.SubmissionTable := by
  refine ⟨fun s part queue bytes hup hen => ?_, fun s part queue val hup hen => exec_qcfgEnable_restarts hup hen⟩
  refine ⟨exec_qinSubmission_dropped hup hen, fun hlen hq => ⟨fun hd hroom => ?next, fun hd hfull => ?full, fun hd => ?old,
    fun h2 hd => ?ahead⟩⟩
  case next => exact exec_qinSubmission_taken hup hen hlen hq ((submit_eq_of_next hd).trans (if_neg (Nat.not_le_of_lt hroom)))
  case full => exact exec_qinSubmission_taken hup hen hlen hq ((submit_eq_of_next hd).trans (if_pos hfull))
  case old =>
    have hsame := exec_qinSubmission_taken (f := id) hup hen hlen hq (submit_eq_self hd)
    rwa [modQ_eq_self rfl] at hsame
  case ahead => exact exec_qinSubmission_taken hup hen hlen hq (submit_eq_gap h2 hd)

/-! ### Claims (R461) -/

theorem exec_atomicPerformed_tclaim {s : State} {op num : Nat} {o : Op} (lanes : Mask) (hop : getOp s op = some o)
    (hkind : o.kind = .tclaim num) : exec (.atomicPerformed op lanes) s =
      .next (agentReturn (claim s (agentPart s o.g) (agentCore s o.g) num).1 o (claim s (agentPart s o.g) (agentCore s o.g) num).2) := by
  simp only [exec_atomicPerformed, execAtomicPerformed, hop, hkind]

/-- A core holds the claim of a team index of a grid. -/
def holdClaim (s : State) (core grid i : Nat) : State :=
  modCore s core (fun k => { k with agent := { k.agent with claim := some (grid, i) } })

section
variable {s : State} {part core num : Nat}

/-- Without a live grid of the number, or with a claim held already, a claim changes nothing. -/
theorem claim_refused (h : liveGrid s part num = none ∨ (coreAt s core).agent.claim.isSome = true) :
    claim s part core num = (s, 2 ^ 32 - 1) := by
  unfold claim
  cases hg : liveGrid s part num with
  | none => rfl
  | some g =>
    have hheld := h.resolve_left (by simp [hg])
    simp [hheld]

variable {g : Grid} (hg : liveGrid s part num = some g) (hfence : (coreAt s core).fenced = false)
  (hfree : (coreAt s core).agent.claim = none)
include hg hfence hfree

/-- A claim that a core may make takes a returned index, else the next ticket. -/
theorem claim_eq : claim s part core num =
    match returnedIdx g core with
    | some i => (holdClaim (modGrid s g.id (fun g => { g with returned := g.returned.filter (· != i) })) core g.id i, i)
    | none =>
      if g.ticket < g.lr.teams then (holdClaim (modGrid s g.id (fun g => { g with ticket := g.ticket + 1 })) core g.id g.ticket, g.ticket)
      else (s, 2 ^ 32 - 1) := by
  unfold claim
  simp only [hg, hfree, hfence, Option.isSome_none, Bool.or_false, Bool.false_eq_true, if_false]
  rfl

theorem claim_returned {i : Nat} (hi : returnedIdx g core = some i) : claim s part core num =
    (holdClaim (modGrid s g.id (fun g => { g with returned := g.returned.filter (· != i) })) core g.id i, i) := by
  rw [claim_eq hg hfence hfree, hi]

theorem claim_ticket (hnone : returnedIdx g core = none) (ht : g.ticket < g.lr.teams) : claim s part core num =
    (holdClaim (modGrid s g.id (fun g => { g with ticket := g.ticket + 1 })) core g.id g.ticket, g.ticket) := by
  rw [claim_eq hg hfence hfree, hnone]
  exact if_pos ht

theorem claim_exhausted (hnone : returnedIdx g core = none) (ht : g.lr.teams ≤ g.ticket) : claim s part core num = (s, 2 ^ 32 - 1) := by
  rw [claim_eq hg hfence hfree, hnone]
  exact if_neg (Nat.not_lt_of_le ht)

end

theorem returnedIdx_of_nil {g : Grid} (core : Nat) (h : g.returned = []) : returnedIdx g core = none := by
  rw [returnedIdx, h]
  exact ite_self _

/-- Settles O37: what is answered and held is what `claim` gives, case by case. -/
theorem ticketClaims : Obligations.TicketClaims := by
  refine ⟨fun s op num lanes o gr hop hkind hg hfence hfree => ⟨fun i hshare hmin => ?returned, fun hnil ht => ?ticket,
    fun hnil ht => ?exhausted⟩, fun s op num lanes o hop hkind h => ?refused⟩
  case returned =>
    rw [exec_atomicPerformed_tclaim lanes hop hkind, claim_returned hg hfence hfree ((if_pos hshare).trans hmin)]
    rfl
  case ticket =>
    rw [exec_atomicPerformed_tclaim lanes hop hkind, claim_ticket hg hfence hfree (returnedIdx_of_nil _ hnil) ht]
    rfl
  case exhausted =>
    rw [exec_atomicPerformed_tclaim lanes hop hkind, claim_exhausted hg hfence hfree (returnedIdx_of_nil _ hnil) ht]
  case refused => rw [exec_atomicPerformed_tclaim lanes hop hkind, claim_refused h]

end Sys2Proof.Machine
end
